-- ==== Sys2Proof/Word.lean ====
section
/-! DEFINITION. The words of the VT48's connections: bytes and 16-bit words, high byte first (00_scope 4.5, R208). -/

namespace Sys2Proof

/-- One byte of a loop frame, a summit burst or the configuration memory. -/
abbrev Byte := BitVec 8

/-- A 16-bit word: counts, time stamps, readings, order numbers. -/
abbrev Word16 := BitVec 16

/-- The number a run of bytes codes, high byte first (R208). -/
def beNat (bs : List Byte) : Nat :=
  bs.foldl (fun n b => n * 256 + b.toNat) 0

/-- A number in one byte (R208). -/
def enc1 (n : Nat) : List Byte := [BitVec.ofNat 8 n]

/-- A number in two bytes, high byte first (R208). -/
def enc2 (n : Nat) : List Byte := [BitVec.ofNat 8 (n / 256), BitVec.ofNat 8 n]

/-- A number in three bytes, high byte first: the flag set of R208. -/
def enc3 (n : Nat) : List Byte :=
  [BitVec.ofNat 8 (n / 65536), BitVec.ofNat 8 (n / 256), BitVec.ofNat 8 n]

/-- A number in four bytes, high byte first (R208). -/
def enc4 (n : Nat) : List Byte :=
  [BitVec.ofNat 8 (n / 16777216), BitVec.ofNat 8 (n / 65536), BitVec.ofNat 8 (n / 256), BitVec.ofNat 8 n]

/-- A mark in one byte, 00h or 01h (R208). -/
def encMark (b : Bool) : List Byte := [if b then 1#8 else 0#8]

end Sys2Proof
end

