-- ==== Sys2Proof/Config.lean ====
section
/-! DEFINITION. The times and capacities the manual fixes for every VT48, and the values it leaves open. Times are in
milliseconds of the part's own timers (log entry 2). -/

namespace Sys2Proof.Config

/-- The key timer (R187). -/
def keyTime : Nat := 2000
/-- The drive refresh interval (R63). -/
def refreshTime : Nat := 40
/-- The release settle time (R83). -/
def settleTime : Nat := 300
/-- The ack timer (R97). -/
def ackTime : Nat := 300
/-- The ring timer (R159). -/
def ringTime : Nat := 30000
/-- The ring cadence (R159). -/
def ringRepeatTime : Nat := 1000
/-- The turn period of the summit link (R118). -/
def turnTime : Nat := 20
/-- The reply window (R118). -/
def replyWindow : Nat := 1
/-- The attention timer's first interval, and the silence of the attention sequence (R129, R130). -/
def attentionIdle : Nat := 10
/-- The attention timer's period (R130). -/
def attentionPeriod : Nat := 200
/-- The return deadline of an inserted frame (R175). -/
def returnTime : Nat := 5
/-- One minute of a bypass (R41). -/
def minute : Nat := 60000

/-- The fault list's capacity (R50). -/
def faultCap : Nat := 32
/-- The transmit queue's capacity (R135). -/
def txCap : Nat := 16
/-- The receive queue's capacity (R143). -/
def rxCap : Nat := 8
/-- The capacity of the uphill and of the downhill list (R71). -/
def listCap : Nat := 64
/-- The terminal queue's capacity (R72). -/
def queueCap : Nat := 24
/-- The substitution list's capacity (R34). -/
def substCap : Nat := 8
/-- The capacity of staging and so of the deferred list (R46, R204). -/
def stagingCap : Nat := 64
/-- The waiting list's and the signalling backlog's capacity (R152, R154). -/
def waitingCap : Nat := 4
/-- The link voice queue's capacity (R161). -/
def voiceCap : Nat := 3
/-- The capacity of the relay buffer, the request queue and the VOICE queue (R166, R168, R171). -/
def relayCap : Nat := 4
/-- The capacity of the DOOR and REPORT queues and of the outstanding list (R171, R172, R175). -/
def doorCap : Nat := 8
/-- The capture buffer's capacity (R194). -/
def captureCap : Nat := 16

/-- FREE VALUE (log entry 6): the request code byte of the REPLY to a REQUEST whose payload is empty. R182 refuses
such a request and R209 has the REPLY carry its request code; the manual gives no code for it. -/
opaque replyCodeOfEmpty : Nat → Byte

/-- FREE VALUE (log entry 7): the remaining dwell that READ_ENTRY returns for a staff hold set before the doors have
reached OPEN. R103 fixes the remaining dwell on reaching OPEN; the manual states none before that. -/
opaque heldDwellBeforeOpen : Nat → Word16

end Sys2Proof.Config
end

