-- ==== Sys2Proof/Syntax.lean ====
section
/-! DEFINITION. The commands of the VT48: one constructor for each row of spec/opcode_table.json. A command is one of
the part's indivisible steps (95_what_each_step_holds): an event on a connection, the running out of one of the part's
own timers, or a step one of its blocks takes. A desk request's parameters are not operands: they stand in the REQUEST
frame at the head of the request queue, which the row's step takes (R166, R181). -/

namespace Sys2Proof

/-- The levels at the nine strap pins (R197). -/
structure Straps where
  address : BitVec 4
  berths : BitVec 2
  rate : BitVec 2
  memory : Bool
deriving DecidableEq, Repr

/-- The commands, in the order of spec/opcode_table.json. -/
inductive Instr where
  /-- RESET_PIN_LOW (R206). -/
  | resetPinLow
  /-- RESET_END (R206): the strap pins' levels as reset ends. -/
  | resetEnd (straps : Straps)
  /-- DESCRIPTOR_READ (R201): the 42 bytes read, or none when the memory does not answer. -/
  | descriptorRead (read : Option (List Byte))
  /-- CONFIG_RECORD_READ (R201): the bytes read, the record's header and, when that is usable, its contents (R199). -/
  | configRecordRead (bytes : List Byte)
  /-- MEMORY_READ_FAIL (R199). -/
  | memoryReadFail
  /-- PROFILE_RECORD_READ (R204): the bytes read, the record's header and, when that is usable, its contents (R199). -/
  | profileRecordRead (bytes : List Byte)
  /-- PROFILE_ENTRY_APPLY (R46). -/
  | profileEntryApply
  /-- LOOP_FRAME_RECEIVED (R164): the bytes received between the frame's marks. -/
  | loopFrameReceived (bytes : List Byte)
  /-- STALE_TIME_EXPIRY (R24). -/
  | staleTimeExpiry (channel : Nat)
  /-- BYPASS_MINUTE_TICK (R41). -/
  | bypassMinuteTick (channel : Nat)
  /-- START_TIME_LIMIT_EXPIRY (R57). -/
  | startTimeLimitExpiry
  /-- STOP_TIME_LIMIT_EXPIRY (R59). -/
  | stopTimeLimitExpiry
  /-- AUTO_SLOW_EXPIRY (R64). -/
  | autoSlowExpiry
  /-- DRIVE_REFRESH_EXPIRY (R63). -/
  | driveRefreshExpiry
  /-- OPEN_DELAY_EXPIRY (R102). -/
  | openDelayExpiry (berth : Nat)
  /-- DWELL_EXPIRY (R104). -/
  | dwellExpiry (berth : Nat)
  /-- GATHER_WINDOW_EXPIRY (R105). -/
  | gatherWindowExpiry
  /-- GATHER_CAP_EXPIRY (R105). -/
  | gatherCapExpiry
  /-- ACK_TIMER_EXPIRY (R98). -/
  | ackTimerExpiry (berth : Nat)
  /-- MOTION_TIMER_EXPIRY (R100). -/
  | motionTimerExpiry (berth : Nat)
  /-- HOLD_TIMER_EXPIRY (R111). -/
  | holdTimerExpiry (berth : Nat)
  /-- DOOR_QUEUE_PLACE (R97). -/
  | doorQueuePlace
  /-- RING_TIMER_EXPIRY (R159). -/
  | ringTimerExpiry
  /-- RING_REPEAT (R159). -/
  | ringRepeat
  /-- TURN_START (R118). -/
  | turnStart
  /-- VALLEY_BURST_SENT (R118). -/
  | valleyBurstSent
  /-- BREAK_SENT (R133). -/
  | breakSent
  /-- REPLY_WINDOW_CLOSE (R119). -/
  | replyWindowClose
  /-- LOST_PERIOD_END (R123). -/
  | lostPeriodEnd
  /-- SUMMIT_BURST_END (R120). -/
  | summitBurstEnd
  /-- CLASH (R121). -/
  | clash
  /-- ATTENTION_INSTANT (R130). -/
  | attentionInstant
  /-- ATTENTION_SEND_AFTER_IDLE (R130). -/
  | attentionSendAfterIdle
  /-- ATTENTION_SENT (R130). -/
  | attentionSent
  /-- ATTENTION_DETECTED (R131). -/
  | attentionDetected
  /-- SUMMIT_BREAK_DETECT (R132). -/
  | summitBreakDetect
  /-- SUMMIT_BREAK_END (R132). -/
  | summitBreakEnd
  /-- FORWARD_SENT (R168). -/
  | forwardSent
  /-- INSERTION_START (R173). -/
  | insertionStart
  /-- INSERTION_END (R176): the strap pins' levels, which only the reset of a RESTART samples (R190, R197). -/
  | insertionEnd (straps : Straps)
  /-- RETURN_DEADLINE_EXPIRY (R178): the oldest outstanding entry's deadline. -/
  | returnDeadlineExpiry
  /-- STATUS (R186). -/
  | status
  /-- READ_ENTRY (R184). -/
  | readEntry
  /-- WRITE_ENTRY_CHANNEL (R42). -/
  | writeEntryChannel
  /-- WRITE_ENTRY_LINE_PARAMS (R66). -/
  | writeEntryLineParams
  /-- WRITE_ENTRY_BERTH (R94). -/
  | writeEntryBerth
  /-- WRITE_ENTRY_FLEET (R70). -/
  | writeEntryFleet
  /-- WRITE_ENTRY_PHONE (R150). -/
  | writeEntryPhone
  /-- LINE_RUN (R56). -/
  | lineRun
  /-- LINE_SLOW (R56). -/
  | lineSlow
  /-- LINE_STOP (R56). -/
  | lineStop
  /-- DOOR_OPEN (R110). -/
  | doorOpen
  /-- DOOR_CLOSE (R110). -/
  | doorClose
  /-- DOOR_HOLD (R111). -/
  | doorHold
  /-- DOOR_RELEASE (R111). -/
  | doorRelease
  /-- DOOR_RESET (R113). -/
  | doorReset
  /-- CABIN_INSERT (R86). -/
  | cabinInsert
  /-- CABIN_WITHDRAW (R87). -/
  | cabinWithdraw
  /-- CABIN_ASSIGN (R88). -/
  | cabinAssign
  /-- CABIN_RETEST (R90). -/
  | cabinRetest
  /-- CABIN_PLACE (R89). -/
  | cabinPlace
  /-- CLEAR_FAULT (R53). -/
  | clearFault
  /-- FLAGS (R191). -/
  | flags
  /-- CAPTURE (R193). -/
  | capture
  /-- SUMMIT_NOTE (R136). -/
  | summitNote
  /-- KEY_A (R187). -/
  | keyA
  /-- KEY_B (R187). -/
  | keyB
  /-- TRIP_RESET (R61). -/
  | tripReset
  /-- BYPASS (R39). -/
  | bypass
  /-- REINSTATE (R38). -/
  | reinstate
  /-- COMMISSION (R189). -/
  | commission
  /-- RESTART (R190). -/
  | restart
  /-- UNKNOWN_REQUEST (R182). -/
  | unknownRequest
  /-- KEY_TIMER_EXPIRY (R187). -/
  | keyTimerExpiry
  /-- FLAG_REPORT (R192). -/
  | flagReport
  /-- CAPTURE_BLOCK_REPORT (R195). -/
  | captureBlockReport
  /-- NOTE_REPORT (R192). -/
  | noteReport
  /-- SUMMIT_CHARACTER_RECEIVED (R129): the character, and whether its stop bit was at space (R116). -/
  | summitCharacterReceived (char : Byte) (framingError : Bool)
  /-- ATTENTION_IDLE_TIMEOUT (R129). -/
  | attentionIdleTimeout
deriving DecidableEq, Repr

end Sys2Proof
end

