-- ==== Sys2Proof/WellFormed.lean ====
section
/-! DEFINITION. The checks on a command's operands. An ill-formed command is no event of the part (log entry 3). -/

namespace Sys2Proof

/-- A command's operands lie in the ranges of 00_scope 4.4 and R212: channels 0..47, berths 1..8, a descriptor of
42 bytes, a record with its header of 4 bytes. -/
def Instr.wellFormed : Instr → Bool
  | .descriptorRead (some bs) => bs.length == 42
  | .configRecordRead bs => decide (4 ≤ bs.length)
  | .profileRecordRead bs => decide (4 ≤ bs.length)
  | .staleTimeExpiry c => decide (c < 48)
  | .bypassMinuteTick c => decide (c < 48)
  | .openDelayExpiry j => decide (1 ≤ j ∧ j ≤ 8)
  | .dwellExpiry j => decide (1 ≤ j ∧ j ≤ 8)
  | .ackTimerExpiry j => decide (1 ≤ j ∧ j ≤ 8)
  | .motionTimerExpiry j => decide (1 ≤ j ∧ j ≤ 8)
  | .holdTimerExpiry j => decide (1 ≤ j ∧ j ≤ 8)
  | _ => true

end Sys2Proof
end

