-- ==== Sys2Proof/Machine/State.lean ====
section
/-! DEFINITION. The state of the VT48, block by block, as plain data, and its values right after reset (R206). -/

namespace Sys2Proof.Machine

/-! ## Names -/

/-- Demand levels (00_scope 4.3), least severe first. -/
inductive Demand where
  | run | slow | stop | trip
deriving DecidableEq, Repr

/-- Fault classes (00_scope 4.3), least severe first. -/
inductive FaultClass where
  | note | slow | stop | trip
deriving DecidableEq, Repr

/-- Line states (00_scope 4.3, 3.3). -/
inductive LineState where
  | stopped | starting | running | slowed | stopping | tripped
deriving DecidableEq, Repr

/-- Fault sources (3.1). -/
inductive Source where
  | channel (n : Nat) | berth (n : Nat) | cabin (id : Nat) | link | loop | line
deriving DecidableEq, Repr

/-- Fault codes (3.1, R210). -/
inductive FaultCode where
  | outLow | outHigh | stale | windWindy | windStorm | bypassActive | markSkip | overspeed | rollback
  | doorFault | doorNotLocked | gripFail | launchViolation | lateHold | phantom | trackFull | linkBacklog
  | unknownCabin | order | unknownArrival | arrivalPosition | overdue | downhillFull | linkLost | summitBreak
  | summitDemand | loopOpen | powerOn | startTimeout | stopTimeout | autoSlow
deriving DecidableEq, Repr

/-- Channel entry states (2.1). -/
inductive ChanState where
  | unused | active | standby | failed
deriving DecidableEq, Repr

/-- Channel kinds (2.1). -/
inductive ChanKind where
  | encoder | tension | ropeOffset | wind | trackMark | cabinId | gripForce | passage
deriving DecidableEq, Repr

/-- The condition of a channel's runtime record (2.1). -/
inductive Condition where
  | normal | outLow | outHigh | stale
deriving DecidableEq, Repr

/-- The side of a window kind's run (2.1). -/
inductive Side where
  | low | high
deriving DecidableEq, Repr

/-- Wind bands, least severe first (R28, R29). -/
inductive Band where
  | calm | windy | storm
deriving DecidableEq, Repr

/-- Profiles (11.5). -/
inductive Profile where
  | windy | calm
deriving DecidableEq, Repr

/-- Fleet locations (4.2). -/
inductive Location where
  | garage | unplaced | terminal | uphill | summit | downhill
deriving DecidableEq, Repr

/-- Identities of a cabin record (4.3). -/
inductive Identity where
  | registered | anonymous | foreign
deriving DecidableEq, Repr

/-- Results of the grip test (4.3). -/
inductive Grip where
  | none | pass | fail
deriving DecidableEq, Repr

/-- The launch release (4.6). -/
inductive Release where
  | hold | go
deriving DecidableEq, Repr

/-- Berth modes (R93). -/
inductive BerthMode where
  | openMode | passMode
deriving DecidableEq, Repr

/-- Door record states (5.2). -/
inductive DoorState where
  | closed | opening | open | pending | closing | reopening | fault
deriving DecidableEq, Repr

/-- Statuses of a door drive (5.2, R209). -/
inductive DoorStatus where
  | locked | opening | open | closing | obstructed | failed
deriving DecidableEq, Repr

/-- Door commands (R97). -/
inductive DoorCmd where
  | open | close
deriving DecidableEq, Repr

/-- The sending state of a door command (5.2). -/
inductive Sending where
  | waiting | placedOnce | waitingAgain | placedTwice
deriving DecidableEq, Repr

/-- Which dwell starts when the doors reach OPEN (5.2). -/
inductive DwellKind where
  | full | reopen
deriving DecidableEq, Repr

/-- The target of a desk mark (5.2). -/
inductive DeskTarget where
  | open | closed
deriving DecidableEq, Repr

/-- Link states (6.2). -/
inductive LinkState where
  | down | syncing | up | degraded | lost
deriving DecidableEq, Repr

/-- Call record states (8.2). -/
inductive CallState where
  | idle | outgoing | incoming | connected
deriving DecidableEq, Repr

/-- Call priorities (R150). -/
inductive Priority where
  | emergency | service
deriving DecidableEq, Repr

/-- Call causes (08_summit_calls, opening). -/
inductive Cause where
  | normal | preempt | noAnswer | link
deriving DecidableEq, Repr

/-- Call standings (08_summit_calls, opening). -/
inductive Standing where
  | idle | ringing | waiting | busy | connected
deriving DecidableEq, Repr

/-- Loop states (9.5). -/
inductive LoopState where
  | unproven | closed | opened
deriving DecidableEq, Repr

/-- The kinds of the frames the part itself forms (9.1). -/
inductive FrameKind where
  | doorCmd | warn | driveReq | launchRel | call | voice | reply | report
deriving DecidableEq, Repr

/-- Key states (10.3). -/
inductive KeyState where
  | none | a | b
deriving DecidableEq, Repr

/-- Load states (11.2). -/
inductive LoadState where
  | loading | ready
deriving DecidableEq, Repr

/-- Start-up outcomes (R202). -/
inductive StartOutcome where
  | none | complete | skipped | readFailed | noMemory | badSignature
deriving DecidableEq, Repr

/-- Outcomes of the last profile load (R207). -/
inductive ProfileOutcome where
  | none | applied | readFailed | unavailable
deriving DecidableEq, Repr

/-- The 24 event flags, in the order of the bits of a flag set (R208). -/
inductive Flag where
  | lineChange | faultNew | faultGone | overflow | subst | substFull | bypassEnd | doorDone | doorFault
  | cabinEntry | cabinLaunch | cabinOrder | linkChange | clash | gap | callChange | summitNote | captureDone
  | profileApplied | loadDone | loopErr | loopOverrun | reqOverrun | windBand
deriving DecidableEq, Repr

/-! ## RA, rope accounting (1.1) -/

/-- RA's quantities (1.1, R19). -/
structure Rope where
  p : Nat
  r : Nat
  cLast : Word16
  tLast : Word16
  v : Int
  vf : Int
  baseValid : Bool
  speedValid : Bool
  q : Nat
  qValid : Bool
  encoder : Option Nat
deriving DecidableEq, Repr

/-- R19. -/
def Rope.reset : Rope :=
  { p := 0, r := 0, cLast := 0, tLast := 0, v := 0, vf := 0, baseValid := false, speedValid := false,
    q := 0, qValid := false, encoder := none }

/-! ## CM, channel monitor (2.1) -/

/-- The written fields of a channel entry (2.1): every field but bypass. -/
structure ChanEntry where
  state : ChanState
  node : Nat
  slot : Nat
  kind : ChanKind
  low : Nat
  high : Nat
  hysteresis : Nat
  persistence : Nat
  staleTime : Nat
  cls : FaultClass
  standby : Option Nat
  boundary : Nat
  scale : Nat
  step : Nat
  shift : Nat
deriving DecidableEq, Repr

/-- A bypass in force: its remaining minutes, and when the minute in progress ends (R41). -/
structure Bypass where
  minutes : Nat
  minuteEnd : Nat
deriving DecidableEq, Repr

/-- A channel's runtime record (2.1), with the mark that its STALE fault's condition is present (R36). -/
structure Runtime where
  lastReading : Word16
  lastAccepted : Nat
  runCount : Nat
  runSide : Side
  returnCount : Nat
  windyCount : Nat
  stormCount : Nat
  windy : Bool
  storm : Bool
  counterBase : Option Word16
  condition : Condition
  staleRaised : Bool
deriving DecidableEq, Repr

/-- One channel: its entry, its bypass and its runtime record. -/
structure Channel where
  entry : ChanEntry
  bypass : Option Bypass
  rt : Runtime
deriving DecidableEq, Repr

/-- R21: UNUSED, every other field 0, standby and bypass none, the runtime record clear. -/
def Channel.reset : Channel :=
  { entry :=
      { state := .unused, node := 0, slot := 0, kind := .encoder, low := 0, high := 0, hysteresis := 0,
        persistence := 0, staleTime := 0, cls := .note, standby := none, boundary := 0, scale := 0, step := 0,
        shift := 0 }
    bypass := none
    rt :=
      { lastReading := 0, lastAccepted := 0, runCount := 0, runSide := .low, returnCount := 0, windyCount := 0,
        stormCount := 0, windy := false, storm := false, counterBase := none, condition := .normal,
        staleRaised := false } }

/-- An entry of the substitution list (2.7). -/
structure SubstEntry where
  primary : Nat
  standby : Nat
  order : Word16
deriving DecidableEq, Repr

/-- One entry record of the memory as it has been read (R212): table id, index, length, and the contents. -/
structure MemRecord where
  tableId : Byte
  index : Word16
  length : Byte
  contents : List Byte
deriving DecidableEq, Repr

/-- CM's state: the channel table with its runtime, the substitution list, the wind band, the deferred list. -/
structure ChanMon where
  channels : Vector Channel 48
  subst : List SubstEntry
  nextOrder : Word16
  windBand : Band
  deferred : List MemRecord
deriving DecidableEq, Repr

/-- R21. -/
def ChanMon.reset : ChanMon :=
  { channels := Vector.replicate 48 Channel.reset, subst := [], nextOrder := 0, windBand := .calm, deferred := [] }

/-! ## LS, line supervisor -/

/-- LINE_PARAMS (R66). -/
structure LineParams where
  loopLen : Nat
  uphillSpan : Nat
  downhillSpan : Nat
  tolerance : Nat
  minSpacing : Nat
  zeroBand : Nat
  runSetpoint : Nat
  slowSetpoint : Nat
  startExit : Nat
  startingLimit : Nat
  runningLimit : Nat
  slowedLimit : Nat
  stoppingLimit : Nat
  reverseLimit : Nat
  startTime : Nat
  stopTime : Nat
  bypassDefault : Nat
  idleSlow : Nat
  deskNode : Nat
  driveNode : Nat
  conveyorNode : Nat
  warnNode : Nat
deriving DecidableEq, Repr

/-- The reset values of R66. -/
def LineParams.reset : LineParams :=
  { loopLen := 1000, uphillSpan := 1, downhillSpan := 1, tolerance := 100, minSpacing := 1000, zeroBand := 0,
    runSetpoint := 0, slowSetpoint := 0, startExit := 0, startingLimit := 0, runningLimit := 0, slowedLimit := 0,
    stoppingLimit := 0, reverseLimit := 0, startTime := 1, stopTime := 1, bypassDefault := 1, idleSlow := 0,
    deskNode := 1, driveNode := 0, conveyorNode := 0, warnNode := 0 }

/-- An entry of the fault list (3.1). -/
structure FaultEntry where
  order : Word16
  source : Source
  code : FaultCode
  cls : FaultClass
  latched : Bool
  present : Bool
deriving DecidableEq, Repr

/-- The drive request record (R62). -/
structure DriveRecord where
  level : Demand
  setpoint : Nat
  line : LineState
deriving DecidableEq, Repr

/-- LS's state. The start and stop time limits and the auto-slow timer are held by their start times; the refresh
interval by its end. -/
structure LineSup where
  line : LineState
  deskDemand : Demand
  effDemand : Demand
  overflow : Demand
  faults : List FaultEntry
  nextFault : Word16
  commissioned : Bool
  startTimer : Option Nat
  stopTimer : Option Nat
  autoSlow : Option Nat
  drive : DriveRecord
  refreshAt : Nat
  params : LineParams
deriving DecidableEq, Repr

/-- R67, with the refresh interval started at the instant of the reset (R63). -/
def LineSup.reset (now : Nat) : LineSup :=
  { line := .tripped, deskDemand := .stop, effDemand := .trip, overflow := .run,
    faults := [{ order := 0, source := .line, code := .powerOn, cls := .trip, latched := true, present := false }],
    nextFault := 1, commissioned := false, startTimer := none, stopTimer := none, autoSlow := none,
    drive := { level := .trip, setpoint := 0, line := .tripped }, refreshAt := now + Config.refreshTime,
    params := LineParams.reset }

/-! ## CT, cabin tracker -/

/-- A registered cabin of the fleet table (4.2). -/
structure FleetCabin where
  id : Nat
  location : Location
deriving DecidableEq, Repr

/-- A cabin record of the terminal queue (4.3). The zone is its number: 0 DETACH, 1..B BERTH, B+1 LAUNCH. -/
structure Cabin where
  id : Nat
  identity : Identity
  zone : Nat
  entryPos : Nat
  grip : Grip
  force : Option Word16
  locked : Bool
  orderMark : Bool
deriving DecidableEq, Repr

/-- An entry of the uphill list (R71, R144). -/
structure UpEntry where
  id : Nat
  pos : Nat
  order : Word16
  overdue : Bool
deriving DecidableEq, Repr

/-- An entry of the downhill list (R71, R144). -/
structure DownEntry where
  id : Nat
  pos : Nat
  overdue : Bool
deriving DecidableEq, Repr

/-- The last GO: a cabin id and the time the release left GO for it (4.6). -/
structure LastGo where
  id : Nat
  leftAt : Nat
deriving DecidableEq, Repr

/-- CT's state: fleet table, terminal queue, cabin lists, launch count, release record, kept LINK_BACKLOG sources. -/
structure CabinTracker where
  fleet : Vector (Option FleetCabin) 160
  queue : List Cabin
  uphill : List UpEntry
  downhill : List DownEntry
  launchCount : Word16
  release : Release
  releaseCabin : Nat
  lastGo : Option LastGo
  backlogWaiting : Option Nat
  backlogLaunched : List Nat
deriving DecidableEq, Repr

/-- R69, R71, R72, R91. -/
def CabinTracker.reset : CabinTracker :=
  { fleet := Vector.replicate 160 none, queue := [], uphill := [], downhill := [], launchCount := 0,
    release := .hold, releaseCabin := 0, lastGo := none, backlogWaiting := none, backlogLaunched := [] }

/-! ## DS, berth door sequencer -/

/-- A berth table entry (R93), each time in the unit of its field. -/
structure BerthEntry where
  mode : BerthMode
  doorNode : Nat
  openDelay : Nat
  dwell : Nat
  gatherWindow : Nat
  reopenDwell : Nat
  retries : Nat
  motionLimit : Nat
  holdLimit : Nat
deriving DecidableEq, Repr

/-- A staff hold (5.2): none, set while the doors have not reached OPEN, or with its remaining dwell in ms. -/
inductive StaffHold where
  | no
  | beforeOpen
  | yes (remaining : Nat)
deriving DecidableEq, Repr

/-- The dwell timer (5.2): stopped, running to a time, or suspended by a staff hold. -/
inductive DwellTimer where
  | stopped
  | running (endsAt : Nat)
  | suspended
deriving DecidableEq, Repr

/-- A door record (5.2). Timers are held by the time they run out. -/
structure Door where
  state : DoorState
  heldClose : Bool
  hold : StaffHold
  retryCount : Nat
  lastStatus : Option (DoorStatus × Bool)
  awaiting : Bool
  stallCount : Nat
  command : Option (DoorCmd × Sending)
  cabin : Option Nat
  openDelay : Option Nat
  waitingOpen : Bool
  dwellTimer : DwellTimer
  dwellKind : DwellKind
  ackTimer : Option Nat
  motionTimer : Option Nat
  holdTimer : Option Nat
  deskMark : Option DeskTarget
deriving DecidableEq, Repr

/-- One berth: its table entry and its door record. -/
structure Berth where
  entry : BerthEntry
  door : Door
deriving DecidableEq, Repr

/-- R93, R95. -/
def Berth.reset : Berth :=
  { entry :=
      { mode := .passMode, doorNode := 0, openDelay := 0, dwell := 2, gatherWindow := 1, reopenDwell := 1,
        retries := 0, motionLimit := 10, holdLimit := 10 }
    door :=
      { state := .closed, heldClose := false, hold := .no, retryCount := 0, lastStatus := none, awaiting := true,
        stallCount := 0, command := none, cabin := none, openDelay := none, waitingOpen := false,
        dwellTimer := .stopped, dwellKind := .full, ackTimer := none, motionTimer := none, holdTimer := none,
        deskMark := none } }

/-- What waits in DS for a place in the DOOR queue (R97, R106): a berth's command, or the warning frame with its
destination and its set of berths (bit j − 1 for berth j). -/
inductive DoorWait where
  | command (berth : Nat)
  | warning (dest : Nat) (berths : Byte)
deriving DecidableEq, Repr

/-- DS's state: berth table and door records (entry j − 1 for berth j; the entries above B stay at their reset
values), gather timers, the warning set last sent, what waits for the DOOR queue in waiting order, and the notices of
freed DOOR places not yet used (R171). -/
structure DoorSeq where
  berths : Vector Berth 8
  windowTimer : Option Nat
  capTimer : Option Nat
  warnLast : Byte
  waiting : List DoorWait
  notices : Nat
deriving DecidableEq, Repr

/-- R93, R95, R106. -/
def DoorSeq.reset : DoorSeq :=
  { berths := Vector.replicate 8 Berth.reset, windowTimer := none, capTimer := none, warnLast := 0, waiting := [],
    notices := 0 }

/-! ## SL, summit link controller -/

/-- An end's safety word (R124, R127, R211). -/
structure SafetyWord where
  demand : Demand
  line : LineState
  tripLatched : Bool
deriving DecidableEq, Repr

/-- A message of the summit link, by its type byte and payload (R211). -/
structure Message where
  type : Byte
  payload : List Byte
deriving DecidableEq, Repr

/-- An entry of the transmit queue (R135). -/
structure TxEntry where
  msg : Message
  seq : Byte
  sent : Bool
  age : Nat
deriving DecidableEq, Repr

/-- The stages of the attention detector (R129), with what it keeps. -/
inductive Detector where
  | idle
  | first
  | second
  | third
  | status
  | sequence (restart : Bool)
  | trail (restart : Bool) (next : Byte)
deriving DecidableEq, Repr

/-- What the part is sending on TX; DE is high unless it is `quiet`. -/
inductive TxLine where
  | quiet
  | burst (bytes : List Byte)
  | breaking
  | attention (bytes : List Byte)
deriving DecidableEq, Repr

/-- The turn whose outcome is open (R118, R119, R122): none, its burst being sent, the reply window open until a
time, or a summit burst in reception with its characters so far and whether one had a framing error. -/
inductive TurnPhase where
  | none
  | sending
  | window (closesAt : Nat)
  | receiving (chars : List Byte) (framing : Bool)
deriving DecidableEq, Repr

/-- SL's state, line layer and message layer (6.2, R135, R143). -/
structure SummitLink where
  link : LinkState
  turnTimer : Option Nat
  turnNumber : Byte
  firstTurn : Bool
  missed : Nat
  lostUntil : Option Nat
  attnTimer : Option Nat
  attnWaiting : Bool
  restartFlag : Bool
  breakPending : Bool
  detector : Detector
  tx : TxLine
  turn : TurnPhase
  summitWord : Option SafetyWord
  summitHeld : Option Demand
  summitBreak : Bool
  lastChar : Option Nat
  idleFrom : Nat
  txQueue : List TxEntry
  nextSend : Byte
  rxQueue : List (List Byte)
  nextExpected : Byte
  holdFlag : Bool
  summitHold : Bool
deriving DecidableEq, Repr

/-- R117, R135, R143, R148; the attention detector's idle time runs from `now`. -/
def SummitLink.reset (now : Nat) : SummitLink :=
  { link := .down, turnTimer := none, turnNumber := 0, firstTurn := false, missed := 0, lostUntil := none,
    attnTimer := none, attnWaiting := false, restartFlag := true, breakPending := true, detector := .idle,
    tx := .quiet, turn := .none, summitWord := none, summitHeld := none, summitBreak := false, lastChar := none,
    idleFrom := now,
    txQueue := [], nextSend := 0, rxQueue := [], nextExpected := 0, holdFlag := false, summitHold := false }

/-! ## CS, call switch -/

/-- A phone table entry (R150). -/
structure Phone where
  node : Nat
  priority : Priority
  ringGroup : Bool
deriving DecidableEq, Repr

/-- R150. -/
def Phone.reset : Phone := { node := 0, priority := .service, ringGroup := false }

/-- A request of the waiting list (R154). -/
structure WaitReq where
  phone : Nat
  priority : Priority
deriving DecidableEq, Repr

/-- CS's state: phone table, call record (8.2; the ring timer and cadence by the time they run out), waiting list,
signalling backlog, link voice queue. -/
structure CallSwitch where
  phones : Vector Phone 8
  call : CallState
  phone : Option Nat
  priority : Priority
  ringTimer : Option Nat
  repeatTimer : Option Nat
  rung : List Nat
  waiting : List WaitReq
  backlog : List Message
  voice : List (List Byte)
deriving DecidableEq, Repr

/-- R150, R151. -/
def CallSwitch.reset : CallSwitch :=
  { phones := Vector.replicate 8 Phone.reset, call := .idle, phone := none, priority := .service,
    ringTimer := none, repeatTimer := none, rung := [], waiting := [], backlog := [], voice := [] }

/-! ## LR, loop relay -/

/-- A REQUEST frame in the request queue (R166). -/
structure Request where
  source : Byte
  tag : Byte
  payload : List Byte
deriving DecidableEq, Repr

/-- A frame of the part in an insertion queue (9.4.1): destination, kind, payload, the tag of a REPLY, and whether it
is the REPLY that answers a RESTART (R190). -/
structure QFrame where
  dest : Nat
  kind : FrameKind
  payload : List Byte
  tag : Byte
  restart : Bool
deriving DecidableEq, Repr

/-- An entry of the outstanding list (R175). -/
structure OutEntry where
  kind : Byte
  dest : Byte
  tag : Byte
  check : Word16
  deadline : Nat
deriving DecidableEq, Repr

/-- What LOOP-OUT is sending (9.3): a forwarded frame, or an inserted one with the entry it will leave. -/
inductive LoopOut where
  | idle
  | forwarding (bytes : List Byte)
  | inserting (bytes : List Byte) (restart : Bool)
deriving DecidableEq, Repr

/-- LR's state. -/
structure LoopRelay where
  relay : List (List Byte)
  requests : List Request
  safety : List QFrame
  door : List QFrame
  voice : List QFrame
  report : List QFrame
  outstanding : List OutEntry
  insertion : Byte
  loop : LoopState
  out : LoopOut
deriving DecidableEq, Repr

/-- R179. -/
def LoopRelay.reset : LoopRelay :=
  { relay := [], requests := [], safety := [], door := [], voice := [], report := [], outstanding := [],
    insertion := 0, loop := .unproven, out := .idle }

/-! ## DR, desk request unit -/

/-- A sample of the capture buffer (10.7). -/
structure Sample where
  reading : Word16
  stamp : Word16
  gap : Bool
  subst : Bool
deriving DecidableEq, Repr

/-- A running capture record with its buffer (10.7). -/
structure Capture where
  channel : Nat
  remaining : Nat
  block : Nat
  nextBlock : Nat
  gap : Bool
  subst : Bool
  written : Bool
  buffer : List Sample
deriving DecidableEq, Repr

/-- DR's state: key state and timer, the flags' values, enable marks and owed marks, the capture, the restart wait,
and LR's notice of a freed REPORT place that has not been used (R172, R192). -/
structure DeskUnit where
  key : KeyState
  keyTimer : Option Nat
  flags : BitVec 24
  enable : BitVec 24
  owed : BitVec 24
  capture : Option Capture
  restartWait : Bool
  placeNotice : Bool
deriving DecidableEq, Repr

/-- R191, R196. -/
def DeskUnit.reset : DeskUnit :=
  { key := .none, keyTimer := none, flags := 0, enable := BitVec.allOnes 24, owed := 0, capture := none,
    restartWait := false, placeNotice := false }

/-! ## CL, configuration loader -/

/-- Where a read of the memory stands: nothing to read, the descriptor, or the record at an address of a segment,
with the start-up segments still to read after it. -/
inductive LoadPhase where
  | idle
  | descriptor
  | segment (seg : Nat) (addr : Nat) (rest : List Nat)
deriving DecidableEq, Repr

/-- The profile state with its profile (11.5); while READING, the address of the next record. -/
inductive ProfileState where
  | idle
  | reading (profile : Profile) (addr : Nat)
  | applying (profile : Profile)
deriving DecidableEq, Repr

/-- CL's state. `pointers` holds the ten segments' start and stop addresses, none while they are invalid. -/
structure Loader where
  load : LoadState
  outcome : StartOutcome
  skip : Nat
  pointers : Option (List (Nat × Nat))
  phase : LoadPhase
  profile : ProfileState
  pending : Option Profile
  staging : List MemRecord
  profileSkip : Nat
  lastOutcome : ProfileOutcome
  lastSkip : Nat
deriving DecidableEq, Repr

/-- R206: LOADING, with the read of the descriptor to come (R201). -/
def Loader.reset : Loader :=
  { load := .loading, outcome := .none, skip := 0, pointers := none, phase := .descriptor, profile := .idle,
    pending := none, staging := [], profileSkip := 0, lastOutcome := .none, lastSkip := 0 }

/-! ## The part -/

/-- The whole part. `straps` holds the sampled straps (R197); `resetHeld` that the reset pin is low; `now` is the
part's time in ms (log entry 2), `freeCount` numbers the free values (log entries 6 and 7) and `pending` is the
queue of waiting commands: these three are the model's own. -/
structure State where
  straps : Straps
  resetHeld : Bool
  now : Nat
  freeCount : Nat
  ra : Rope
  cm : ChanMon
  ls : LineSup
  ct : CabinTracker
  ds : DoorSeq
  sl : SummitLink
  cs : CallSwitch
  lr : LoopRelay
  dr : DeskUnit
  cl : Loader
  pending : List Instr
deriving DecidableEq, Repr

/-- DESIGN CHOICE (log entry 4), unsafe: the strap levels of `State.reset`. The manual gives the pins no levels; the
memory-present strap is 1, so that the load state is LOADING as R206 has it. -/
def Straps.atReset : Straps := { address := 0, berths := 0, rate := 0, memory := true }

/-- Every block at its reset values, the straps sampled (R206, R197), before the start-up load takes its first step.
The model's own three fields are carried through. -/
def State.blocksReset (straps : Straps) (now freeCount : Nat) (pending : List Instr) : State :=
  { straps := straps, resetHeld := false, now := now, freeCount := freeCount, ra := Rope.reset, cm := ChanMon.reset,
    ls := LineSup.reset now, ct := CabinTracker.reset, ds := DoorSeq.reset, sl := SummitLink.reset now,
    cs := CallSwitch.reset, lr := LoopRelay.reset, dr := DeskUnit.reset, cl := Loader.reset, pending := pending }

/-- The part right after reset (R206). -/
def State.reset : State := State.blocksReset Straps.atReset 0 0 []

/-- Why the part stops. No command of the manual stops it: every event has the effect the manual gives it, so there
is no fault and nothing raises one. -/
inductive Fault where
deriving DecidableEq, Repr

/-- Why a command has no meaning. -/
inductive Refusal where
  /-- Raised by `exec` alone, for a row that has no meaning in this model; safe, since nothing is claimed of it. No
  arm of this model raises it. -/
  | notModelled (mnemonic : String)
deriving DecidableEq, Repr

end Sys2Proof.Machine
end

