-- ==== Sys2Proof/Machine/Flags.lean ====
section
/-! DEFINITION. The 24 event flags of DR: their bits (R208) and their setting (R191). -/

namespace Sys2Proof.Machine

/-- A flag's bit in the 24-bit flag set (R208). -/
def Flag.bit : Flag → Nat
  | .lineChange => 0 | .faultNew => 1 | .faultGone => 2 | .overflow => 3 | .subst => 4 | .substFull => 5
  | .bypassEnd => 6 | .doorDone => 7 | .doorFault => 8 | .cabinEntry => 9 | .cabinLaunch => 10 | .cabinOrder => 11
  | .linkChange => 12 | .clash => 13 | .gap => 14 | .callChange => 15 | .summitNote => 16 | .captureDone => 17
  | .profileApplied => 18 | .loadDone => 19 | .loopErr => 20 | .loopOverrun => 21 | .reqOverrun => 22
  | .windBand => 23

/-- A flag's mask in the flag set. -/
def Flag.mask (f : Flag) : BitVec 24 := BitVec.twoPow 24 f.bit

/-- Whether a flag stands set. -/
def State.flag (s : State) (f : Flag) : Bool := s.dr.flags.getLsbD f.bit

/-- R191: setting a clear flag sets it, and makes it owed when its enable mark is set; setting a set flag changes
nothing. -/
def setFlag (f : Flag) (s : State) : State :=
  if s.flag f then s
  else
    { s with dr := { s.dr with
        flags := s.dr.flags ||| f.mask
        owed := s.dr.owed ||| (s.dr.enable &&& f.mask) } }

/-- R191: the FLAGS request's clear set and enable set. -/
def applyFlags (clear enable : BitVec 24) (s : State) : State :=
  { s with dr := { s.dr with
      flags := s.dr.flags &&& ~~~clear
      enable := enable
      owed := s.dr.owed &&& ~~~clear &&& enable } }

end Sys2Proof.Machine
end

