-- ==== Sys2Proof/Machine/Operands.lean ====
section
/-! DEFINITION. The byte layouts of chapter 12: how the part codes what it sends and reads what it receives. -/

namespace Sys2Proof.Machine

/-! ## Fields -/

/-- The byte at an offset as a number. -/
def u8 (bs : List Byte) (i : Nat) : Nat := (bs.getD i 0).toNat

/-- The two-byte field at an offset, high byte first (R208). -/
def u16 (bs : List Byte) (i : Nat) : Nat := u8 bs i * 256 + u8 bs (i + 1)

/-- The three-byte field at an offset, high byte first (R208). -/
def u24 (bs : List Byte) (i : Nat) : Nat := u16 bs i * 256 + u8 bs (i + 2)

/-- The four-byte field at an offset, high byte first (R208). -/
def u32 (bs : List Byte) (i : Nat) : Nat := u16 bs i * 65536 + u16 bs (i + 2)

/-- A received mark: only the lowest bit is read (R208). -/
def markAt (bs : List Byte) (i : Nat) : Bool := (bs.getD i 0).getLsbD 0

/-- An optional one-byte field: a presence byte, then the value, 00h when absent (R208). -/
def encOpt1 : Option Nat → List Byte
  | none => enc1 0 ++ enc1 0
  | some n => enc1 1 ++ enc1 n

/-- An optional two-byte field: a presence byte, then the value, 00h when absent (R208). -/
def encOpt2 : Option Nat → List Byte
  | none => enc1 0 ++ enc2 0
  | some n => enc1 1 ++ enc2 n

/-- One bit of the check: shift, and fold in the polynomial 1021h when a one leaves (R208). -/
def crcBit (c : Word16) : Word16 := if c.msb then (c <<< 1) ^^^ 0x1021#16 else c <<< 1

/-- One byte of the check, most significant bit first (R208). -/
def crcByte (c : Word16) (b : Byte) : Word16 :=
  crcBit (crcBit (crcBit (crcBit (crcBit (crcBit (crcBit (crcBit (c ^^^ (b.setWidth 16 <<< 8)))))))))

/-- The check of 00_scope 4.5 and R208: CRC-16, from FFFFh, no reflection, no final inversion. -/
def crc16 (bs : List Byte) : Word16 := bs.foldl crcByte 0xFFFF#16

/-! ## Codes (R208 to R211) -/

/-- R208. -/
def Demand.code : Demand → Nat
  | .run => 0 | .slow => 1 | .stop => 2 | .trip => 3

/-- R208. -/
def Demand.ofCode : Nat → Option Demand
  | 0 => some .run | 1 => some .slow | 2 => some .stop | 3 => some .trip | _ => none

/-- The more severe of two levels (00_scope 4.3). -/
def Demand.max (a b : Demand) : Demand := if b.code ≤ a.code then a else b

/-- R208. -/
def FaultClass.code : FaultClass → Nat
  | .note => 0 | .slow => 1 | .stop => 2 | .trip => 3

/-- R208. -/
def FaultClass.ofCode : Nat → Option FaultClass
  | 0 => some .note | 1 => some .slow | 2 => some .stop | 3 => some .trip | _ => none

/-- The more severe of two classes (00_scope 4.3). -/
def FaultClass.max (a b : FaultClass) : FaultClass := if b.code ≤ a.code then a else b

/-- The level a class imposes (00_scope 4.3). -/
def FaultClass.demand : FaultClass → Demand
  | .note => .run | .slow => .slow | .stop => .stop | .trip => .trip

/-- The class of SUMMIT_DEMAND for a level (R128). -/
def Demand.faultClass : Demand → FaultClass
  | .run => .note | .slow => .slow | .stop => .stop | .trip => .trip

/-- R208. -/
def LineState.code : LineState → Nat
  | .stopped => 0 | .starting => 1 | .running => 2 | .slowed => 3 | .stopping => 4 | .tripped => 5

/-- R208. -/
def LineState.ofCode : Nat → Option LineState
  | 0 => some .stopped | 1 => some .starting | 2 => some .running | 3 => some .slowed | 4 => some .stopping
  | 5 => some .tripped | _ => none

/-- R210. -/
def Source.bytes : Source → List Byte
  | .channel n => enc1 0 ++ enc2 n
  | .berth n => enc1 1 ++ enc2 n
  | .cabin id => enc1 2 ++ enc2 id
  | .link => enc1 3 ++ enc2 0
  | .loop => enc1 4 ++ enc2 0
  | .line => enc1 5 ++ enc2 0

/-- R210; AUTO_SLOW, which the list of R210 leaves out, by its position in 3.1 (R208). DEDUCED (log entry 8). -/
def FaultCode.code : FaultCode → Nat
  | .outLow => 0 | .outHigh => 1 | .stale => 2 | .windWindy => 3 | .windStorm => 4 | .bypassActive => 5
  | .markSkip => 6 | .overspeed => 7 | .rollback => 8 | .doorFault => 9 | .doorNotLocked => 10 | .gripFail => 11
  | .launchViolation => 12 | .lateHold => 13 | .phantom => 14 | .trackFull => 15 | .linkBacklog => 16
  | .unknownCabin => 17 | .order => 18 | .unknownArrival => 19 | .arrivalPosition => 20 | .overdue => 21
  | .downhillFull => 22 | .linkLost => 23 | .summitBreak => 24 | .summitDemand => 25 | .loopOpen => 26
  | .powerOn => 27 | .startTimeout => 28 | .stopTimeout => 29 | .autoSlow => 30

/-- R208, in the order of 2.1. -/
def ChanState.code : ChanState → Nat
  | .unused => 0 | .active => 1 | .standby => 2 | .failed => 3

/-- R208, in the order of 2.1. -/
def ChanState.ofCode : Nat → Option ChanState
  | 0 => some .unused | 1 => some .active | 2 => some .standby | 3 => some .failed | _ => none

/-- R208, in the order of 2.1. -/
def ChanKind.code : ChanKind → Nat
  | .encoder => 0 | .tension => 1 | .ropeOffset => 2 | .wind => 3 | .trackMark => 4 | .cabinId => 5
  | .gripForce => 6 | .passage => 7

/-- R208, in the order of 2.1. -/
def ChanKind.ofCode : Nat → Option ChanKind
  | 0 => some .encoder | 1 => some .tension | 2 => some .ropeOffset | 3 => some .wind | 4 => some .trackMark
  | 5 => some .cabinId | 6 => some .gripForce | 7 => some .passage | _ => none

/-- R210. -/
def Condition.code : Condition → Nat
  | .normal => 0 | .outLow => 1 | .outHigh => 2 | .stale => 3

/-- R210. -/
def Side.code : Side → Nat
  | .low => 0 | .high => 1

/-- R210. -/
def Band.code : Band → Nat
  | .calm => 0 | .windy => 1 | .storm => 2

/-- The more severe of two bands (R29). -/
def Band.max (a b : Band) : Band := if b.code ≤ a.code then a else b

/-- R208, in the order of 4.2. -/
def Location.code : Location → Nat
  | .garage => 0 | .unplaced => 1 | .terminal => 2 | .uphill => 3 | .summit => 4 | .downhill => 5

/-- R208, in the order of 4.2. -/
def Location.ofCode : Nat → Option Location
  | 0 => some .garage | 1 => some .unplaced | 2 => some .terminal | 3 => some .uphill | 4 => some .summit
  | 5 => some .downhill | _ => none

/-- R208, in the order of 4.3. -/
def Identity.code : Identity → Nat
  | .registered => 0 | .anonymous => 1 | .foreign => 2

/-- R208, in the order of 4.3. -/
def Grip.code : Grip → Nat
  | .none => 0 | .pass => 1 | .fail => 2

/-- R212. -/
def BerthMode.code : BerthMode → Nat
  | .openMode => 0 | .passMode => 1

/-- R212. -/
def BerthMode.ofCode : Nat → Option BerthMode
  | 0 => some .openMode | 1 => some .passMode | _ => none

/-- R210, in the order of 5.2. -/
def DoorState.code : DoorState → Nat
  | .closed => 0 | .opening => 1 | .open => 2 | .pending => 3 | .closing => 4 | .reopening => 5 | .fault => 6

/-- R209. -/
def DoorStatus.code : DoorStatus → Nat
  | .locked => 0 | .opening => 1 | .open => 2 | .closing => 3 | .obstructed => 4 | .failed => 5

/-- R209. -/
def DoorStatus.ofCode : Nat → Option DoorStatus
  | 0 => some .locked | 1 => some .opening | 2 => some .open | 3 => some .closing | 4 => some .obstructed
  | 5 => some .failed | _ => none

/-- R209: the code in a DOOR_CMD frame. -/
def DoorCmd.code : DoorCmd → Nat
  | .open => 0 | .close => 1

/-- R210. -/
def Sending.code : Sending → Nat
  | .waiting => 0 | .placedOnce => 1 | .waitingAgain => 2 | .placedTwice => 3

/-- R210, in the order of 6.2. -/
def LinkState.code : LinkState → Nat
  | .down => 0 | .syncing => 1 | .up => 2 | .degraded => 3 | .lost => 4

/-- R208, in the order of 8.2. -/
def CallState.code : CallState → Nat
  | .idle => 0 | .outgoing => 1 | .incoming => 2 | .connected => 3

/-- R208. -/
def Priority.code : Priority → Nat
  | .emergency => 0 | .service => 1

/-- R208. -/
def Priority.ofCode : Nat → Option Priority
  | 0 => some .emergency | 1 => some .service | _ => none

/-- The more severe of two priorities, EMERGENCY above SERVICE (R153). -/
def Priority.max (a b : Priority) : Priority := if a = .emergency then a else b

/-- R208. -/
def Cause.code : Cause → Nat
  | .normal => 0 | .preempt => 1 | .noAnswer => 2 | .link => 3

/-- R208. -/
def Standing.code : Standing → Nat
  | .idle => 0 | .ringing => 1 | .waiting => 2 | .busy => 3 | .connected => 4

/-- R210. -/
def LoopState.code : LoopState → Nat
  | .unproven => 0 | .closed => 1 | .opened => 2

/-- R210. -/
def LoadState.code : LoadState → Nat
  | .loading => 0 | .ready => 1

/-- R210. -/
def StartOutcome.code : StartOutcome → Nat
  | .none => 0 | .complete => 1 | .skipped => 2 | .readFailed => 3 | .noMemory => 4 | .badSignature => 5

/-- R210. -/
def ProfileOutcome.code : ProfileOutcome → Nat
  | .none => 0 | .applied => 1 | .readFailed => 2 | .unavailable => 3

/-- R210. -/
def profileCode : Option Profile → Nat
  | none => 0 | some .windy => 1 | some .calm => 2

/-- The code of a frame kind (9.1). -/
def FrameKind.code : FrameKind → Byte
  | .doorCmd => 0x20 | .warn => 0x22 | .driveReq => 0x30 | .launchRel => 0x31 | .call => 0x40 | .voice => 0x41
  | .reply => 0x51 | .report => 0x52

/-- The reasons of a refusal (R182). -/
inductive Reason where
  | source | notReady | range | state | widen | key | busy | config | unknown
deriving DecidableEq, Repr

/-- R209: the position of the reason in the list of R182, from 1. -/
def Reason.code : Reason → Nat
  | .source => 1 | .notReady => 2 | .range => 3 | .state => 4 | .widen => 5 | .key => 6 | .busy => 7 | .config => 8
  | .unknown => 9

/-! ## Loop frames (12.2) -/

/-- A well-formed loop frame. -/
structure Frame where
  dest : Byte
  source : Byte
  kind : Byte
  tag : Byte
  payload : List Byte
  check : Word16
deriving DecidableEq, Repr

/-- R164: the frame the received bytes spell, or none when it is malformed. -/
def parseFrame (bs : List Byte) : Option Frame :=
  let n := u8 bs 4
  let check := BitVec.ofNat 16 (u16 bs (bs.length - 2))
  if 7 ≤ bs.length ∧ n ≤ 60 ∧ bs.length = n + 7 ∧ u8 bs 0 ≠ 0 ∧ u8 bs 1 ≠ 0 ∧ u8 bs 1 ≠ 127
      ∧ crc16 (bs.take (bs.length - 2)) = check then
    some { dest := bs.getD 0 0, source := bs.getD 1 0, kind := bs.getD 2 0, tag := bs.getD 3 0,
           payload := (bs.drop 5).take n, check := check }
  else none

/-- The bytes of a loop frame, its check formed over all before it (12.2). -/
def frameBytes (dest source kind tag : Byte) (payload : List Byte) : List Byte :=
  let body := [dest, source, kind, tag, BitVec.ofNat 8 payload.length] ++ payload
  body ++ enc2 (crc16 body).toNat

/-- R209: the time stamp and readings of a SAMPLE, or none when the payload is not usable. -/
def parseSample (p : List Byte) : Option (Word16 × List Word16) :=
  let c := u8 p 2
  if c ≤ 8 ∧ p.length = 3 + 2 * c then
    some (BitVec.ofNat 16 (u16 p 0), (List.range c).map fun i => BitVec.ofNat 16 (u16 p (3 + 2 * i)))
  else none

/-- R209: the status and motion toggle of a DOOR_STAT, or none when the payload is not usable. -/
def parseDoorStat (p : List Byte) : Option (DoorStatus × Bool) :=
  if p.length = 2 then (DoorStatus.ofCode (u8 p 0)).map fun st => (st, markAt p 1) else none

/-- R209: a phone's hook code, true for OFF_HOOK, or none when the payload is not usable. -/
def parseHook (p : List Byte) : Option Bool :=
  if p.length = 1 then
    if u8 p 0 = 0 then some true else if u8 p 0 = 1 then some false else none
  else none

/-! ## Table entries (12.4) -/

/-- The channel entry its 21 bytes code, or none when an enumerated code or a presence byte is outside its list
(R208, R212). -/
def ChanEntry.ofBytes (bs : List Byte) : Option ChanEntry :=
  match ChanState.ofCode (u8 bs 0), ChanKind.ofCode (u8 bs 3), FaultClass.ofCode (u8 bs 12) with
  | some st, some k, some cls =>
    if 1 < u8 bs 13 then none
    else
      some { state := st, node := u8 bs 1, slot := u8 bs 2, kind := k, low := u16 bs 4, high := u16 bs 6,
             hysteresis := u16 bs 8, persistence := u8 bs 10, staleTime := u8 bs 11, cls := cls,
             standby := if u8 bs 13 = 1 then some (u8 bs 14) else none, boundary := u8 bs 15, scale := u16 bs 16,
             step := u16 bs 18, shift := u8 bs 20 }
  | _, _, _ => none

/-- The 21 bytes of a channel entry (R212). -/
def ChanEntry.bytes (e : ChanEntry) : List Byte :=
  enc1 e.state.code ++ enc1 e.node ++ enc1 e.slot ++ enc1 e.kind.code ++ enc2 e.low ++ enc2 e.high
    ++ enc2 e.hysteresis ++ enc1 e.persistence ++ enc1 e.staleTime ++ enc1 e.cls.code ++ encOpt1 e.standby
    ++ enc1 e.boundary ++ enc2 e.scale ++ enc2 e.step ++ enc1 e.shift

/-- LINE_PARAMS from its 46 bytes (R212). -/
def LineParams.ofBytes (bs : List Byte) : LineParams :=
  { loopLen := u32 bs 0, uphillSpan := u32 bs 4, downhillSpan := u32 bs 8, tolerance := u32 bs 12,
    minSpacing := u32 bs 16, zeroBand := u16 bs 20, runSetpoint := u16 bs 22, slowSetpoint := u16 bs 24,
    startExit := u16 bs 26, startingLimit := u16 bs 28, runningLimit := u16 bs 30, slowedLimit := u16 bs 32,
    stoppingLimit := u16 bs 34, reverseLimit := u16 bs 36, startTime := u8 bs 38, stopTime := u8 bs 39,
    bypassDefault := u8 bs 40, idleSlow := u8 bs 41, deskNode := u8 bs 42, driveNode := u8 bs 43,
    conveyorNode := u8 bs 44, warnNode := u8 bs 45 }

/-- The 46 bytes of LINE_PARAMS (R212). -/
def LineParams.bytes (p : LineParams) : List Byte :=
  enc4 p.loopLen ++ enc4 p.uphillSpan ++ enc4 p.downhillSpan ++ enc4 p.tolerance ++ enc4 p.minSpacing
    ++ enc2 p.zeroBand ++ enc2 p.runSetpoint ++ enc2 p.slowSetpoint ++ enc2 p.startExit ++ enc2 p.startingLimit
    ++ enc2 p.runningLimit ++ enc2 p.slowedLimit ++ enc2 p.stoppingLimit ++ enc2 p.reverseLimit
    ++ enc1 p.startTime ++ enc1 p.stopTime ++ enc1 p.bypassDefault ++ enc1 p.idleSlow ++ enc1 p.deskNode
    ++ enc1 p.driveNode ++ enc1 p.conveyorNode ++ enc1 p.warnNode

/-- The ranges of R66. -/
def LineParams.inRange (p : LineParams) : Bool :=
  decide (1000 ≤ p.loopLen ∧ p.loopLen ≤ 30000000
    ∧ 1 ≤ p.uphillSpan ∧ p.uphillSpan ≤ 29999999 ∧ 1 ≤ p.downhillSpan ∧ p.downhillSpan ≤ 29999999
    ∧ 100 ≤ p.tolerance ∧ p.tolerance ≤ 100000 ∧ 1000 ≤ p.minSpacing ∧ p.minSpacing ≤ 1000000
    ∧ p.zeroBand ≤ 500 ∧ p.runSetpoint ≤ 12000 ∧ p.slowSetpoint ≤ 12000 ∧ p.startExit ≤ 12000
    ∧ p.startingLimit ≤ 15000 ∧ p.runningLimit ≤ 15000 ∧ p.slowedLimit ≤ 15000 ∧ p.stoppingLimit ≤ 15000
    ∧ p.reverseLimit ≤ 2000 ∧ 1 ≤ p.startTime ∧ p.startTime ≤ 255 ∧ 1 ≤ p.stopTime ∧ p.stopTime ≤ 255
    ∧ 1 ≤ p.bypassDefault ∧ p.bypassDefault ≤ 120 ∧ p.idleSlow ≤ 255
    ∧ 1 ≤ p.deskNode ∧ p.deskNode ≤ 126 ∧ p.driveNode ≤ 126 ∧ p.conveyorNode ≤ 126 ∧ p.warnNode ≤ 126)

/-- The berth entry its 10 bytes code, or none when the mode code is undefined (R212). -/
def BerthEntry.ofBytes (bs : List Byte) : Option BerthEntry :=
  (BerthMode.ofCode (u8 bs 0)).map fun m =>
    { mode := m, doorNode := u8 bs 1, openDelay := u8 bs 2, dwell := u8 bs 3, gatherWindow := u8 bs 4,
      reopenDwell := u8 bs 5, retries := u8 bs 6, motionLimit := u8 bs 7, holdLimit := u16 bs 8 }

/-- The 10 bytes of a berth entry (R212). -/
def BerthEntry.bytes (e : BerthEntry) : List Byte :=
  enc1 e.mode.code ++ enc1 e.doorNode ++ enc1 e.openDelay ++ enc1 e.dwell ++ enc1 e.gatherWindow
    ++ enc1 e.reopenDwell ++ enc1 e.retries ++ enc1 e.motionLimit ++ enc2 e.holdLimit

/-- The ranges of R93. -/
def BerthEntry.inRange (e : BerthEntry) : Bool :=
  decide (e.doorNode ≤ 126 ∧ e.openDelay ≤ 50 ∧ 2 ≤ e.dwell ∧ e.dwell ≤ 120
    ∧ 1 ≤ e.gatherWindow ∧ e.gatherWindow ≤ 20 ∧ 1 ≤ e.reopenDwell ∧ e.reopenDwell ≤ 20 ∧ e.retries ≤ 3
    ∧ 10 ≤ e.motionLimit ∧ e.motionLimit ≤ 100 ∧ 10 ≤ e.holdLimit ∧ e.holdLimit ≤ 600)

/-- The phone entry its 3 bytes code, or none when the priority code is undefined (R212). -/
def Phone.ofBytes (bs : List Byte) : Option Phone :=
  (Priority.ofCode (u8 bs 1)).map fun p => { node := u8 bs 0, priority := p, ringGroup := markAt bs 2 }

/-- The 3 bytes of a phone entry (R212). -/
def Phone.bytes (e : Phone) : List Byte := enc1 e.node ++ enc1 e.priority.code ++ encMark e.ringGroup

/-- The entry record that the bytes read code: table id (1), index (2), high byte first, length (1) and the contents
read; none with fewer bytes than a header's (R212, R208). -/
def MemRecord.ofBytes : List Byte → Option MemRecord
  | table :: high :: low :: length :: contents =>
    some { tableId := table, index := high ++ low, length := length, contents := contents }
  | _ => none

/-- The 4 header bytes of an entry record (R212). -/
def MemRecord.header (r : MemRecord) : List Byte :=
  [r.tableId, r.index.extractLsb' 8 8, r.index.extractLsb' 0 8, r.length]

/-- The bytes of an entry record, its header and its contents (R212). -/
def MemRecord.bytes (r : MemRecord) : List Byte := r.header ++ r.contents

/-- A table's id (R208). -/
def tableChannel : Nat := 0
/-- A table's id (R208). -/
def tableBerth : Nat := 1
/-- A table's id (R208). -/
def tableFleet : Nat := 2
/-- A table's id (R208). -/
def tablePhone : Nat := 3
/-- A table's id (R208). -/
def tableLineParams : Nat := 4

/-- A written table's entry length (R212), none for the other ids. -/
def entryLength (table : Nat) : Option Nat :=
  match table with
  | 0 => some 21 | 1 => some 10 | 2 => some 2 | 3 => some 3 | 4 => some 46 | _ => none

/-- The descriptor's ten segment pointers, or none when the signature is not AB5Eh (R201, R212). -/
def parseDescriptor (bs : List Byte) : Option (List (Nat × Nat)) :=
  if u16 bs 0 = 0xAB5E then
    some ((List.range 10).map fun i => (u16 bs (2 + 4 * i), u16 bs (4 + 4 * i)))
  else none

/-! ## Summit bursts (12.3) -/

/-- A safety word's two bytes (R211). -/
def SafetyWord.bytes (w : SafetyWord) : List Byte :=
  enc1 w.demand.code ++ enc1 (w.line.code + if w.tripLatched then 128 else 0)

/-- R125: the most messages a burst may carry. -/
def messageLimit (rate : BitVec 2) (voice : Bool) : Nat := if rate = 0 ∧ voice = true then 1 else 3

/-- A message as a burst carries it: type, sequence, length, payload (R211). -/
def messageBytes (m : Message) (seq : Byte) : List Byte :=
  [m.type, seq, BitVec.ofNat 8 m.payload.length] ++ m.payload

/-- A valley burst's bytes, with its check (R124, R211). -/
def burstBytes (turn : Byte) (word : SafetyWord) (next : Byte) (hold : Bool) (voice : Option (List Byte))
    (msgs : List (Message × Byte)) : List Byte :=
  let flags := (if hold then 1 else 0) + (if voice.isSome then 2 else 0)
  let body := [0xA5#8, 0x01#8, turn] ++ word.bytes ++ [next] ++ enc1 flags ++ voice.getD []
    ++ enc1 msgs.length ++ msgs.flatMap fun m => messageBytes m.1 m.2
  body ++ enc2 (crc16 body).toNat

/-- A valley attention sequence's characters (R211). -/
def attentionBytes (restart : Bool) (next : Byte) : List Byte :=
  [0x5A, 0x5A, 0x5A, if restart then 0x41 else 0x40, next]

/-- The contents of a good summit burst (R126). -/
structure SummitBurst where
  turn : Byte
  word : SafetyWord
  next : Byte
  hold : Bool
  voice : Option (List Byte)
  msgs : List (Message × Byte)
deriving DecidableEq, Repr

/-- The messages of a burst and the bytes after them, or none when a length is over 12 or the bytes run out
(R120, check 6). -/
def parseMessages : Nat → List Byte → Option (List (Message × Byte) × List Byte)
  | 0, rest => some ([], rest)
  | n + 1, t :: q :: l :: rest =>
    if l.toNat ≤ 12 ∧ l.toNat ≤ rest.length then
      (parseMessages n (rest.drop l.toNat)).map fun (ms, r) =>
        (({ type := t, payload := rest.take l.toNat }, q) :: ms, r)
    else none
  | _ + 1, _ => none

/-- R120, checks 2, 3 and 5 to 7: the contents of a summit burst, or none when it is bad. The turn number (check 4)
and framing errors (check 1) are judged by the caller. -/
def parseSummitBurst (rate : BitVec 2) (bs : List Byte) : Option SummitBurst :=
  let voice := (bs.getD 6 0).getLsbD 1
  let start := if voice then 47 else 7
  let count := u8 bs start
  match Demand.ofCode (u8 bs 3), LineState.ofCode (u8 bs 4 % 128) with
  | some d, some ln =>
    if u8 bs 0 = 0xA5 ∧ u8 bs 1 = 2 ∧ start < bs.length ∧ count ≤ messageLimit rate voice then
      match parseMessages count (bs.drop (start + 1)) with
      | some (ms, rest) =>
        if rest.length = 2 ∧ u16 rest 0 = (crc16 (bs.take (bs.length - 2))).toNat then
          some { turn := bs.getD 2 0, word := { demand := d, line := ln, tripLatched := (bs.getD 4 0).getLsbD 7 },
                 next := bs.getD 5 0, hold := (bs.getD 6 0).getLsbD 0,
                 voice := if voice then some ((bs.drop 7).take 40) else none, msgs := ms }
        else none
      | none => none
    else none
  | _, _ => none

/-- Message types (R211). -/
def msgCabinLaunched : Byte := 0x01
/-- Message types (R211). -/
def msgCabinArrived : Byte := 0x02
/-- Message types (R211). -/
def msgCallRing : Byte := 0x03
/-- Message types (R211). -/
def msgCallAnswer : Byte := 0x04
/-- Message types (R211). -/
def msgCallClear : Byte := 0x05
/-- Message types (R211). -/
def msgDeskNote : Byte := 0x06

end Sys2Proof.Machine
end

