-- ==== Sys2Proof/Machine/Ops.lean ====
section
/-! DEFINITION. The operations several blocks share: the part's time, the tables' accessors, LR's insertion queues, RA's
speed tests, LS's fault list, demand and line states, DS's warning output, CT's launch release, SL's transmit queue. -/

namespace Sys2Proof.Machine

/-! ## Time -/

/-- The part's time has reached `t` (log entry 2): an expiry is taken no earlier than its timer's end. -/
def reach (t : Nat) (s : State) : State := { s with now := max s.now t }

/-! ## Tables -/

/-- The berth count B (R197). -/
def State.berthCount (s : State) : Nat := 2 * (s.straps.berths.toNat + 1)

/-- The part's own loop address (R197). -/
def State.ownAddress (s : State) : Byte := BitVec.ofNat 8 (100 + s.straps.address.toNat)

/-- LINE_PARAMS. -/
def State.params (s : State) : LineParams := s.ls.params

/-- Channel `c`; beyond the table, an UNUSED one. -/
def State.chan (s : State) (c : Nat) : Channel := s.cm.channels[c]?.getD Channel.reset

/-- Channel `c` replaced. -/
def setChan (c : Nat) (ch : Channel) (s : State) : State :=
  { s with cm := { s.cm with channels := s.cm.channels.setIfInBounds c ch } }

/-- Channel `c`'s entry replaced. -/
def setEntry (c : Nat) (e : ChanEntry) (s : State) : State := setChan c { s.chan c with entry := e } s

/-- Channel `c`'s runtime record replaced. -/
def setRt (c : Nat) (rt : Runtime) (s : State) : State := setChan c { s.chan c with rt := rt } s

/-- Berth `j` (1..B). -/
def State.berth (s : State) (j : Nat) : Berth := s.ds.berths[j - 1]?.getD Berth.reset

/-- Berth `j`'s door record. -/
def State.door (s : State) (j : Nat) : Door := (s.berth j).door

/-- Whether `j` is one of the berths 1..B. -/
def State.isBerth (s : State) (j : Nat) : Bool := decide (1 ≤ j ∧ j ≤ s.berthCount)

/-- Berth `j` replaced. -/
def setBerth (j : Nat) (b : Berth) (s : State) : State :=
  { s with ds := { s.ds with berths := s.ds.berths.setIfInBounds (j - 1) b } }

/-- Berth `j`'s door record replaced. -/
def setDoor (j : Nat) (d : Door) (s : State) : State := setBerth j { s.berth j with door := d } s

/-- The berths 1..B in order. -/
def State.berthList (s : State) : List Nat := (List.range s.berthCount).map (· + 1)

/-- Phone `h` of the phone table. -/
def State.phoneEntry (s : State) (h : Nat) : Phone := s.cs.phones[h]?.getD Phone.reset

/-! ## LR: the insertion queues (9.4.1) -/

/-- A frame of the part without a tag of its own. -/
def qframe (dest : Nat) (kind : FrameKind) (payload : List Byte) : QFrame :=
  { dest := dest, kind := kind, payload := payload, tag := 0, restart := false }

/-- R170: a SAFETY frame takes the place of the queued one of its kind, or joins the tail. -/
def offerSafety (f : QFrame) (s : State) : State :=
  let q := s.lr.safety
  let q' := if q.any (fun g => g.kind = f.kind) then q.map (fun g => if g.kind = f.kind then f else g) else q ++ [f]
  { s with lr := { s.lr with safety := q' } }

/-- R171: whether the DOOR queue accepts an offer. -/
def State.doorRoom (s : State) : Bool := decide (s.lr.door.length < Config.doorCap)

/-- R171: an accepted DOOR frame joins the tail. -/
def joinDoor (f : QFrame) (s : State) : State := { s with lr := { s.lr with door := s.lr.door ++ [f] } }

/-- R171: the VOICE queue accepts every offer, dropping its oldest frame when it holds 4. -/
def offerVoice (f : QFrame) (s : State) : State :=
  let q := if Config.relayCap ≤ s.lr.voice.length then s.lr.voice.drop 1 else s.lr.voice
  { s with lr := { s.lr with voice := q ++ [f] } }

/-- R172: an accepted REPLY or REPORT joins the tail of the REPORT queue. -/
def joinReport (f : QFrame) (s : State) : State := { s with lr := { s.lr with report := s.lr.report ++ [f] } }

/-! ## RA: speed tests and distances (R12, R18) -/

/-- R12: speed-valid set and |vf| within the zero band. -/
def State.atRest (s : State) : Bool := s.ra.speedValid && decide (s.ra.vf.natAbs ≤ s.params.zeroBand)

/-- R12: speed-valid set and vf > 0. -/
def State.forward (s : State) : Bool := s.ra.speedValid && decide (0 < s.ra.vf)

/-- R12: speed-valid set and vf at or above the start exit speed. -/
def State.startExit (s : State) : Bool := s.ra.speedValid && decide ((s.params.startExit : Int) ≤ s.ra.vf)

/-- R18: the forward distance from `p0` to the present rope position. -/
def State.forwardDist (s : State) (p0 : Nat) : Nat :=
  (((s.ra.p : Int) - (p0 : Int)) % (s.params.loopLen : Int)).toNat

/-- R18: the spacing condition. -/
def State.spacing (s : State) : Bool := !s.ra.qValid || decide (s.params.minSpacing ≤ s.forwardDist s.ra.q)

/-! ## LS: demand, line states, drive request -/

/-- Whether channel `c` is bypassed. -/
def State.bypassed (s : State) (c : Nat) : Bool := (s.chan c).bypass.isSome

/-- R54: whether an entry that stands imposes its class: not while its source is a bypassed channel, unless its code
is BYPASS_ACTIVE (R40). -/
def imposes (s : State) (e : FaultEntry) : Bool :=
  (e.present || e.latched) &&
    match e.source with
    | .channel c => !s.bypassed c || e.code == .bypassActive
    | _ => true

/-- R54: the effective demand, were the desk demand `desk`. -/
def demandWith (desk : Demand) (s : State) : Demand :=
  s.ls.faults.foldl (fun d e => if imposes s e then d.max e.cls.demand else d) (desk.max s.ls.overflow)

/-- R54: the effective demand as its inputs stand. -/
def State.demandNow (s : State) : Demand := demandWith s.ls.deskDemand s

/-- R62: the content of a drive request. -/
def driveContent (s : State) : DriveRecord :=
  match s.ls.line with
  | .starting =>
    if s.ls.effDemand = .run then { level := .run, setpoint := s.params.runSetpoint, line := .starting }
    else { level := .slow, setpoint := s.params.slowSetpoint, line := .starting }
  | .running => { level := .run, setpoint := s.params.runSetpoint, line := .running }
  | .slowed => { level := .slow, setpoint := s.params.slowSetpoint, line := .slowed }
  | .stopping => { level := .stop, setpoint := 0, line := .stopping }
  | .stopped => { level := .stop, setpoint := 0, line := .stopped }
  | .tripped => { level := .trip, setpoint := 0, line := .tripped }

/-- R63: the record's content is issued: the refresh interval starts, and a DRIVE_REQ frame is formed while the drive
node address is not 0. -/
def sendDrive (s : State) : State :=
  let s := { s with ls := { s.ls with refreshAt := s.now + Config.refreshTime } }
  if s.params.driveNode = 0 then s
  else
    offerSafety (qframe s.params.driveNode .driveReq
      (enc1 s.ls.drive.level.code ++ enc2 s.ls.drive.setpoint ++ enc1 s.ls.drive.line.code)) s

/-- R62: LS writes a drive request into the record and sends it. -/
def issueDrive (s : State) : State := sendDrive { s with ls := { s.ls with drive := driveContent s } }

/-- R49, R51: the list after a fault's condition is reported gone, and whether an entry left. -/
def listGone (src : Source) (code : FaultCode) (l : List FaultEntry) : List FaultEntry × Bool :=
  let hit := fun (e : FaultEntry) => decide (e.source = src ∧ e.code = code)
  if l.any (fun e => hit e && !e.latched) then (l.filter (fun e => !(hit e && !e.latched)), true)
  else (l.map (fun e => if hit e then { e with present := false } else e), false)

/-- R51 without the demand: a live entry leaves, setting FAULT_GONE; a latched one stays with its condition gone. -/
def dropFault (src : Source) (code : FaultCode) (s : State) : State :=
  let (l, left) := listGone src code s.ls.faults
  let s := { s with ls := { s.ls with faults := l } }
  if left then setFlag .faultGone s else s

/-- R101: running open delays and waiting opens are cancelled on the line's entry into STOPPED or TRIPPED. -/
def cancelOpens (s : State) : State :=
  { s with ds := { s.ds with
      berths := s.ds.berths.map fun b =>
        { b with door := { b.door with openDelay := none, waitingOpen := false } } } }

/-- R64: the auto-slow period of a setting N in ms, none when disabled. -/
def autoSlowPeriod (n : Nat) : Option Nat :=
  if n = 0 then none else if n ≤ 11 then some 60000 else some (n * 5000)

/-- R55, R60, R64: the line enters a state: LINE_CHANGE, the time limits, the desk demand, the auto-slow timer, the
effective demand formed again, DS's cancellation (R101), SL's break pending mark (R133), and a drive request. CM's
and CT's parts follow in `follow`. -/
def enterLine (st : LineState) (s : State) : State :=
  let ending := st = .stopping ∨ st = .tripped
  let auto :=
    if st = .running ∨ st = .slowed then
      if s.ls.line = .starting then (autoSlowPeriod s.params.idleSlow).map (fun _ => s.now) else s.ls.autoSlow
    else none
  let s1 := setFlag .lineChange { s with ls := { s.ls with
    line := st
    startTimer := if st = .starting then some s.now else none
    stopTimer := if st = .stopping then some s.now else none
    deskDemand := if ending then .stop else s.ls.deskDemand
    autoSlow := auto } }
  let s2 := if ending then dropFault .line .autoSlow s1 else s1
  let s3 := { s2 with ls := { s2.ls with effDemand := s2.demandNow } }
  let s4 := if st = .stopped ∨ st = .tripped then cancelOpens s3 else s3
  let s5 := if st = .tripped then { s4 with sl := { s4.sl with breakPending := true } } else s4
  issueDrive s5

/-- R59: entering STOPPING makes the at-rest test at once. -/
def enterStopping (s : State) : State :=
  let s1 := enterLine .stopping s
  if s1.atRest then enterLine .stopped s1 else s1

/-- The line state an effective demand calls for, none for no change (3.3, R55, R58, R60). -/
def lineTarget (ln : LineState) (d : Demand) : Option LineState :=
  match ln, d with
  | .tripped, _ => none
  | _, .trip => some .tripped
  | .starting, .stop => some .stopping
  | .running, .stop => some .stopping
  | .slowed, .stop => some .stopping
  | .running, .slow => some .slowed
  | .slowed, .run => some .running
  | _, _ => none

/-- R54: LS forms the effective demand again and takes the line state change and drive request that follow. -/
def reform (s : State) : State :=
  let d := s.demandNow
  let s1 := { s with ls := { s.ls with effDemand := d } }
  match lineTarget s.ls.line d with
  | some .stopping => enterStopping s1
  | some st => enterLine st s1
  | none => if s.ls.line = .starting ∧ d ≠ s.ls.effDemand then issueDrive s1 else s1

/-- A fault as its block raises it (R50). -/
structure Raise where
  source : Source
  code : FaultCode
  cls : FaultClass
  latched : Bool
  present : Bool
deriving DecidableEq, Repr

/-- R50: a listed entry as a raising of the same fault leaves it. -/
def updateEntry (f : Raise) (e : FaultEntry) : FaultEntry :=
  { e with present := e.present || f.present, cls := e.cls.max f.cls, latched := e.latched || f.latched }

/-- R49, R50, R52 without the demand: the entry is updated, listed at the tail, or folded into the overflow demand. -/
def listFault (f : Raise) (s : State) : State :=
  let hit := fun (e : FaultEntry) => decide (e.source = f.source ∧ e.code = f.code)
  if s.ls.faults.any hit then
    let again := f.present && s.ls.faults.any (fun e => hit e && !e.present)
    let s := { s with ls := { s.ls with
      faults := s.ls.faults.map (fun e => if hit e then updateEntry f e else e) } }
    if again then setFlag .faultNew s else s
  else if s.ls.faults.length < Config.faultCap then
    setFlag .faultNew { s with ls := { s.ls with
      faults := s.ls.faults ++ [{ order := s.ls.nextFault, source := f.source, code := f.code, cls := f.cls,
                                  latched := f.latched, present := f.present }]
      nextFault := s.ls.nextFault + 1 } }
  else
    setFlag .overflow { s with ls := { s.ls with overflow := s.ls.overflow.max f.cls.demand } }

/-- R50, R54: a fault is raised at LS. -/
def raiseCore (f : Raise) (s : State) : State := reform (listFault f s)

/-- R51, R54: a fault's condition is reported gone at LS. -/
def goneCore (src : Source) (code : FaultCode) (s : State) : State := reform (dropFault src code s)

/-- A latched STOP-class fault that records an event: condition gone (4.8, R144). -/
def eventFault (src : Source) (code : FaultCode) : Raise :=
  { source := src, code := code, cls := .stop, latched := true, present := false }

/-! ## CT: launch release (R80 to R82) -/

/-- The number of the zone LAUNCH (4.1). -/
def State.launchZone (s : State) : Nat := s.berthCount + 1

/-- The oldest record of LAUNCH (R72). -/
def State.launchHead (s : State) : Option Cabin := s.ct.queue.find? (fun c => c.zone == s.launchZone)

/-- R80, condition 7 fails: the transmit queue holds 16 entries. -/
def State.txFull (s : State) : Bool := decide (Config.txCap ≤ s.sl.txQueue.length)

/-- R80, conditions 1 to 7. -/
def mayGo (s : State) (c : Cabin) : Bool :=
  decide (s.ls.line = .running ∨ s.ls.line = .slowed) && c.identity == .registered && c.locked && c.grip == .pass
    && s.spacing && decide (s.ct.uphill.length < Config.listCap) && !s.txFull

/-- R80: the release and cabin the conditions give. -/
def releaseNow (s : State) : Release × Nat :=
  match s.launchHead with
  | none => (.hold, 0)
  | some c => (if mayGo s c then .go else .hold, c.id)

/-- R209: the code of a release. -/
def Release.code : Release → Nat
  | .hold => 0 | .go => 1

/-- R81: a LAUNCH_REL frame of the release record, while the conveyor's address is not 0. -/
def sendLaunchRel (s : State) : State :=
  if s.params.conveyorNode = 0 then s
  else
    offerSafety (qframe s.params.conveyorNode .launchRel (enc1 s.ct.release.code ++ enc2 s.ct.releaseCabin)) s

/-- R80: the release record follows the conditions; last GO takes the cabin that had GO. -/
def updateRelease (s : State) : State :=
  let (r, id) := releaseNow s
  if r = s.ct.release ∧ id = s.ct.releaseCabin then s
  else
    let last := if s.ct.release = .go then some { id := s.ct.releaseCabin, leftAt := s.now } else s.ct.lastGo
    sendLaunchRel { s with ct := { s.ct with release := r, releaseCabin := id, lastGo := last } }

/-- R82: the waiting source is let go. -/
def letGoWaiting (s : State) : State :=
  match s.ct.backlogWaiting with
  | none => s
  | some w =>
    let s := { s with ct := { s.ct with backlogWaiting := none } }
    if s.ct.backlogLaunched.contains w then s else goneCore (.cabin w) .linkBacklog s

/-- R82: every launched source is let go. -/
def letGoLaunched (s : State) : State :=
  s.ct.backlogLaunched.foldl
    (fun t x => if t.ct.backlogWaiting = some x then t else goneCore (.cabin x) .linkBacklog t)
    { s with ct := { s.ct with backlogLaunched := [] } }

/-- LINK_BACKLOG of a cabin (R82). -/
def backlogFault (id : Nat) : Raise :=
  { source := .cabin id, code := .linkBacklog, cls := .slow, latched := false, present := true }

/-- R82: LINK_BACKLOG sources at an evaluation of the release. -/
def evalBacklog (s : State) : State :=
  let head := s.launchHead.map (·.id)
  let s1 := if s.ct.backlogWaiting.isSome ∧ (¬ s.txFull ∨ head ≠ s.ct.backlogWaiting) then letGoWaiting s else s
  let s2 := if s1.txFull then s1 else letGoLaunched s1
  match head with
  | some y =>
    if s2.txFull then raiseCore (backlogFault y) { s2 with ct := { s2.ct with backlogWaiting := some y } } else s2
  | none => s2

/-- One evaluation of the release. -/
def evalReleaseOnce (s : State) : State := evalBacklog (updateRelease s)

/-- R80: CT evaluates the launch release; a line state change that LINK_BACKLOG causes is itself an occasion to
evaluate it. -/
def evalRelease (s : State) : State :=
  let s1 := evalReleaseOnce s
  if s1.ls.line = s.ls.line then s1 else evalReleaseOnce s1

/-- CT's terminal queue replaced. -/
def setQueue (q : List Cabin) (s : State) : State := { s with ct := { s.ct with queue := q } }

/-- R77: a notice of DS sets the doors-locked mark of the record in berth `j`, and a change is an occasion to
evaluate the release. -/
def noticeLocked (j : Nat) (b : Bool) (s : State) : State :=
  if s.ct.queue.any (fun c => c.zone == j && c.locked != b) then
    evalRelease (setQueue (s.ct.queue.map fun c => if c.zone = j then { c with locked := b } else c) s)
  else s

/-! ## CT: the fleet table (4.2) -/

/-- The location of a registered cabin, none for an id that is not registered. -/
def State.location (s : State) (id : Nat) : Option Location :=
  (s.ct.fleet.toList.findSome? fun o => o.bind fun c => if c.id = id then some c.location else none)

/-- Whether an id is in the fleet table. -/
def State.registered (s : State) (id : Nat) : Bool := (s.location id).isSome

/-- R69: a registered cabin's location is changed. -/
def setLocation (id : Nat) (loc : Location) (s : State) : State :=
  { s with ct := { s.ct with
      fleet := s.ct.fleet.map fun o => o.map fun c => if c.id = id then { c with location := loc } else c } }

/-! ## SL: the transmit queue (R136) -/

/-- R136: an offered message is numbered and appended, and CT told of the change; or refused at 16 entries. The first
component says whether it was taken. -/
def txOffer (m : Message) (s : State) : Bool × State :=
  if s.txFull then (false, s)
  else
    (true, evalRelease { s with sl := { s.sl with
      txQueue := s.sl.txQueue ++ [{ msg := m, seq := s.sl.nextSend, sent := false, age := 0 }]
      nextSend := s.sl.nextSend + 1 } })

/-! ## DS: the warning output (R106) -/

/-- R106: the set of berths whose records are CLOSING, bit j − 1 for berth j (R209). -/
def State.closingSet (s : State) : Byte :=
  s.berthList.foldl (fun m j => if (s.door j).state = .closing then m ||| BitVec.twoPow 8 (j - 1) else m) 0

/-- Whether a waiting item is the warning frame. -/
def DoorWait.isWarning : DoorWait → Bool
  | .warning _ _ => true
  | .command _ => false

/-- R106: a waiting warning is discarded. -/
def dropWarning (s : State) : State :=
  { s with ds := { s.ds with waiting := s.ds.waiting.filter fun w => !w.isWarning } }

/-- R106, R209: the WARN frame of a set. -/
def warnFrame (dest : Nat) (berths : Byte) : QFrame := qframe dest .warn (encMark (berths != 0) ++ [berths])

/-- R106: a WARN frame with the present set is formed and offered; it replaces a waiting one. No frame is formed while
the platform warning node address is 0, and one that waits then is kept (log entry 70). -/
def formWarning (s : State) : State :=
  if s.params.warnNode = 0 then s
  else
    let set := s.closingSet
    let s := dropWarning s
    if s.doorRoom then
      joinDoor (warnFrame s.params.warnNode set) { s with ds := { s.ds with warnLast := set } }
    else { s with ds := { s.ds with waiting := s.ds.waiting ++ [.warning s.params.warnNode set] } }

/-- R106: at the end of an event in which the set was `before`, a changed set forms a frame, or, equal to the set last
sent, discards a waiting one. -/
def updateWarning (before : Byte) (s : State) : State :=
  if s.closingSet = before then s
  else if s.closingSet = s.ds.warnLast then dropWarning s
  else formWarning s

/-! ## CL: profile loads (R203 to R205) -/

/-- The start and stop address of a segment. -/
def State.segment (s : State) (i : Nat) : Nat × Nat := (s.cl.pointers.getD []).getD i (0, 0)

/-- The number of a profile's segment (R212). -/
def Profile.segment : Profile → Nat
  | .windy => 8 | .calm => 9

/-- R200: a skip count rises by 1 and stops at 65,535. -/
def bump (n : Nat) : Nat := min 65535 (n + 1)

/-- R205: application begins: CM empties the deferred list (R46). With nothing staged it ends at once. -/
def enterApplying (p : Profile) (s : State) : State :=
  let s := { s with cm := { s.cm with deferred := [] } }
  if s.cl.staging.isEmpty then
    setFlag .profileApplied { s with cl := { s.cl with
      profile := .idle, lastOutcome := .applied, lastSkip := s.cl.profileSkip } }
  else { s with cl := { s.cl with profile := .applying p } }

/-- R204: a profile load begins with its segment bounds (R200). -/
def beginProfile (p : Profile) (s : State) : State :=
  let (a, b) := s.segment p.segment
  if b < a then { s with cl := { s.cl with profile := .idle, profileSkip := 0, lastOutcome := .unavailable, lastSkip := 0 } }
  else
    let s := { s with cl := { s.cl with staging := [], profileSkip := if a = b ∨ a + 4 ≤ b then 0 else 1 } }
    if a + 4 ≤ b then { s with cl := { s.cl with profile := .reading p a } } else enterApplying p s

/-- R203: a profile load has ended; a pending profile begins in the same event. -/
def afterProfile (s : State) : State :=
  match s.cl.pending with
  | none => s
  | some p => beginProfile p { s with cl := { s.cl with pending := none } }

/-- R203: CM asks for a profile. -/
def requestProfile (p : Profile) (s : State) : State :=
  if s.cl.load = .loading ∨ s.cl.profile ≠ .idle then { s with cl := { s.cl with pending := some p } }
  else if s.cl.pointers.isNone then s
  else beginProfile p s

end Sys2Proof.Machine
end

