-- ==== Sys2Proof/Machine/Channel.lean ====
section
/-! DEFINITION. CM's table: runtime records, failure and substitution, the wind band, writes of channel entries and of
LINE_PARAMS, the deferred list (chapter 2). An operation that may change the line state takes what the other blocks do
on the change as an argument (`Follow`), since CM's own part of it, the deferred list, is made of such operations. -/

namespace Sys2Proof.Machine

/-- What follows an LS event, given the states before and after it. -/
abbrev Follow := State → State → State

/-- A fault is raised, with what follows. -/
def raiseF (fl : Follow) (f : Raise) (s : State) : State := fl s (raiseCore f s)

/-- A fault's condition is reported gone, with what follows. -/
def goneF (fl : Follow) (src : Source) (code : FaultCode) (s : State) : State := fl s (goneCore src code s)

/-- The conditions of several faults of a channel are reported gone. -/
def goneAll (fl : Follow) (c : Nat) (codes : List FaultCode) (s : State) : State :=
  codes.foldl (fun t code => goneF fl (.channel c) code t) s

/-- The faults CM raises for a channel, except STALE and BYPASS_ACTIVE (R22, R35). -/
def cmFaults : List FaultCode := [.outLow, .outHigh, .windWindy, .windStorm, .markSkip]

/-! ## Runtime records, the encoder channel, the wind band -/

/-- R22: a runtime record reset at time `now`; the last reading is kept, and so is the mark of a STALE fault. -/
def Runtime.restart (now : Nat) (rt : Runtime) : Runtime :=
  { rt with lastAccepted := now, runCount := 0, returnCount := 0, windyCount := 0, stormCount := 0, windy := false,
            storm := false, counterBase := none, condition := .normal }

/-- R22: CM reports the channel's present faults gone and resets its runtime record. -/
def resetRuntime (fl : Follow) (c : Nat) (s : State) : State :=
  let s := goneAll fl c cmFaults s
  setRt c ((s.chan c).rt.restart s.now) s

/-- R22, R36: a STALE condition that is present is reported gone as the channel leaves FAILED. -/
def staleGone (fl : Follow) (c : Nat) (s : State) : State :=
  if (s.chan c).rt.staleRaised then
    goneF fl (.channel c) .stale (setRt c { (s.chan c).rt with staleRaised := false } s)
  else s

/-- R1: the ACTIVE channel of kind ENCODER with the lowest index. -/
def State.encoderNow (s : State) : Option Nat :=
  (List.range 48).find? fun c => (s.chan c).entry.state == .active && (s.chan c).entry.kind == .encoder

/-- R1, R15: RA determines the encoder channel again. -/
def determineEncoder (fl : Follow) (s : State) : State :=
  let new := s.encoderNow
  let old := s.ra.encoder
  if new = old then s
  else
    let ra := { s.ra with encoder := new, baseValid := false }
    let s1 := { s with ra := if new = none then { ra with speedValid := false, v := 0, vf := 0 } else ra }
    match old with
    | none => s1
    | some a => goneAll fl a [.overspeed, .rollback] s1

/-- R28: a WIND channel's band. -/
def Runtime.band (rt : Runtime) : Band := if rt.storm then .storm else if rt.windy then .windy else .calm

/-- R29: the most severe band among the ACTIVE WIND channels. -/
def State.bandNow (s : State) : Band :=
  s.cm.channels.toList.foldl
    (fun b ch => if ch.entry.state = .active ∧ ch.entry.kind = .wind then b.max ch.rt.band else b) .calm

/-- R29: the part-wide wind band is formed again; a change sets WIND_BAND and may ask for a profile. -/
def formBand (s : State) : State :=
  let new := s.bandNow
  let old := s.cm.windBand
  if new = old then s
  else
    let s := setFlag .windBand { s with cm := { s.cm with windBand := new } }
    if old = .calm then requestProfile .windy s
    else if new = .calm then requestProfile .calm s
    else s

/-! ## Capture (R194, R195): CM's part -/

/-- R194: the captured channel fails: GAP becomes pending, and on a substitution SUBST too, with the standby in the
channel's place. -/
def captureFail (c : Nat) (sub : Option Nat) (s : State) : State :=
  match s.dr.capture with
  | some k =>
    if k.channel = c then
      let k := { k with gap := true }
      let k := match sub with
        | some b => { k with subst := true, channel := b }
        | none => k
      { s with dr := { s.dr with capture := some k } }
    else s
  | none => s

/-- R195: an accepted write to the captured channel, or a REINSTATE, ends the capture with cause WRITTEN. -/
def captureWritten (c : Nat) (s : State) : State :=
  match s.dr.capture with
  | some k => if k.channel = c then { s with dr := { s.dr with capture := some { k with written := true } } } else s
  | none => s

/-! ## Failure and substitution (2.7) -/

/-- R27: live for NOTE and SLOW, latched for STOP and TRIP. -/
def FaultClass.latches : FaultClass → Bool
  | .note => false | .slow => false | .stop => true | .trip => true

/-- A fault whose class and latching follow the channel's class, condition present (R27, R36). -/
def classFault (c : Nat) (code : FaultCode) (cls : FaultClass) : Raise :=
  { source := .channel c, code := code, cls := cls, latched := cls.latches, present := true }

/-- R34, every condition but the room in the list: the standby that may take the place of failing channel `c`. -/
def State.standbyFor (s : State) (c : Nat) : Option Nat :=
  match (s.chan c).entry.standby with
  | none => none
  | some b =>
    if (s.chan b).entry.state = .standby ∧ (s.chan b).entry.kind = (s.chan c).entry.kind
        ∧ ¬ s.cm.subst.any (fun e => e.standby == c) then some b
    else none

/-- A channel's entry state becomes FAILED and its condition STALE (R35, R36). -/
def markFailed (c : Nat) (s : State) : State :=
  let ch := s.chan c
  setChan c { ch with entry := { ch.entry with state := .failed }, rt := { ch.rt with condition := .stale } } s

/-- R35: standby `b` becomes ACTIVE, with the boundary of a TRACK_MARK primary. -/
def activateStandby (a b : Nat) (s : State) : State :=
  let e := { (s.chan b).entry with state := .active }
  setEntry b (if (s.chan a).entry.kind = .trackMark then { e with boundary := (s.chan a).entry.boundary } else e) s

/-- R35: the pair joins the substitution list. -/
def listSubst (a b : Nat) (s : State) : State :=
  { s with cm := { s.cm with
      subst := s.cm.subst ++ [{ primary := a, standby := b, order := s.cm.nextOrder }]
      nextOrder := s.cm.nextOrder + 1 } }

/-- R35: standby `b` takes the place of primary `a`. The table and the list change together first. -/
def substitute (fl : Follow) (a b : Nat) (s : State) : State :=
  let s1 := listSubst a b (markFailed a (activateStandby a b s))
  let s2 := goneAll fl a cmFaults (resetRuntime fl b s1)
  formBand (determineEncoder fl (captureFail a (some b) (setFlag .subst s2)))

/-- R36, R37, R1: channel `c` fails without substitution. An encoder channel clears speed-valid before its STALE is
raised, so that no at-rest test of the event sees a speed it no longer measures. -/
def failPlain (fl : Follow) (c : Nat) (s : State) : State :=
  let s := goneAll fl c cmFaults (markFailed c s)
  let s := { s with cm := { s.cm with subst := s.cm.subst.filter fun e => e.standby != c } }
  let s := if s.ra.encoder = some c then { s with ra := { s.ra with speedValid := false, v := 0, vf := 0 } } else s
  let s := captureFail c none (determineEncoder fl s)
  let s := setRt c { (s.chan c).rt with staleRaised := true } s
  formBand (raiseF fl (classFault c .stale (s.chan c).entry.cls) s)

/-- R34: an ACTIVE channel fails. -/
def failChannel (fl : Follow) (c : Nat) (s : State) : State :=
  match s.standbyFor c with
  | some b =>
    if s.cm.subst.length < Config.substCap then substitute fl c b s else failPlain fl c (setFlag .substFull s)
  | none => failPlain fl c s

/-! ## Bypass (2.8) -/

/-- R41, R54: a bypass ends: BYPASS_ACTIVE is reported gone, BYPASS_END set, and LS forms the demand again. -/
def endBypass (fl : Follow) (c : Nat) (s : State) : State :=
  setFlag .bypassEnd (goneF fl (.channel c) .bypassActive (setChan c { s.chan c with bypass := none } s))

/-! ## Writes of channel entries (2.9) -/

/-- R42, the ranges and the conditions on one entry. The fields that 2.1 marks with a kind are judged for that kind
alone (log entry 9). -/
def chanInRange (b : Nat) (idx : Nat) (e : ChanEntry) : Bool :=
  decide (1 ≤ e.node ∧ e.node ≤ 126 ∧ e.slot ≤ 7 ∧ 1 ≤ e.persistence ∧ e.persistence ≤ 15 ∧ 1 ≤ e.staleTime
      ∧ e.staleTime ≤ 200)
    && (match e.standby with | some k => decide (k ≤ 47 ∧ k ≠ idx) | none => true)
    && match e.kind with
      | .encoder => decide (1 ≤ e.scale ∧ e.scale ≤ 20000 ∧ 1 ≤ e.step ∧ e.step ≤ 32767 ∧ e.shift ≤ 4)
      | .trackMark => decide (1 ≤ e.boundary ∧ e.boundary ≤ b + 2)
      | .tension => decide (e.low + 2 * e.hysteresis ≤ e.high)
      | .ropeOffset => decide (e.low + 2 * e.hysteresis ≤ e.high)
      | .wind => decide (e.low ≤ e.high ∧ e.hysteresis ≤ e.low)
      | .gripForce => decide (e.low ≤ e.high)
      | .cabinId => true
      | .passage => true

/-- R42: another entry that is not UNUSED has the same node and slot. -/
def State.slotTaken (s : State) (idx : Nat) (e : ChanEntry) : Bool :=
  (List.range 48).any fun i =>
    i != idx && (s.chan i).entry.state != .unused && (s.chan i).entry.node == e.node && (s.chan i).entry.slot == e.slot

/-- R42: whether a write would change a field that the substitution list binds. -/
def bindsChange (o e : ChanEntry) : Bool :=
  o.state != e.state || o.node != e.node || o.slot != e.slot || o.kind != e.kind || o.standby != e.standby
    || o.boundary != e.boundary

/-- R42: a channel write judged for validity; RANGE, or STATE for a channel of the substitution list. -/
def validChan (idx : Nat) (bs : List Byte) (s : State) : Except Reason ChanEntry :=
  match ChanEntry.ofBytes bs with
  | none => .error .range
  | some e =>
    let o := (s.chan idx).entry
    if 48 ≤ idx ∨ bs.length ≠ 21 ∨ ¬ chanInRange s.berthCount idx e ∨ (e.state = .failed ∧ o.state ≠ .failed)
        ∨ (e.state ≠ .unused ∧ s.slotTaken idx e) then .error .range
    else if s.cm.subst.any (fun x => x.primary == idx || x.standby == idx) ∧ bindsChange o e then .error .state
    else .ok e

/-- R43: the fields whose change is refused outside STOPPED; boundary, scale, step and shift only where they have a
meaning for the kind. -/
def chanStructural (o e : ChanEntry) : Bool :=
  o.state != e.state || o.node != e.node || o.slot != e.slot || o.kind != e.kind || o.standby != e.standby
    || (e.kind == .trackMark && o.boundary != e.boundary)
    || (e.kind == .encoder && (o.scale != e.scale || o.step != e.step || o.shift != e.shift))

/-- R43: whether a write loosens a field that has a meaning for the kind. -/
def chanLoosens (o e : ChanEntry) : Bool :=
  (match e.kind with
    | .tension => decide (e.low < o.low ∨ o.high < e.high ∨ e.hysteresis < o.hysteresis)
    | .ropeOffset => decide (e.low < o.low ∨ o.high < e.high ∨ e.hysteresis < o.hysteresis)
    | .gripForce => decide (e.low < o.low ∨ o.high < e.high)
    | .wind => decide (o.low < e.low ∨ o.high < e.high ∨ e.hysteresis < o.hysteresis)
    | .encoder => false
    | .trackMark => false
    | .cabinId => false
    | .passage => false)
    || decide (o.persistence < e.persistence ∨ o.staleTime < e.staleTime ∨ e.cls.code < o.cls.code)

/-- R27: the channel's present faults that follow its class are raised again with the class it now has. -/
def raiseAgain (fl : Follow) (c : Nat) (s : State) : State :=
  let cls := (s.chan c).entry.cls
  let s := match (s.chan c).rt.condition with
    | .outLow => raiseF fl (classFault c .outLow cls) s
    | .outHigh => raiseF fl (classFault c .outHigh cls) s
    | .normal => s
    | .stale => s
  if (s.chan c).rt.staleRaised then raiseF fl (classFault c .stale cls) s else s

/-- R45: a stale time made shorter than `old` is tested at once: the channel fails when the interval since its last
accepted time is as long already. The entry is the one that stands after the write's other effects: a deferred profile
entry, applied where one of them stopped the line (log entry 75), may have replaced it. -/
def testStale (fl : Follow) (c old : Nat) (s : State) : State :=
  let e := (s.chan c).entry
  if e.state = .active ∧ e.staleTime < old ∧ e.staleTime * 10 ≤ s.now - (s.chan c).rt.lastAccepted then
    failChannel fl c s
  else s

/-- R44, R45: an accepted channel write takes effect. The order of the effects within the one event is the model's
choice (log entry 63); the capture of the channel ends before the stale test, which may hand it to a standby. -/
def applyChan (fl : Follow) (c : Nat) (e : ChanEntry) (s : State) : State :=
  let o := (s.chan c).entry
  let moved := o.node ≠ e.node ∨ o.slot ≠ e.slot
  let s := setEntry c e s
  let s :=
    if e.state = .active ∧ (o.state ≠ .active ∨ moved ∨ o.kind ≠ e.kind) then staleGone fl c (resetRuntime fl c s)
    else s
  let s :=
    if o.state ≠ e.state ∧ (e.state = .standby ∨ e.state = .unused) then
      let s := staleGone fl c (goneAll fl c cmFaults s)
      setRt c { (s.chan c).rt with condition := .normal } s
    else s
  let s := if o.cls ≠ e.cls then raiseAgain fl c s else s
  let s :=
    if s.bypassed c ∧ (e.state = .unused ∨ e.cls = .trip ∨ e.kind = .encoder) then endBypass fl c s else s
  let s := if moved ∧ s.ra.encoder = some c then { s with ra := { s.ra with baseValid := false } } else s
  let s := if o.state ≠ e.state ∨ o.kind ≠ e.kind ∨ moved then formBand (determineEncoder fl s) else s
  testStale fl c o.staleTime (captureWritten c s)

/-! ## Writes of LINE_PARAMS (2.9, R66) -/

/-- R42, R66: a LINE_PARAMS write judged for validity. -/
def validLine (idx : Nat) (bs : List Byte) : Except Reason LineParams :=
  let p := LineParams.ofBytes bs
  if idx = 0 ∧ bs.length = 46 ∧ p.inRange then .ok p else .error .range

/-- R43: the fields whose change is refused outside STOPPED. -/
def lineStructural (o p : LineParams) : Bool :=
  o.loopLen != p.loopLen || o.uphillSpan != p.uphillSpan || o.downhillSpan != p.downhillSpan
    || o.deskNode != p.deskNode || o.driveNode != p.driveNode || o.conveyorNode != p.conveyorNode
    || o.warnNode != p.warnNode

/-- R43: whether an auto-slow period is longer than another, disabled counted as the loosest. -/
def slowerThan (n m : Option Nat) : Bool :=
  match n, m with
  | none, some _ => true
  | some a, some b => decide (b < a)
  | _, none => false

/-- R43: whether a LINE_PARAMS write loosens a field. -/
def lineLoosens (o p : LineParams) : Bool :=
  decide (o.zeroBand < p.zeroBand ∨ o.startExit < p.startExit ∨ o.runSetpoint < p.runSetpoint
      ∨ o.slowSetpoint < p.slowSetpoint ∨ o.startingLimit < p.startingLimit ∨ o.runningLimit < p.runningLimit
      ∨ o.slowedLimit < p.slowedLimit ∨ o.stoppingLimit < p.stoppingLimit ∨ o.reverseLimit < p.reverseLimit
      ∨ o.tolerance < p.tolerance ∨ o.startTime < p.startTime ∨ o.stopTime < p.stopTime
      ∨ o.bypassDefault < p.bypassDefault ∨ p.minSpacing < o.minSpacing)
    || slowerThan (autoSlowPeriod p.idleSlow) (autoSlowPeriod o.idleSlow)

/-- R17, R91, R148: RA's and CT's positions are reduced mod the new loop length. -/
def reducePositions (s : State) : State :=
  let len := s.params.loopLen
  { s with
    ra := { s.ra with p := s.ra.p % len, q := if s.ra.qValid then s.ra.q % len else s.ra.q }
    ct := { s.ct with
      queue := s.ct.queue.map fun c => { c with entryPos := c.entryPos % len }
      uphill := s.ct.uphill.map fun e => { e with pos := e.pos % len }
      downhill := s.ct.downhill.map fun e => { e with pos := e.pos % len } } }

/-- R57: the start time limit has run out. -/
def startTimeout (fl : Follow) (s : State) : State :=
  raiseF fl { source := .line, code := .startTimeout, cls := .stop, latched := true, present := false } s

/-- R59: the stop time limit has run out. -/
def stopTimeout (fl : Follow) (s : State) : State :=
  raiseF fl { source := .line, code := .stopTimeout, cls := .trip, latched := true, present := false } s

/-- R64: the auto-slow timer reaches its period. -/
def autoSlowOut (fl : Follow) (s : State) : State :=
  raiseF fl { source := .line, code := .autoSlow, cls := .slow, latched := false, present := true }
    { s with ls := { s.ls with autoSlow := none } }

/-- Whether a timer started at `t` has run for `d` ms. -/
def elapsed (t : Option Nat) (d : Nat) (s : State) : Bool :=
  match t with
  | some t0 => decide (d ≤ s.now - t0)
  | none => false

/-- R64: a write changes N. -/
def applyIdleSlow (fl : Follow) (o : LineParams) (s : State) : State :=
  match autoSlowPeriod s.params.idleSlow with
  | none => goneF fl .line .autoSlow { s with ls := { s.ls with autoSlow := none } }
  | some d =>
    if elapsed s.ls.autoSlow d s then autoSlowOut fl s
    else if s.ls.autoSlow.isNone ∧ o.idleSlow = 0 ∧ (s.ls.line = .running ∨ s.ls.line = .slowed) then
      { s with ls := { s.ls with autoSlow := some s.now } }
    else s

/-- R66, R17, R91, R148, R62: LINE_PARAMS takes its new contents: positions are reduced to a new loop length, and a
drive request is issued when a setpoint it carries has changed. -/
def writeParams (p : LineParams) (s : State) : State :=
  let s1 := { s with ls := { s.ls with params := p } }
  let s2 := if s.params.loopLen ≠ p.loopLen then reducePositions s1 else s1
  if (driveContent s2).setpoint ≠ (driveContent s).setpoint then issueDrive s2 else s2

/-- R66, R57, R59, R64, R80, R81, R106: an accepted LINE_PARAMS write takes effect. -/
def applyLine (fl : Follow) (p : LineParams) (s : State) : State :=
  let o := s.params
  let s := writeParams p s
  let s :=
    if o.startTime ≠ p.startTime ∧ elapsed s.ls.startTimer (p.startTime * 1000) s then startTimeout fl s else s
  let s := if o.stopTime ≠ p.stopTime ∧ elapsed s.ls.stopTimer (p.stopTime * 1000) s then stopTimeout fl s else s
  let s := if o.idleSlow ≠ p.idleSlow then applyIdleSlow fl o s else s
  let s := if o.conveyorNode ≠ p.conveyorNode then sendLaunchRel s else s
  let s := if o.loopLen ≠ p.loopLen ∨ o.minSpacing ≠ p.minSpacing then evalRelease s else s
  if o.warnNode ≠ p.warnNode then formWarning s else s

/-! ## Loaded entries and the deferred list (R46, R47, R201) -/

/-- A loaded CHANNEL or LINE_PARAMS entry that its owner finds valid takes effect; an invalid one is skipped. -/
def applyLoaded (fl : Follow) (r : MemRecord) (s : State) : State :=
  if r.tableId.toNat = tableChannel then
    match validChan r.index.toNat r.contents s with
    | .ok e => applyChan fl r.index.toNat e s
    | .error _ => s
  else
    match validLine r.index.toNat r.contents with
    | .ok p => applyLine fl p s
    | .error _ => s

/-- What follows an LS event while the deferred list is being applied: CT evaluates the release on a line state
change (R80). The line cannot enter STOPPED there, since it is in STOPPED already and leaves it only to TRIPPED. -/
def followInner (before after : State) : State :=
  if after.ls.line = before.ls.line then after else evalRelease after

/-- R47: CM applies the deferred list; PROFILE_APPLIED is set when it held an entry (log entry 10). -/
def applyDeferred (s : State) : State :=
  if s.cm.deferred.isEmpty then s
  else
    let s1 := s.cm.deferred.foldl (fun t r => applyLoaded followInner r t) s
    setFlag .profileApplied { s1 with cm := { s1.cm with deferred := [] } }

/-- What follows an LS event: on a line state change, CM applies the deferred list if the line has entered STOPPED
(R47), and CT evaluates the release (R80). Within an event the list is applied here, at the report that stops the line,
before the event's remaining effects (log entry 75). -/
def follow (before after : State) : State :=
  if after.ls.line = before.ls.line then after
  else if after.ls.line = .stopped then evalRelease (applyDeferred after)
  else evalRelease after

/-- A fault is raised, with all that follows. -/
def raise (f : Raise) (s : State) : State := raiseF follow f s

/-- A fault's condition is reported gone, with all that follows. -/
def gone (src : Source) (code : FaultCode) (s : State) : State := goneF follow src code s

end Sys2Proof.Machine
end

