-- ==== Sys2Proof/Machine/Doors.lean ====
section
/-! DEFINITION. DS: the door records' commands, statuses, automatic cycle, gather and faults (chapter 5). -/

namespace Sys2Proof.Machine

/-- The full dwell in ms (R93). -/
def BerthEntry.fullDwell (e : BerthEntry) : Nat := e.dwell * 500

/-- The dwell of a kind in ms (R93, R103). -/
def BerthEntry.dwellOf (e : BerthEntry) : DwellKind → Nat
  | .full => e.dwell * 500
  | .reopen => e.reopenDwell * 500

/-- The motion limit in ms (R93). -/
def BerthEntry.motionTime (e : BerthEntry) : Nat := e.motionLimit * 100

/-- The gather window in ms (R93). -/
def BerthEntry.windowTime (e : BerthEntry) : Nat := e.gatherWindow * 100

/-- The hold limit in ms (R93). -/
def BerthEntry.holdTime (e : BerthEntry) : Nat := e.holdLimit * 1000

/-- Whether a door record has a staff hold. -/
def Door.held (d : Door) : Bool := d.hold != .no

/-! ## Commands (R97, R98) -/

/-- A berth's command no longer waits. -/
def unwait (j : Nat) (s : State) : State :=
  { s with ds := { s.ds with waiting := s.ds.waiting.filter fun w => w != .command j } }

/-- R97, R98: the command of berth `j` is placed in the DOOR queue: the ack timer starts, and the motion timer on the
first placing. -/
def placeCommand (j : Nat) (s : State) : State :=
  let b := s.berth j
  match b.door.command with
  | none => s
  | some (cmd, st) =>
    let again := st = .placedOnce ∨ st = .waitingAgain
    let d := { b.door with
      command := some (cmd, if again then .placedTwice else .placedOnce)
      ackTimer := some (s.now + Config.ackTime)
      motionTimer := if again then b.door.motionTimer else some (s.now + b.entry.motionTime) }
    joinDoor (qframe b.entry.doorNode .doorCmd (enc1 cmd.code)) (setDoor j d s)

/-- R97: the command of berth `j` is offered to the DOOR queue, or waits. It takes a free place even before frames that
already wait for a notice (log entry 71). -/
def offerCommand (j : Nat) (s : State) : State :=
  if s.doorRoom then placeCommand j s
  else { s with ds := { s.ds with waiting := s.ds.waiting ++ [.command j] } }

/-- R97: a command is formed in the door record, replacing an earlier one, with the record's new state. -/
def recordCommand (j : Nat) (cmd : DoorCmd) (st : DoorState) (s : State) : State :=
  unwait j (setDoor j { s.door j with
    state := st, command := some (cmd, .waiting), ackTimer := none, motionTimer := none,
    dwellTimer := .stopped } s)

/-- R97: a command is formed and offered. -/
def formCommand (j : Nat) (cmd : DoorCmd) (st : DoorState) (s : State) : State :=
  offerCommand j (recordCommand j cmd st s)

/-- R97: an OPEN command with the dwell kind that follows it. -/
def formOpen (j : Nat) (st : DoorState) (kind : DwellKind) (s : State) : State :=
  let s := recordCommand j .open st s
  offerCommand j (setDoor j { s.door j with dwellKind := kind } s)

/-- R171, R97: after a notice of a freed place, DS places its longest-waiting frame. A notice whose place has gone to a
newer frame is spent with nothing placed (log entry 71). -/
def placeLongestWaiting (s : State) : State :=
  if s.ds.notices = 0 then s
  else
    let s := { s with ds := { s.ds with notices := s.ds.notices - 1 } }
    if !s.doorRoom then s
    else
      match s.ds.waiting with
      | [] => s
      | w :: ws =>
        let s := { s with ds := { s.ds with waiting := ws } }
        match w with
        | .command j => placeCommand j s
        | .warning dest set => joinDoor (warnFrame dest set) { s with ds := { s.ds with warnLast := set } }

/-! ## The gather (R104) -/

/-- Whether a record is PENDING. -/
def State.gathering (s : State) : Bool := s.berthList.any fun j => (s.door j).state == .pending

/-- R104: when the last record has left, the gather becomes idle and both timers stop. -/
def settleGather (s : State) : State :=
  if s.gathering then s else { s with ds := { s.ds with windowTimer := none, capTimer := none } }

/-- R104: a record becomes PENDING and joins the gather. -/
def becomePending (j : Nat) (s : State) : State :=
  let w := (s.berth j).entry.windowTime
  let cap := if s.gathering then s.ds.capTimer else some (s.now + 4 * w)
  let s := setDoor j { s.door j with state := .pending, dwellTimer := .stopped } s
  { s with ds := { s.ds with windowTimer := some (s.now + w), capTimer := cap } }

/-- A record becomes OPEN with a full dwell started (R95, R102, R110, R113). -/
def openWithDwell (j : Nat) (s : State) : State :=
  settleGather (setDoor j { s.door j with
    state := .open, dwellTimer := .running (s.now + (s.berth j).entry.fullDwell) } s)

/-- R95, R113: doors found open: OPEN with a full dwell when the berth holds a cabin, PENDING when it does not. -/
def foundOpen (j : Nat) (s : State) : State :=
  if (s.door j).cabin.isSome then openWithDwell j s else becomePending j s

/-- R95, R113: doors found in motion: the state is taken with the motion timer started and no command. -/
def foundMoving (j : Nat) (st : DoorState) (s : State) : State :=
  setDoor j { s.door j with state := st, motionTimer := some (s.now + (s.berth j).entry.motionTime) } s

/-! ## Faults (R112) -/

/-- R112: a door record goes to FAULT. -/
def doorFault (j : Nat) (s : State) : State :=
  let d := s.door j
  let s := unwait j (setDoor j { d with
    state := .fault, command := none, ackTimer := none, motionTimer := none, dwellTimer := .stopped,
    holdTimer := none, openDelay := none, heldClose := false, hold := .no, waitingOpen := false,
    deskMark := none } s)
  setFlag .doorFault (raise
    { source := .berth j, code := .doorFault, cls := .stop, latched := true, present := true } (settleGather s))

/-! ## Reaching OPEN and CLOSED (R103, R107) -/

/-- R103, R107: a desk mark whose target is reached is cleared and DOOR_DONE set. -/
def reachMark (j : Nat) (t : DeskTarget) (s : State) : State :=
  if (s.door j).deskMark = some t then setFlag .doorDone (setDoor j { s.door j with deskMark := none } s) else s

/-- R103: a record reaches OPEN. -/
def reachOpen (j : Nat) (s : State) : State :=
  let e := (s.berth j).entry
  let s := reachMark j .open (unwait j (setDoor j { s.door j with
    command := none, ackTimer := none, motionTimer := none } s))
  let d := s.door j
  if d.heldClose then becomePending j (setDoor j { d with heldClose := false, dwellKind := .full } s)
  else if d.held then
    setDoor j { d with
      state := .open, hold := .yes (e.dwellOf d.dwellKind), dwellTimer := .suspended, dwellKind := .full } s
  else
    setDoor j { d with
      state := .open, dwellTimer := .running (s.now + e.dwellOf d.dwellKind), dwellKind := .full } s

/-- R107: the notice locked, when the berth holds a cabin for which no open is pending. -/
def sendLocked (j : Nat) (s : State) : State :=
  let d := s.door j
  if d.cabin.isSome && d.openDelay.isNone && !d.waitingOpen then noticeLocked j true s else s

/-- The notice opened, when the berth holds a cabin (R108, R111, R113). -/
def sendOpened (j : Nat) (s : State) : State :=
  if (s.door j).cabin.isSome then noticeLocked j false s else s

/-- R107: a CLOSING record reaches CLOSED on LOCKED. -/
def reachClosed (j : Nat) (s : State) : State :=
  let s := unwait j (setDoor j { s.door j with
    state := .closed, command := none, ackTimer := none, motionTimer := none, retryCount := 0 } s)
  sendLocked j (reachMark j .closed s)

/-- R108: an obstruction. -/
def obstruction (j : Nat) (s : State) : State :=
  let b := s.berth j
  let s := setDoor j { b.door with retryCount := b.door.retryCount + 1, ackTimer := none } s
  if b.entry.retries < b.door.retryCount + 1 then doorFault j s
  else sendOpened j (formOpen j .reopening .reopen s)

/-! ## The automatic cycle (R101, R102) -/

/-- R101, R102: the line states of the automatic cycle. -/
def State.cycling (s : State) : Bool :=
  decide (s.ls.line = .starting ∨ s.ls.line = .running ∨ s.ls.line = .slowed ∨ s.ls.line = .stopping)

/-- R102: DS opens the door for the cabin in the berth, by the record's state. -/
def openForCabin (j : Nat) (s : State) : State :=
  let d := s.door j
  let full := (s.berth j).entry.fullDwell
  match d.state with
  | .closed => noticeLocked j false (formOpen j .opening .full s)
  | .closing => noticeLocked j false (formOpen j .opening .full s)
  | .opening => noticeLocked j false (setDoor j { d with heldClose := false } s)
  | .reopening => noticeLocked j false (setDoor j { d with heldClose := false } s)
  | .open =>
    let d := if d.held then { d with hold := .yes full } else { d with dwellTimer := .running (s.now + full) }
    noticeLocked j false (setDoor j d s)
  | .pending => noticeLocked j false (openWithDwell j s)
  | .fault => setDoor j { d with waitingOpen := true } s

/-- R102, R106: the open delay of berth `j` runs out; a CLOSING record leaves the warning set. -/
def openDelayOut (j : Nat) (s : State) : State :=
  updateWarning s.closingSet (openForCabin j (setDoor j { s.door j with openDelay := none } s))

/-- R101: CT tells DS that a record with this id has entered berth `j`. -/
def berthEntered (j : Nat) (id : Nat) (s : State) : State :=
  let b := s.berth j
  let d := { b.door with cabin := some id }
  if b.entry.mode = .openMode ∧ b.entry.doorNode ≠ 0 ∧ s.cycling then
    if b.entry.openDelay = 0 then openDelayOut j (setDoor j d s)
    else setDoor j { d with openDelay := some (s.now + b.entry.openDelay * 100) } s
  else setDoor j d s

/-- R101: CT tells DS that berth `j` is vacated. -/
def berthVacated (j : Nat) (s : State) : State :=
  setDoor j { s.door j with cabin := none, openDelay := none, waitingOpen := false } s

/-! ## Statuses (R95, R96, R99) -/

/-- R95: the first status of a record still CLOSED with no command. No notice is sent to CT, whatever the berth holds
(log entry 67). -/
def firstStatus (j : Nat) (st : DoorStatus) (s : State) : State :=
  match st with
  | .locked => s
  | .open => foundOpen j s
  | .opening => foundMoving j .opening s
  | .closing => foundMoving j .closing s
  | .obstructed => formOpen j .opening .full s
  | .failed => doorFault j s

/-- R96: a status that reflects the command stops the ack timer. -/
def reflected (j : Nat) (s : State) : State := setDoor j { s.door j with ackTimer := none } s

/-- R96: a status judged by the record's state. -/
def judgeStatus (j : Nat) (st : DoorStatus) (s : State) : State :=
  match (s.door j).state, st with
  | .fault, _ => s
  | _, .failed => doorFault j s
  | .closed, .locked => s
  | .closed, _ => doorFault j s
  | .open, .open => s
  | .open, _ => doorFault j s
  | .pending, .open => s
  | .pending, _ => doorFault j s
  | .opening, .opening => reflected j s
  | .opening, .open => reachOpen j s
  | .opening, _ => s
  | .reopening, .opening => reflected j s
  | .reopening, .open => reachOpen j s
  | .reopening, _ => s
  | .closing, .closing => reflected j s
  | .closing, .locked => reachClosed j s
  | .closing, .obstructed => obstruction j s
  | .closing, _ => s

/-- R99: a motion status. -/
def DoorStatus.moving : DoorStatus → Bool
  | .opening => true | .closing => true | .locked => false | .open => false | .obstructed => false | .failed => false

/-- R99: the toggle check of a status with the one before it. -/
def toggleCheck (j : Nat) (prev : Option (DoorStatus × Bool)) (st : DoorStatus) (tog : Bool) (s : State) : State :=
  let d := s.door j
  if d.state = .fault then s
  else
    let n := match prev with
      | some (pst, ptog) => if st.moving ∧ pst.moving ∧ ptog = tog then d.stallCount + 1 else 0
      | none => 0
    let s := setDoor j { d with stallCount := n } s
    if 3 ≤ n then doorFault j s else s

/-- R95, R96, R99: DS takes a drive's status for berth `j`. -/
def takeStatus (j : Nat) (st : DoorStatus) (tog : Bool) (s : State) : State :=
  let d := s.door j
  let s1 := setDoor j { d with awaiting := false, lastStatus := some (st, tog) } s
  let s2 :=
    if d.awaiting ∧ d.state = .closed ∧ d.command = none then firstStatus j st s1 else judgeStatus j st s1
  updateWarning s.closingSet (toggleCheck j d.lastStatus st tog s2)

/-- R96, R209: a DOOR_STAT frame's source is matched against the berths' door nodes. -/
def doorStatus (src : Byte) (payload : List Byte) (s : State) : State :=
  match parseDoorStat payload, s.berthList.find? (fun j => (s.berth j).entry.doorNode == src.toNat) with
  | some (st, tog), some j => takeStatus j st tog s
  | _, _ => s

/-! ## Timers -/

/-- R104: a dwell runs out. -/
def dwellOut (j : Nat) (s : State) : State :=
  match (s.door j).dwellTimer with
  | .running t => becomePending j (reach t s)
  | .stopped => s
  | .suspended => s

/-- R105: the gather closes: every PENDING record is commanded to close, the warning offered first. -/
def closeGather (s : State) : State :=
  let js := s.berthList.filter fun j => (s.door j).state == .pending
  let s1 := js.foldl (fun t j => recordCommand j .close .closing t) s
  let s2 := updateWarning s.closingSet { s1 with ds := { s1.ds with windowTimer := none, capTimer := none } }
  js.foldl (fun t j => offerCommand j t) s2

/-- R98: the ack timer of berth `j` runs out. -/
def ackOut (j : Nat) (s : State) : State :=
  match (s.door j).ackTimer with
  | none => s
  | some t =>
    let s1 := setDoor j { s.door j with ackTimer := none } (reach t s)
    match (s1.door j).command with
    | some (cmd, .placedOnce) =>
      if s1.doorRoom then placeCommand j s1
      else
        let s2 := setDoor j { s1.door j with command := some (cmd, .waitingAgain) } s1
        { s2 with ds := { s2.ds with waiting := s2.ds.waiting ++ [.command j] } }
    | _ => updateWarning s1.closingSet (doorFault j s1)

/-- R100: the motion timer of berth `j` runs out. -/
def motionOut (j : Nat) (s : State) : State :=
  match (s.door j).motionTimer with
  | none => s
  | some t => updateWarning s.closingSet (doorFault j (reach t s))

/-! ## Desk requests (R109 to R113) -/

/-- R111: a staff hold is released; none when there is nothing to release. -/
def release (j : Nat) (s : State) : Option State :=
  let d := s.door j
  let d0 := { d with hold := .no, holdTimer := none }
  match d.state, d.hold with
  | .opening, .beforeOpen => some (setDoor j d0 s)
  | .opening, .yes _ => some (setDoor j d0 s)
  | .reopening, .beforeOpen => some (setDoor j d0 s)
  | .reopening, .yes _ => some (setDoor j d0 s)
  | .open, .yes 0 => some (becomePending j (setDoor j { d0 with deskMark := some .closed } s))
  | .open, .yes n => some (setDoor j { d0 with dwellTimer := .running (s.now + n) } s)
  | _, _ => none

/-- R111: the hold timer of berth `j` runs out: DS acts as on an accepted RELEASE. -/
def holdOut (j : Nat) (s : State) : State :=
  match (s.door j).holdTimer with
  | none => s
  | some t => let s := reach t s; (release j s).getD s

/-- A door request's outcome: the new state when accepted, or the refusal. -/
abbrev DoorResult := Except Reason State

/-- R109: the checks of every DOOR request. -/
def doorChecks (j : Nat) (s : State) : Option Reason :=
  if !s.isBerth j then some .range
  else if (s.berth j).entry.doorNode = 0 then some .state
  else if (s.door j).state = .fault then some .state
  else none

/-- R109: an accepted request that starts a motion sets the desk mark. -/
def markDesk (j : Nat) (t : DeskTarget) (s : State) : State := setDoor j { s.door j with deskMark := some t } s

/-- R110: an OPEN that forms a command, for the cabin in the berth. -/
def deskOpen (j : Nat) (s : State) : State :=
  let s := setDoor j { s.door j with openDelay := none, waitingOpen := false } s
  noticeLocked j false (markDesk j .open (formOpen j .opening .full s))

/-- R110: a desk OPEN. -/
def requestOpen (j : Nat) (s : State) : DoorResult :=
  match doorChecks j s with
  | some r => .error r
  | none =>
    let d := s.door j
    let full := (s.berth j).entry.fullDwell
    if d.cabin.isNone then .error .state
    else
      match d.state with
      | .closed => .ok (deskOpen j s)
      | .closing => .ok (updateWarning s.closingSet (deskOpen j s))
      | .opening => .ok (markDesk j .open (setDoor j { d with heldClose := false } s))
      | .reopening => .ok (markDesk j .open (setDoor j { d with heldClose := false } s))
      | .open =>
        .ok (setDoor j
          (if d.held then { d with hold := .yes full } else { d with dwellTimer := .running (s.now + full) }) s)
      | .pending => .ok (openWithDwell j s)
      | .fault => .error .state

/-- R110: a desk CLOSE. -/
def requestClose (j : Nat) (s : State) : DoorResult :=
  match doorChecks j s with
  | some r => .error r
  | none =>
    let d := { s.door j with hold := .no, holdTimer := none }
    match d.state with
    | .closed => .ok s
    | .opening => .ok (markDesk j .closed (setDoor j { d with heldClose := true } s))
    | .reopening => .ok (markDesk j .closed (setDoor j { d with heldClose := true } s))
    | .open => .ok (markDesk j .closed (becomePending j (setDoor j d s)))
    | .pending => .ok s
    | .closing => .ok s
    | .fault => .error .state

/-- R111: a desk HOLD. In OPENING and REOPENING it forms no command, and the desk mark is left as it was (log
entry 69). -/
def requestHold (j : Nat) (s : State) : DoorResult :=
  match doorChecks j s with
  | some r => .error r
  | none =>
    let d := { s.door j with holdTimer := some (s.now + (s.berth j).entry.holdTime) }
    match d.state with
    | .closed => .error .state
    | .opening => .ok (setDoor j { d with hold := .beforeOpen, heldClose := false } s)
    | .reopening => .ok (setDoor j { d with hold := .beforeOpen, heldClose := false } s)
    | .open =>
      let d := match d.dwellTimer with
        | .running t => { d with hold := .yes (t - s.now), dwellTimer := .suspended }
        | .suspended => d
        | .stopped => { d with hold := .yes 0, dwellTimer := .suspended }
      .ok (setDoor j d s)
    | .pending =>
      .ok (settleGather (setDoor j { d with state := .open, hold := .yes 0, dwellTimer := .suspended } s))
    | .closing =>
      let s1 := setDoor j { d with hold := .beforeOpen } s
      .ok (updateWarning s.closingSet (sendOpened j (markDesk j .open (formOpen j .opening .full s1))))
    | .fault => .error .state

/-- R111: a desk RELEASE. -/
def requestRelease (j : Nat) (s : State) : DoorResult :=
  match doorChecks j s with
  | some r => .error r
  | none =>
    match release j s with
    | some s => .ok s
    | none => .error .state

/-- R113: DOOR_RESET takes a record out of FAULT by its last status; a waiting open is then made (R102). -/
def requestDoorReset (j : Nat) (s : State) : DoorResult :=
  if !s.isBerth j then .error .range
  else
    let d := s.door j
    match d.state, d.lastStatus with
    | .fault, some (st, _) =>
      if st = .failed then .error .state
      else
        let s1 := gone (.berth j) .doorFault (setDoor j { d with retryCount := 0, stallCount := 0 } s)
        let s2 := match st with
          | .locked => sendLocked j (setDoor j { s1.door j with state := .closed } s1)
          | .open => foundOpen j s1
          | .opening => foundMoving j .opening s1
          | .closing => foundMoving j .closing s1
          | .obstructed => sendOpened j (formOpen j .opening .full s1)
          | .failed => s1
        let s3 :=
          if (s2.door j).waitingOpen ∧ (s2.door j).cabin.isSome ∧ s2.cycling then
            openForCabin j (setDoor j { s2.door j with waitingOpen := false } s2)
          else s2
        .ok (updateWarning s.closingSet s3)
    | _, _ => .error .state

/-! ## Writes of berth entries (R94) -/

/-- R94: a berth write judged; `loader` for a write of the start-up load, accepted in any line state. -/
def validBerth (loader : Bool) (j : Nat) (bs : List Byte) (s : State) : Except Reason BerthEntry :=
  match BerthEntry.ofBytes bs with
  | none => .error .range
  | some e =>
    let o := (s.berth j).entry
    let st := (s.door j).state
    if !s.isBerth j ∨ bs.length ≠ 10 ∨ !e.inRange
        ∨ (e.doorNode ≠ 0 ∧ s.berthList.any (fun i => i != j && (s.berth i).entry.doorNode == e.doorNode)) then
      .error .range
    else if (o.mode ≠ e.mode ∨ o.doorNode ≠ e.doorNode)
        ∧ ((loader = false ∧ s.ls.line ≠ .stopped) ∨ ¬ (st = .closed ∨ st = .fault)) then .error .state
    else .ok e

/-- R94: an accepted berth write takes effect. -/
def applyBerth (j : Nat) (e : BerthEntry) (s : State) : State :=
  let b := s.berth j
  let o := b.entry
  let d := b.door
  let d := if o.mode = .openMode ∧ e.mode = .passMode then { d with openDelay := none, waitingOpen := false } else d
  if o.doorNode ≠ e.doorNode then
    let d := { d with
      state := .closed, awaiting := true, retryCount := 0, stallCount := 0, heldClose := false, hold := .no,
      holdTimer := none, deskMark := none, lastStatus := none }
    gone (.berth j) .doorFault (setBerth j { entry := e, door := d } s)
  else setBerth j { entry := e, door := d } s

end Sys2Proof.Machine
end

