-- ==== Sys2Proof/Machine/Track.lean ====
section
/-! DEFINITION. CT: cabin entry, zone moves, grip tests, launches, desk cabin requests, fleet writes and the summit's
cabin notices (chapter 4, 7.6). In each event CT's collections change together first; the faults and notices follow. -/

namespace Sys2Proof.Machine

/-! ## Records -/

/-- The list with `f` applied to its first element that meets `p`. -/
def modifyFirst {α : Type} (p : α → Bool) (f : α → α) : List α → List α
  | [] => []
  | a :: as => if p a then f a :: as else a :: modifyFirst p f as

/-- The new record of R73 and R86. -/
def newCabin (id : Nat) (identity : Identity) (order : Bool) (s : State) : Cabin :=
  { id := id, identity := identity, zone := 0, entryPos := s.ra.p, grip := .none, force := none, locked := true,
    orderMark := order }

/-- R79: GRIP_FAIL of an id is present while a record with that id has grip FAIL; it is reported gone when the last
one has ceased to. -/
def gripGone (id : Nat) (s : State) : State :=
  if s.ct.queue.any (fun c => c.id == id && c.grip == .fail) then s else gone (.cabin id) .gripFail s

/-- R74, R84: the faults CT held for a record that has left the queue are reported gone. -/
def recordGone (c : Cabin) (s : State) : State :=
  let s1 := if c.grip = .fail then gripGone c.id s else s
  if s1.ct.backlogWaiting = some c.id then follow s1 (letGoWaiting s1) else s1

/-- R76: the exit check on berth `j`. -/
def exitCheck (j : Nat) (s : State) : State :=
  if (s.door j).state = .closed then s else raise (eventFault (.berth j) .doorNotLocked) s

/-- R74, R146: an older record has left the queue: its faults, the exit check, the notice to DS. -/
def olderLeft (c : Cabin) (s : State) : State :=
  let s1 := recordGone c s
  if s1.isBerth c.zone then berthVacated c.zone (exitCheck c.zone s1) else s1

/-- As `olderLeft`, for the record found, if any. -/
def olderLeft? (o : Option Cabin) (s : State) : State :=
  match o with
  | some c => olderLeft c s
  | none => s

/-- A distance outside span − tolerance..span + tolerance (R74, R144). -/
def outsideWindow (span tol d : Nat) : Bool := decide (d + tol < span ∨ span + tol < d)

/-! ## Cabin entry (R73, R74) -/

/-- R73: an unidentified cabin joins the queue. -/
def anonymousMove (s : State) : State := setQueue (s.ct.queue ++ [newCabin 0 .anonymous false s]) s

/-- R73: whether a record is an older FOREIGN one with id `x`. -/
def foreignOf (x : Nat) (c : Cabin) : Bool := c.identity == .foreign && c.id == x

/-- R73: a FOREIGN record joins the queue in place of an older one of its id. -/
def foreignMove (x : Nat) (s : State) : State :=
  setQueue (s.ct.queue.eraseP (foreignOf x) ++ [newCabin x .foreign false s]) s

/-- R74: the record of a registered cabin joins the queue, and its location becomes TERMINAL. -/
def joinTerminal (x : Nat) (order : Bool) (s : State) : State :=
  setLocation x .terminal (setQueue (s.ct.queue ++ [newCabin x .registered order s]) s)

/-- R74: x is the oldest entry of the downhill list. -/
def oldestMove (x : Nat) (s : State) : State :=
  joinTerminal x false { s with ct := { s.ct with downhill := s.ct.downhill.drop 1 } }

/-- R74: x is another entry of the downhill list. -/
def outOfOrderMove (x : Nat) (s : State) : State :=
  joinTerminal x true { s with ct := { s.ct with downhill := s.ct.downhill.filter fun e => e.id != x } }

/-- R74: x is not in the downhill list; it leaves the collection that held it. -/
def unknownMove (x : Nat) (s : State) : State :=
  joinTerminal x false { s with ct := { s.ct with
    queue := s.ct.queue.eraseP fun c => c.id == x, uphill := s.ct.uphill.filter fun e => e.id != x } }

/-- R73: a record that no list accounts for. -/
def enterUnregistered (x : Nat) (s : State) : State :=
  if x = 0 then setFlag .cabinEntry (anonymousMove s)
  else
    let s1 := raise (eventFault (.cabin x) .unknownCabin) (setFlag .cabinEntry (foreignMove x s))
    evalRelease (olderLeft? (s.ct.queue.find? (foreignOf x)) s1)

/-- R74: x is the oldest entry of the downhill list. -/
def enterOldest (x : Nat) (e : DownEntry) (s : State) : State :=
  let s1 := setFlag .cabinEntry (oldestMove x s)
  if outsideWindow s.params.downhillSpan s.params.tolerance (s.forwardDist e.pos) then
    raise (eventFault (.cabin x) .arrivalPosition) s1
  else s1

/-- R74: x is another entry of the downhill list. -/
def enterOutOfOrder (x : Nat) (s : State) : State :=
  raise (eventFault (.cabin x) .order) (setFlag .cabinOrder (setFlag .cabinEntry (outOfOrderMove x s)))

/-- R74: x is not in the downhill list. -/
def enterUnknown (x : Nat) (s : State) : State :=
  let s1 := raise (eventFault (.cabin x) .unknownCabin) (setFlag .cabinEntry (unknownMove x s))
  evalRelease (olderLeft? (s.ct.queue.find? fun c => c.id == x) s1)

/-- R73, R74: a cabin identity event. -/
def cabinIdEvent (x : Nat) (s : State) : State :=
  if Config.queueCap ≤ s.ct.queue.length then raise (eventFault (.cabin x) .trackFull) s
  else if !s.registered x then enterUnregistered x s
  else
    match s.ct.downhill with
    | e :: rest =>
      if e.id = x then enterOldest x e s
      else if rest.any (fun f => f.id == x) then enterOutOfOrder x s
      else enterUnknown x s
    | [] => enterUnknown x s

/-! ## Zone moves and the grip test (R75, R76, R78) -/

/-- R75: zone `k` has room for a record. -/
def zoneRoom (k : Nat) (s : State) : Bool :=
  let n := (s.ct.queue.filter fun c => c.zone == k).length
  if k = s.launchZone then decide (n < 2) else decide (n < 1)

/-- R75, R76: the oldest record of zone k − 1 stands in zone `k`, its doors no longer locked when `bad`. -/
def zoneShift (k : Nat) (bad : Bool) (s : State) : State :=
  setQueue (modifyFirst (fun r => r.zone == k - 1)
    (fun r => { r with zone := k, locked := r.locked && !bad }) s.ct.queue) s

/-- R75, R76: the move of record `c` into zone `k`: the exit check, the notices to DS, the release. -/
def moveInto (k : Nat) (c : Cabin) (s : State) : State :=
  let left := k - 1
  let s1 := zoneShift k (s.isBerth left && (s.door left).state != .closed) s
  let s2 := if s.isBerth left then berthVacated left (exitCheck left s1) else s1
  if k = s.launchZone then evalRelease s2 else berthEntered k c.id s2

/-- R75: a passage event for boundary `k`, 1..B+1. -/
def zoneMove (k : Nat) (s : State) : State :=
  match s.ct.queue.find? (fun c => c.zone == k - 1) with
  | none => raise (eventFault (.cabin 0) .phantom) s
  | some c => if zoneRoom k s then moveInto k c s else raise (eventFault (.cabin c.id) .phantom) s

/-- GRIP_FAIL of an id (R78). -/
def gripFault (id : Nat) : Raise :=
  { source := .cabin id, code := .gripFail, cls := .stop, latched := true, present := true }

/-- R78: whether a record is one that LAUNCH holds untested. -/
def State.untested (s : State) (c : Cabin) : Bool := c.zone == s.launchZone && c.grip == .none

/-- R78: the oldest untested record takes the verdict and the force. -/
def gripMark (force : Word16) (ok : Bool) (s : State) : State :=
  setQueue (modifyFirst s.untested (fun r => { r with grip := if ok then .pass else .fail, force := some force })
    s.ct.queue) s

/-- R78: a grip test event. -/
def gripTest (force : Word16) (ok : Bool) (s : State) : State :=
  match s.ct.queue.find? s.untested with
  | none => evalRelease (raise (eventFault (.cabin 0) .phantom) s)
  | some c => evalRelease (if ok then gripMark force ok s else raise (gripFault c.id) (gripMark force ok s))

/-! ## The launch (R83, R84) -/

/-- R83: the release left GO for this id less than 300 ms ago. -/
def State.settling (s : State) (id : Nat) : Bool :=
  match s.ct.lastGo with
  | some g => decide (g.id = id ∧ s.now - g.leftAt < Config.settleTime)
  | none => false

/-- R83: the fault of a launch, judged against the release record. A record that is not REGISTERED is always a
violation, even where last GO names its id (log entry 64). -/
def launchFault (c : Cabin) (s : State) : Option Raise :=
  if c.identity = .registered ∧ s.ct.release = .go ∧ s.ct.releaseCabin = c.id then none
  else if c.identity = .registered ∧ s.ct.release = .hold ∧ s.settling c.id = true then
    some { source := .cabin c.id, code := .lateHold, cls := .note, latched := true, present := false }
  else some { source := .cabin c.id, code := .launchViolation, cls := .trip, latched := true, present := false }

/-- R84, steps 1 to 4: the record leaves the queue; Q, the launch count, the uphill list and the location follow. -/
def launchMove (c : Cabin) (s : State) : State :=
  let n := s.ct.launchCount + 1
  let s1 := { s with
    ra := { s.ra with q := s.ra.p, qValid := true }
    ct := { s.ct with queue := s.ct.queue.eraseP fun r => r.zone == s.launchZone, launchCount := n } }
  if c.identity ≠ .registered then s1
  else if s1.ct.uphill.length < Config.listCap then
    setLocation c.id .uphill { s1 with ct := { s1.ct with
      uphill := s1.ct.uphill ++ [{ id := c.id, pos := s.ra.p, order := n, overdue := false }] } }
  else setLocation c.id .unplaced s1

/-- R84, step 5: the notice to the summit, or LINK_BACKLOG as a launched source. -/
def launchNotice (c : Cabin) (s : State) : State :=
  if c.identity ≠ .registered then s
  else
    let (taken, s1) := txOffer { type := msgCabinLaunched, payload := enc2 c.id } s
    if taken then s1
    else
      raise (backlogFault c.id) { s1 with ct := { s1.ct with
        backlogLaunched :=
          if s1.ct.backlogLaunched.contains c.id then s1.ct.backlogLaunched else s1.ct.backlogLaunched ++ [c.id] } }

/-- R83: the fault of a launch is raised. -/
def judgeLaunch (c : Cabin) (s : State) : State :=
  match launchFault c s with
  | some f => raise f s
  | none => s

/-- R83, R84: a passage event for boundary B+2. -/
def launch (s : State) : State :=
  match s.launchHead with
  | none => raise (eventFault (.cabin 0) .phantom) s
  | some c =>
    evalRelease (setFlag .cabinLaunch (launchNotice c (recordGone c (launchMove c (judgeLaunch c s)))))

/-- 4.1: a passage event for a boundary 1..B+2. -/
def passageEvent (k : Nat) (s : State) : State := if k = s.berthCount + 2 then launch s else zoneMove k s

/-! ## Desk cabin requests (4.7) -/

/-- A request judged by a block: the new state, or the reason of its refusal. -/
abbrev Judged := Except Reason State

/-- R85, R86 to R90: an id that is 0, above 999, or not registered. -/
def badId (id : Nat) (s : State) : Bool := decide (id = 0 ∨ 999 < id) || !s.registered id

/-- R86. -/
def requestInsert (id : Nat) (s : State) : Judged :=
  if badId id s then .error .range
  else if ¬ (s.ls.line = .stopped ∨ s.ls.line = .slowed) then .error .state
  else if ¬ (s.location id = some .garage ∨ s.location id = some .unplaced)
      ∨ Config.queueCap ≤ s.ct.queue.length then .error .state
  else .ok (evalRelease (setFlag .cabinEntry (joinTerminal id false s)))

/-- R87: whether a record is the kind that WITHDRAW(id) names. -/
def withdrawNames (id : Nat) (s : State) (c : Cabin) : Bool :=
  if id = 0 then c.identity == .anonymous
  else if s.registered id then c.id == id
  else c.identity == .foreign && c.id == id

/-- R87: the named record leaves the queue; a registered cabin goes to the garage. -/
def withdrawMove (id : Nat) (c : Cabin) (s : State) : State :=
  let s1 := setQueue (s.ct.queue.eraseP (withdrawNames id s)) s
  if c.identity = .registered then setLocation c.id .garage s1 else s1

/-- R87. -/
def requestWithdraw (id : Nat) (s : State) : Judged :=
  if 999 < id then .error .range
  else
    match s.ct.queue.find? (withdrawNames id s) with
    | none => if s.registered id then .error .state else .error .range
    | some c =>
      if ¬ (s.ls.line = .stopped ∨ s.ls.line = .slowed) then .error .state
      else if s.isBerth c.zone ∧ (s.door c.zone).state ≠ .closed then .error .state
      else
        let s1 := recordGone c (withdrawMove id c s)
        .ok (evalRelease (if s1.isBerth c.zone then berthVacated c.zone s1 else s1))

/-- R88: whether a record is ANONYMOUS. -/
def isAnonymous (c : Cabin) : Bool := c.identity == .anonymous

/-- R88: the oldest ANONYMOUS record takes the id, which leaves the downhill list. A door record keeps its cabin id (log
entry 68). -/
def assignMove (id : Nat) (s : State) : State :=
  setLocation id .terminal { s with ct := { s.ct with
    queue := modifyFirst isAnonymous (fun r => { r with id := id, identity := .registered }) s.ct.queue
    downhill := s.ct.downhill.filter fun e => e.id != id } }

/-- R88. -/
def requestAssign (id : Nat) (s : State) : Judged :=
  if badId id s then .error .range
  else
    match s.ct.queue.find? isAnonymous with
    | none => .error .state
    | some c =>
      if ¬ (s.location id = some .unplaced ∨ s.location id = some .downhill) then .error .state
      else
        let s1 := assignMove id s
        .ok (evalRelease (if c.grip = .fail then raise (gripFault id) (gripGone 0 s1) else s1))

/-- R90: the grip of the named record becomes NONE. -/
def retestMark (id : Nat) (s : State) : State :=
  setQueue (modifyFirst (fun c => c.id == id) (fun r => { r with grip := .none, force := none }) s.ct.queue) s

/-- R90. -/
def requestRetest (id : Nat) (s : State) : Judged :=
  if id = 0 ∨ 999 < id then .error .range
  else
    match s.ct.queue.find? (fun c => c.id == id) with
    | none => .error .range
    | some c =>
      if c.zone ≠ s.launchZone ∨ c.grip ≠ .fail then .error .state
      else .ok (evalRelease (gripGone id (retestMark id s)))

/-- R89: the position an offset gives, (P − offset) mod L. -/
def offsetPos (offset : Nat) (s : State) : Nat :=
  (((s.ra.p : Int) - (offset : Int)) % (s.params.loopLen : Int)).toNat

/-- R89: a cabin is placed at a location. -/
def placeMove (id : Nat) (loc : Location) (offset : Nat) (s : State) : State :=
  let n := s.ct.launchCount + 1
  setLocation id loc <| match loc with
    | .uphill =>
      { s with ct := { s.ct with
          uphill := s.ct.uphill ++ [{ id := id, pos := offsetPos offset s, order := n, overdue := false }]
          launchCount := n } }
    | .downhill =>
      { s with ct := { s.ct with
          downhill := s.ct.downhill ++ [{ id := id, pos := offsetPos offset s, overdue := false }] } }
    | .garage => s
    | .summit => s
    | .unplaced => s
    | .terminal => s

/-- R89: the list of a location holds 64 entries. -/
def listFull (loc : Location) (s : State) : Bool :=
  match loc with
  | .uphill => decide (Config.listCap ≤ s.ct.uphill.length)
  | .downhill => decide (Config.listCap ≤ s.ct.downhill.length)
  | .garage => false
  | .summit => false
  | .unplaced => false
  | .terminal => false

/-- R89. -/
def requestPlace (id : Nat) (loc : Location) (offset : Nat) (s : State) : Judged :=
  if badId id s ∨ loc = .terminal ∨ loc = .unplaced ∨ s.params.loopLen ≤ offset then .error .range
  else if s.ls.line ≠ .stopped ∨ s.location id ≠ some .unplaced ∨ listFull loc s then .error .state
  else .ok (evalRelease (placeMove id loc offset s))

/-! ## Fleet writes (R70) -/

/-- A fleet slot replaced. -/
def setSlot (slot : Nat) (c : Option FleetCabin) (s : State) : State :=
  { s with ct := { s.ct with fleet := s.ct.fleet.setIfInBounds slot c } }

/-- R70: a write of `id` to a slot, from the desk or from the loader. -/
def fleetWrite (loader : Bool) (slot id : Nat) (s : State) : Judged :=
  if 160 ≤ slot ∨ 999 < id then .error .range
  else
    match (s.ct.fleet[slot]?.getD none) with
    | none =>
      if id = 0 then .ok s
      else if s.registered id ∨ s.ct.queue.any (fun c => c.id == id) then .error .state
      else .ok (setSlot slot (some { id := id, location := if loader then .unplaced else .garage }) s)
    | some x =>
      if id = x.id then .ok s
      else if id = 0 ∧ (x.location = .garage ∨ x.location = .unplaced) then .ok (setSlot slot none s)
      else .error .state

/-! ## The summit's cabin notices (R142, R145, R146) -/

/-- ORDER as R145 raises it, with the CABIN_ORDER flag of R144. -/
def arrivalOrder (x : Nat) (s : State) : State := raise (eventFault (.cabin x) .order) (setFlag .cabinOrder s)

/-- R145: the arrived cabin leaves the uphill list for SUMMIT. -/
def arriveMove (x : Nat) (s : State) : State :=
  setLocation x .summit { s with ct := { s.ct with uphill := s.ct.uphill.eraseP fun f => f.id == x } }

/-- R145: a CABIN_ARRIVED with a cabin id. -/
def cabinArrived (x : Nat) (s : State) : State :=
  match s.ct.uphill.find? (fun e => e.id == x) with
  | none => raise (eventFault (.cabin x) .unknownArrival) s
  | some e =>
    let s1 := arriveMove x s
    let s2 := if s.ct.uphill.head?.map (·.id) = some x then s1 else arrivalOrder x s1
    let s3 :=
      if outsideWindow s.params.uphillSpan s.params.tolerance (s.forwardDist e.pos) then
        raise (eventFault (.cabin x) .arrivalPosition) s2
      else s2
    evalRelease s3

/-- R142: a CABIN_LAUNCHED that must be refused for want of room. -/
def downhillRefuses (x : Nat) (s : State) : Bool :=
  s.registered x && !s.ct.downhill.any (fun e => e.id == x) && decide (Config.listCap ≤ s.ct.downhill.length)

/-- R146: the cabin leaves the collection that held it and joins the tail of the downhill list. -/
def summitMove (x : Nat) (s : State) : State :=
  setLocation x .downhill { s with ct := { s.ct with
    queue := s.ct.queue.eraseP fun c => c.id == x
    uphill := s.ct.uphill.filter fun e => e.id != x
    downhill := (s.ct.downhill.filter fun e => e.id != x) ++ [{ id := x, pos := s.ra.p, overdue := false }] } }

/-- R146: a CABIN_LAUNCHED with a cabin id, when it is not refused. -/
def cabinLaunched (x : Nat) (s : State) : State :=
  match s.location x with
  | none => raise (eventFault (.cabin x) .unknownCabin) s
  | some loc =>
    if loc = .summit then summitMove x s
    else
      evalRelease (olderLeft? (s.ct.queue.find? fun c => c.id == x)
        (raise (eventFault (.cabin x) .unknownCabin) (summitMove x s)))

end Sys2Proof.Machine
end

