-- ==== Sys2Proof/Machine/Calls.lean ====
section
/-! DEFINITION. CS: the call record, the waiting list, signalling and its backlog, the phones' frames, voice relay and
writes of phone entries (chapter 8). -/

namespace Sys2Proof.Machine

/-! ## Frames to the phones (R151, R209) -/

/-- A CALL frame to phone `h`; a phone with node 0 is no node, so none is formed. -/
def sendCall (h : Nat) (payload : List Byte) (s : State) : State :=
  if (s.phoneEntry h).node = 0 then s else offerVoice (qframe (s.phoneEntry h).node .call payload) s

/-- R151, R209: CALL_STATE to phone `h`. -/
def sendStanding (h : Nat) (st : Standing) (cause : Cause) (s : State) : State :=
  sendCall h (enc1 4 ++ enc1 st.code ++ enc1 cause.code) s

/-- R209: RING ON to phone `h`. -/
def ringOn (h : Nat) (s : State) : State := sendCall h (enc1 2 ++ enc1 0 ++ enc1 0) s

/-- R209: RING OFF to phone `h`. -/
def ringOff (h : Nat) (s : State) : State := sendCall h (enc1 3 ++ enc1 0 ++ enc1 0) s

/-- The phone of the call record is given a standing. -/
def sendPhone (st : Standing) (cause : Cause) (s : State) : State :=
  match s.cs.phone with
  | some h => sendStanding h st cause s
  | none => s

/-! ## The call record (R151) -/

/-- R151, R159: the call record takes a state, phone and priority: CALL_CHANGE on a change of state; leaving INCOMING
sends RING OFF to the rung set; leaving OUTGOING or INCOMING stops the ring timer; leaving CONNECTED empties the link
voice queue. -/
def setCall (st : CallState) (phone : Option Nat) (prio : Priority) (s : State) : State :=
  let old := s.cs.call
  let s1 := if old = .incoming ∧ st ≠ .incoming then s.cs.rung.foldl (fun t h => ringOff h t) s else s
  let s2 := { s1 with cs := { s1.cs with
    call := st
    phone := phone
    priority := prio
    ringTimer := if st ≠ old then none else s1.cs.ringTimer
    repeatTimer := if st ≠ old then none else s1.cs.repeatTimer
    rung := if st ≠ old then [] else s1.cs.rung
    voice := if old = .connected ∧ st ≠ .connected then [] else s1.cs.voice } }
  if st ≠ old then setFlag .callChange s2 else s2

/-! ## Signalling (R152) -/

/-- CALL_RING (R211). -/
def ringMsg (p : Priority) : Message := { type := msgCallRing, payload := enc1 p.code }
/-- CALL_ANSWER (R211). -/
def answerMsg : Message := { type := msgCallAnswer, payload := [] }
/-- CALL_CLEAR (R211). -/
def clearMsg (c : Cause) : Message := { type := msgCallClear, payload := enc1 c.code }

/-- R152: the backlog without the oldest CALL_CLEAR, which a full backlog always holds, since at most one of its
messages is of the present call. -/
def discardClear (q : List Message) : List Message :=
  if q.any (fun x => x.type == msgCallClear) then q.eraseP (fun x => x.type == msgCallClear) else q.drop 1

/-- R152: the backlog with a message at its tail; at 4 messages the oldest CALL_CLEAR is discarded for it. -/
def backlogJoin (m : Message) (q : List Message) : List Message :=
  (if Config.waitingCap ≤ q.length then discardClear q else q) ++ [m]

/-- CS's signalling backlog replaced. -/
def setBacklog (q : List Message) (s : State) : State := { s with cs := { s.cs with backlog := q } }

/-- R152: CS forms a call message: offered at once, or kept in the backlog. -/
def formCallMsg (m : Message) (s : State) : State :=
  if s.cs.backlog.isEmpty then
    let (taken, s1) := txOffer m s
    if taken then s1 else setBacklog (backlogJoin m s1.cs.backlog) s1
  else setBacklog (backlogJoin m s.cs.backlog) s

/-- R152: the backlog's messages are offered, oldest first, until one is refused. -/
def drainBacklog : List Message → State → State
  | [], s => s
  | m :: ms, s =>
    let (taken, s1) := txOffer m s
    if taken then drainBacklog ms (setBacklog ms s1) else s1

/-- R152: SL reports a removal from the transmit queue. -/
def csDrain (s : State) : State := drainBacklog s.cs.backlog s

/-- A message of the present call: the backlog's other messages are CALL_CLEARs (R152). -/
def Message.ofPresentCall (m : Message) : Bool := m.type == msgCallRing || m.type == msgCallAnswer

/-- R152: the present call's message is removed from the backlog. -/
def dropPresent (s : State) : State := setBacklog (s.cs.backlog.filter fun m => !m.ofPresentCall) s

/-- R152: the present call is to be cleared with a CALL_CLEAR: a CALL_RING the summit has not seen, of a call not
CONNECTED, is withdrawn instead. One of a call CONNECTED is removed and the CALL_CLEAR formed, by glare or, as log entry
80 has it, by a CALL_ANSWER. -/
def signalClear (cause : Cause) (s : State) : State :=
  let unseen := s.cs.call != .connected && s.cs.backlog.any (fun m => m.type == msgCallRing)
  let s1 := dropPresent s
  if unseen then s1 else formCallMsg (clearMsg cause) s1

/-- The call's phone is sent IDLE and the record becomes IDLE with phone none. -/
def endCall (cause : Cause) (s : State) : State := setCall .idle none s.cs.priority (sendPhone .idle cause s)

/-! ## Starting, waiting and serving (R153 to R155) -/

/-- R153, R154: whether the link is UP or DEGRADED. -/
def State.linkRunning (s : State) : Bool := s.sl.link == .up || s.sl.link == .degraded

/-- R153: the call becomes OUTGOING for phone `h`. -/
def startOutgoing (h : Nat) (p : Priority) (s : State) : State :=
  let s1 := setCall .outgoing (some h) p s
  let s2 := { s1 with cs := { s1.cs with ringTimer := some (s1.now + Config.ringTime) } }
  sendStanding h .ringing .normal (formCallMsg (ringMsg p) s2)

/-- R154: the waiting list is served when the call is IDLE with the link running. -/
def serve (s : State) : State :=
  match s.cs.waiting with
  | w :: ws =>
    if s.cs.call = .idle ∧ s.linkRunning = true then
      startOutgoing w.phone w.priority { s with cs := { s.cs with waiting := ws } }
    else s
  | [] => s

/-- R154: a request placed after the last one of its own priority. -/
def insertReq (r : WaitReq) (l : List WaitReq) : List WaitReq :=
  match r.priority with
  | .emergency => l.filter (fun x => x.priority == .emergency) ++ [r] ++ l.filter (fun x => x.priority != .emergency)
  | .service => l ++ [r]

/-- R154: phone `h`'s request joins the waiting list, or the phone is sent BUSY; the cause sent with WAITING and BUSY is
NORMAL (log entry 81). -/
def joinWaiting (h : Nat) (p : Priority) (s : State) : State :=
  let l := s.cs.waiting
  let join := fun (l : List WaitReq) (t : State) =>
    sendStanding h .waiting .normal { t with cs := { t.cs with waiting := insertReq { phone := h, priority := p } l } }
  if l.length < Config.waitingCap then join l s
  else
    match p, l.getLast? with
    | .emergency, some w =>
      if w.priority = .service then join l.dropLast (sendStanding w.phone .busy .normal s)
      else sendStanding h .busy .normal s
    | _, _ => sendStanding h .busy .normal s

/-- R155: an EMERGENCY caller takes the line from a SERVICE call. -/
def preempt (h : Nat) (s : State) : State :=
  startOutgoing h .emergency (endCall .preempt (signalClear .preempt s))

/-- R153: phone `h` answers the incoming call. -/
def answerCall (h : Nat) (s : State) : State :=
  let s1 := setCall .connected (some h) (s.cs.priority.max (s.phoneEntry h).priority) s
  sendStanding h .connected .normal (formCallMsg answerMsg s1)

/-- The standing of the call's phone in a call state (8.2). -/
def CallState.standing : CallState → Standing
  | .idle => .idle | .outgoing => .ringing | .incoming => .ringing | .connected => .connected

/-- R153: an OFF_HOOK from phone `h`. -/
def offHook (h : Nat) (s : State) : State :=
  let p := (s.phoneEntry h).priority
  if s.cs.phone = some h then sendStanding h s.cs.call.standing .normal s
  else if s.cs.waiting.any (fun w => w.phone == h) then sendStanding h .waiting .normal s
  else
    match s.cs.call with
    | .idle => if s.linkRunning then startOutgoing h p s else joinWaiting h p s
    | .incoming => answerCall h s
    | .outgoing => if p = .emergency ∧ s.cs.priority = .service then preempt h s else joinWaiting h p s
    | .connected => if p = .emergency ∧ s.cs.priority = .service then preempt h s else joinWaiting h p s

/-- R158, R154: an ON_HOOK from phone `h`. -/
def onHook (h : Nat) (s : State) : State :=
  if s.cs.phone = some h ∧ (s.cs.call = .outgoing ∨ s.cs.call = .connected) then
    serve (endCall .normal (signalClear .normal s))
  else if s.cs.waiting.any (fun w => w.phone == h) then
    sendStanding h .idle .normal
      { s with cs := { s.cs with waiting := s.cs.waiting.filter fun w => w.phone != h } }
  else s

/-- R150: the phone whose node a frame's source is. -/
def State.phoneOf (s : State) (src : Byte) : Option Nat :=
  (List.range 8).find? fun h => (s.phoneEntry h).node == src.toNat

/-- R150, R209: a CALL frame from a node. -/
def callFrame (src : Byte) (payload : List Byte) (s : State) : State :=
  match s.phoneOf src, parseHook payload with
  | some h, some true => offHook h s
  | some h, some false => onHook h s
  | _, _ => s

/-- R150, R161: a VOICE frame from a node. -/
def voiceFrame (src : Byte) (payload : List Byte) (s : State) : State :=
  match s.phoneOf src with
  | some h =>
    if payload.length = 40 ∧ s.cs.call = .connected ∧ s.cs.phone = some h then
      let q := if Config.voiceCap ≤ s.cs.voice.length then s.cs.voice.drop 1 else s.cs.voice
      { s with cs := { s.cs with voice := q ++ [payload] } }
    else s
  | none => s

/-! ## Messages from the summit (R156, R157, R162) -/

/-- R157: a summit CALL_CLEAR. -/
def summitClear (cause : Cause) (s : State) : State :=
  if s.cs.call = .idle then s else serve (endCall cause (dropPresent s))

/-- R156, R159: RING ON to every phone of the ring group, in the order of the phone table (log entry 79), each added to
the rung set. -/
def ringGroup (s : State) : State :=
  ((List.range 8).filter fun h => (s.phoneEntry h).ringGroup && (s.phoneEntry h).node != 0).foldl
    (fun t h =>
      let t1 := ringOn h t
      if t1.cs.rung.contains h then t1 else { t1 with cs := { t1.cs with rung := t1.cs.rung ++ [h] } }) s

/-- R156: an incoming ring begins. -/
def startIncoming (q : Priority) (s : State) : State :=
  let s1 := setCall .incoming none q s
  ringGroup { s1 with cs := { s1.cs with
    ringTimer := some (s1.now + Config.ringTime), repeatTimer := some (s1.now + Config.ringRepeatTime), rung := [] } }

/-- R156, R157: the call connects by the summit's answer, or by glare. -/
def connectCall (p : Priority) (s : State) : State :=
  sendPhone .connected .normal (setCall .connected s.cs.phone p s)

/-- R156: a summit CALL_RING in a state other than CONNECTED. -/
def ringTaken (q : Priority) (s : State) : State :=
  match s.cs.call with
  | .idle => startIncoming q s
  | .outgoing => connectCall (s.cs.priority.max q) s
  | .incoming => s
  | .connected => s

/-- R156: a summit CALL_RING. -/
def summitRing (q : Priority) (s : State) : State :=
  if s.cs.call = .connected then ringTaken q (summitClear .normal s) else ringTaken q s

/-- R157: a summit CALL_ANSWER. -/
def summitAnswer (s : State) : State :=
  if s.cs.call = .outgoing then connectCall s.cs.priority s else s

/-- R157: the cause of a summit CALL_CLEAR, NORMAL for any value but NORMAL, PREEMPT and NO_ANSWER. -/
def summitCause (payload : List Byte) : Cause :=
  if payload.length ≠ 1 then .normal
  else if u8 payload 0 = 1 then .preempt
  else if u8 payload 0 = 2 then .noAnswer
  else .normal

/-- R162: the voice block of a good summit burst. -/
def summitVoice (block : List Byte) (s : State) : State :=
  match s.cs.call, s.cs.phone with
  | .connected, some h =>
    if (s.phoneEntry h).node = 0 then s else offerVoice (qframe (s.phoneEntry h).node .voice block) s
  | _, _ => s

/-! ## Timers and the link (R159, R160) -/

/-- R159: the ring timer has run out. -/
def ringOut (s : State) : State :=
  match s.cs.ringTimer with
  | some t => serve (endCall .noAnswer (signalClear .noAnswer (reach t s)))
  | none => s

/-- R159: the ring cadence. -/
def ringAgain (s : State) : State :=
  match s.cs.repeatTimer with
  | some t =>
    let s1 := reach t s
    ringGroup { s1 with cs := { s1.cs with repeatTimer := some (t + Config.ringRepeatTime) } }
  | none => s

/-- R160: the link enters LOST. -/
def csLinkLost (s : State) : State :=
  let s1 := if s.cs.call = .idle then s else endCall .link s
  setBacklog [] s1

/-- R160: the link enters UP. -/
def csLinkUp (s : State) : State := serve s

/-! ## Writes of phone entries (R150) -/

/-- R150: a phone write judged. -/
def validPhone (h : Nat) (bs : List Byte) (s : State) : Except Reason Phone :=
  match Phone.ofBytes bs with
  | none => .error .range
  | some e =>
    if 8 ≤ h ∨ bs.length ≠ 3 ∨ 126 < e.node
        ∨ (e.node ≠ 0 ∧ (List.range 8).any (fun i => i != h && (s.phoneEntry i).node == e.node)) then .error .range
    else if s.cs.phone = some h ∨ s.cs.waiting.any (fun w => w.phone == h) then .error .state
    else .ok e

/-- R150: an accepted phone write takes effect. -/
def applyPhone (h : Nat) (e : Phone) (s : State) : State :=
  { s with cs := { s.cs with phones := s.cs.phones.setIfInBounds h e } }

end Sys2Proof.Machine
end

