-- ==== Sys2Proof/Machine/Summit.lean ====
section
/-! DEFINITION. SL: turns, bursts, link states, the attention sequence, breaks, the summit's demand and the message
layer (chapters 6 and 7). -/

namespace Sys2Proof.Machine

/-- SL's driver-enable pin is low (R116). -/
def State.deLow (s : State) : Bool := s.sl.tx == .quiet

/-- R117: the link enters a state; a change sets LINK_CHANGE. -/
def setLink (st : LinkState) (s : State) : State :=
  if s.sl.link = st then s else setFlag .linkChange { s with sl := { s.sl with link := st } }

/-! ## The transmit queue (R137, R138, R140) -/

/-- R137: every sent entry's age rises by 1. -/
def ageEntry (e : TxEntry) : TxEntry := if e.sent then { e with age := e.age + 1 } else e

/-- R137: an entry returned to unsent. -/
def TxEntry.unsent (e : TxEntry) : TxEntry := { e with sent := false, age := 0 }

/-- R137: the aging and the go-back resend of a turn start. -/
def ageQueue (q : List TxEntry) : List TxEntry :=
  let q1 := q.map ageEntry
  match q1 with
  | e :: _ => if e.sent ∧ 10 ≤ e.age then q1.map TxEntry.unsent else q1
  | [] => q1

/-- R137: up to `n` of the oldest unsent entries are taken into a burst and marked sent. -/
def takeUnsent : Nat → List TxEntry → List TxEntry × List TxEntry
  | _, [] => ([], [])
  | n, e :: es =>
    if e.sent then
      let (t, r) := takeUnsent n es
      (t, e :: r)
    else
      match n with
      | 0 => ([], e :: es)
      | n + 1 =>
        let (t, r) := takeUnsent n es
        (e :: t, { e with sent := true, age := 0 } :: r)

/-- SL's transmit queue replaced. -/
def setTx (q : List TxEntry) (s : State) : State := { s with sl := { s.sl with txQueue := q } }

/-- R136, R152: a removal is reported to CT, and then to CS (log entry 73). -/
def reportRemoval (s : State) : State := csDrain (evalRelease s)

/-- R138: the number of entries that a next-expected value confirms. -/
def confirmedBy (next : Byte) (q : List TxEntry) : Nat :=
  match q with
  | [] => 0
  | e :: _ =>
    let c := (next - e.seq).toNat
    if c ≤ q.length then c else 0

/-- R138: confirmation by a good burst, then the hold flag. -/
def confirm (next : Byte) (hold : Bool) (s : State) : State :=
  let c := confirmedBy next s.sl.txQueue
  let s1 := if c = 0 then s else reportRemoval (setTx (s.sl.txQueue.drop c) s)
  { s1 with sl := { s1.sl with summitHold := hold } }

/-- R140: the entries numbered anew from `n`. -/
def renumber : Byte → List TxEntry → List TxEntry
  | _, [] => []
  | n, e :: es => { e with seq := n } :: renumber (n + 1) es

/-- R140: the transmit queue at a resynchronisation. -/
def resyncQueue (restart : Bool) (next : Byte) (s : State) : State :=
  let q := s.sl.txQueue
  if restart then
    { s with sl := { s.sl with
        txQueue := renumber next (q.map TxEntry.unsent), nextSend := next + BitVec.ofNat 8 q.length } }
  else
    let c := confirmedBy next q
    let s1 := setTx ((q.drop c).map TxEntry.unsent) s
    if c = 0 then s1 else reportRemoval s1

/-! ## Missed turns, loss, syncing (R122, R123, R130) -/

/-- LINK_LOST (R123). -/
def linkLostFault : Raise :=
  { source := .link, code := .linkLost, cls := .stop, latched := true, present := true }

/-- R123: the link enters LOST until a time. -/
def enterLost (untilTime : Nat) (s : State) : State :=
  let s1 := setLink .lost s
  let s2 := { s1 with sl := { s1.sl with
    turnTimer := none, turn := .none, lostUntil := some untilTime, summitWord := none, summitHeld := none } }
  csLinkLost (gone .link .summitDemand (raise linkLostFault s2))

/-- R122: the turn is MISSED; `untilTime` is when LOST would end. -/
def missedTurn (untilTime : Nat) (s : State) : State :=
  let m := s.sl.missed + 1
  let s1 := { s with sl := { s.sl with missed := m, turn := .none } }
  if 10 ≤ m then enterLost untilTime s1
  else if 3 ≤ m ∧ s.sl.link = .up then setLink .degraded s1
  else s1

/-- R123: the next turn start time, which ends LOST. -/
def State.nextTurn (s : State) : Nat := s.sl.turnTimer.getD s.now

/-- R130: the link enters SYNCING. -/
def enterSyncing (s : State) : State :=
  let s1 := setLink .syncing s
  { s1 with sl := { s1.sl with
      lostUntil := none, attnTimer := some (s1.now + Config.attentionIdle), attnWaiting := false } }

/-- R123: the LOST period ends. -/
def lostPeriodEnd (s : State) : State :=
  match s.sl.link, s.sl.lostUntil with
  | .lost, some t => enterSyncing (reach t s)
  | _, _ => s

/-! ## Turns (R118, R119, R124, R133, R137, R139) -/

/-- R63: the trip-latched mark: a latched entry of class TRIP is listed, or the overflow demand is TRIP. -/
def State.tripLatched (s : State) : Bool :=
  s.ls.faults.any (fun e => e.latched && e.cls == .trip) || s.ls.overflow == .trip

/-- R63, R124: the safety word that LS keeps. -/
def State.safetyWord (s : State) : SafetyWord :=
  { demand := s.ls.effDemand, line := s.ls.line, tripLatched := s.tripLatched }

/-- R139: voice yields to the backlog. -/
def State.voiceYields (s : State) : Bool :=
  s.straps.rate == 0 && decide (8 ≤ (s.sl.txQueue.filter fun e => !e.sent).length)

/-- R124, R137, R139: the burst is formed and its sending begins. -/
def formBurst (s : State) : State :=
  let voice := if s.voiceYields then none else s.cs.voice.head?
  let limit := if s.sl.summitHold then 0 else messageLimit s.straps.rate voice.isSome
  let (taken, q) := takeUnsent limit s.sl.txQueue
  let bytes := burstBytes s.sl.turnNumber s.safetyWord s.sl.nextExpected s.sl.holdFlag voice
    (taken.map fun e => (e.msg, e.seq))
  { s with
    cs := { s.cs with voice := s.cs.voice.drop 1 }
    sl := { s.sl with txQueue := q, tx := .burst bytes, turn := .sending } }

/-- R118, R133, R137: a turn begins: the turn number, the aging, and a burst or a break. The burst is formed here, before
the lead guard passes (log entry 72). -/
def beginTurn (t : Nat) (s : State) : State :=
  let s1 := { s with sl := { s.sl with
    turnTimer := some (t + Config.turnTime)
    turnNumber := if s.sl.firstTurn then 0 else s.sl.turnNumber + 1
    firstTurn := false
    txQueue := ageQueue s.sl.txQueue
    turn := .none } }
  if s1.sl.breakPending then { s1 with sl := { s1.sl with tx := .breaking } } else formBurst s1

/-- Whether a turn's outcome is still open for the summit's answer (R122). -/
def TurnPhase.answering : TurnPhase → Bool
  | .none => false
  | .sending => false
  | .window _ => true
  | .receiving _ _ => true

/-- R118, R119: a turn start. -/
def turnStart (s : State) : State :=
  match s.sl.turnTimer with
  | none => s
  | some t =>
    if s.deLow then
      let s1 := reach t s
      let s2 := if s1.sl.turn.answering then missedTurn (t + Config.turnTime) s1 else s1
      if s2.sl.link = .lost then s2 else beginTurn t s2
    else s

/-- R118, R119: the trail guard ends, DE falls, and the reply window of the turn opens. -/
def burstSent (s : State) : State :=
  match s.sl.tx with
  | .burst _ =>
    { s with sl := { s.sl with
        tx := .quiet
        turn := if s.sl.turn = .sending then .window (s.now + Config.replyWindow) else s.sl.turn } }
  | .quiet => s
  | .breaking => s
  | .attention _ => s

/-- R133: the break and its trail guard end. -/
def breakSent (s : State) : State :=
  if s.sl.tx = .breaking then { s with sl := { s.sl with tx := .quiet, breakPending := false } } else s

/-- R119: the reply window closes empty. -/
def windowClose (s : State) : State :=
  match s.sl.turn with
  | .window t => missedTurn s.nextTurn (reach t s)
  | .none => s
  | .sending => s
  | .receiving _ _ => s

/-- R121: a disagreement of RX with TX. -/
def clash (s : State) : State :=
  match s.sl.tx with
  | .burst _ =>
    let s1 := setFlag .clash { s with sl := { s.sl with tx := .quiet } }
    if s1.sl.turn = .sending then missedTurn s1.nextTurn s1 else s1
  | .attention _ => setFlag .clash { s with sl := { s.sl with tx := .quiet } }
  | .quiet => s
  | .breaking => s

/-! ## The summit's demand (R127, R128) -/

/-- SUMMIT_DEMAND of a level (R128). -/
def demandFault (d : Demand) : Raise :=
  { source := .link, code := .summitDemand, cls := d.faultClass, latched := false, present := true }

/-- R128: the level of a good summit burst against the level held. -/
def summitDemand (d : Demand) (s : State) : State :=
  let s1 := { s with sl := { s.sl with summitHeld := some d } }
  match s.sl.summitHeld with
  | none => raise (demandFault d) s1
  | some h =>
    if h = d then s1
    else if h.code < d.code then raise (demandFault d) s1
    else raise (demandFault d) (gone .link .summitDemand s1)

/-! ## Receiving messages (R141 to R143) -/

/-- R142: a cabin notice's id, none when the length is not 2 or the id is outside 1..999. -/
def noticeId (payload : List Byte) : Option Nat :=
  if payload.length = 2 ∧ 1 ≤ u16 payload 0 ∧ u16 payload 0 ≤ 999 then some (u16 payload 0) else none

/-- R142, R146: a CABIN_LAUNCHED; the first component says whether it was processed. -/
def receiveLaunched (payload : List Byte) (s : State) : Bool × State :=
  match noticeId payload with
  | none => (true, raise (eventFault (.cabin 0) .unknownCabin) s)
  | some x =>
    if downhillRefuses x s then (false, raise (eventFault (.cabin x) .downhillFull) s)
    else (true, cabinLaunched x s)

/-- R142, R145: a CABIN_ARRIVED. -/
def receiveArrived (payload : List Byte) (s : State) : State :=
  match noticeId payload with
  | none => raise (eventFault (.cabin 0) .unknownArrival) s
  | some x => cabinArrived x s

/-- R143: a DESK_NOTE; refused when the receive queue holds 8. -/
def receiveNote (payload : List Byte) (s : State) : Bool × State :=
  if Config.rxCap ≤ s.sl.rxQueue.length then (false, s)
  else
    let q := s.sl.rxQueue ++ [payload]
    (true, setFlag .summitNote { s with sl := { s.sl with
      rxQueue := q, holdFlag := s.sl.holdFlag || decide (6 ≤ q.length) } })

/-- R142: a CALL_RING; one that carries no priority of R208 is discarded. -/
def receiveRing (payload : List Byte) (s : State) : State :=
  if payload.length ≠ 1 then s
  else
    match Priority.ofCode (u8 payload 0) with
    | some q => summitRing q s
    | none => s

/-- R142: an expected message is processed by its type. -/
def processMessage (m : Message) (s : State) : Bool × State :=
  if m.type = msgCabinLaunched then receiveLaunched m.payload s
  else if m.type = msgCabinArrived then (true, receiveArrived m.payload s)
  else if m.type = msgCallRing then (true, receiveRing m.payload s)
  else if m.type = msgCallAnswer then (true, summitAnswer s)
  else if m.type = msgCallClear then (true, summitClear (summitCause m.payload) s)
  else if m.type = msgDeskNote then receiveNote m.payload s
  else (true, s)

/-- R141: the messages of a good burst, judged one by one; a refusal drops the rest. -/
def takeMessages : List (Message × Byte) → State → State
  | [], s => s
  | (m, q) :: rest, s =>
    let k := (q - s.sl.nextExpected).toNat
    if k = 0 then
      let (done, s1) := processMessage m s
      if done then takeMessages rest { s1 with sl := { s1.sl with nextExpected := s1.sl.nextExpected + 1 } } else s1
    else if k ≤ 127 then takeMessages rest (setFlag .gap s)
    else takeMessages rest s

/-! ## The end of a summit burst (R120, R126) -/

/-- R122: a good turn. -/
def goodTurn (s : State) : State :=
  let s1 := { s with sl := { s.sl with missed := 0, turn := .none } }
  if s.sl.link = .degraded then csLinkUp (setLink .up s1) else s1

/-- R126: a good summit burst's contents are handed on. -/
def handOn (b : SummitBurst) (s : State) : State :=
  let s1 := goodTurn s
  let s2 := summitDemand b.word.demand { s1 with sl := { s1.sl with summitWord := some b.word } }
  let s3 := takeMessages b.msgs (confirm b.next b.hold s2)
  match b.voice with
  | some v => summitVoice v s3
  | none => s3

/-- R120: a summit burst as received is judged; none when it is bad. -/
def judgeBurst (chars : List Byte) (framing : Bool) (s : State) : Option SummitBurst :=
  if framing then none
  else
    match parseSummitBurst s.straps.rate chars with
    | some b => if b.turn = s.sl.turnNumber then some b else none
    | none => none

/-- R120, R126: a summit burst ends and is judged. -/
def burstEnd (s : State) : State :=
  match s.sl.turn with
  | .receiving chars framing =>
    match judgeBurst chars framing s with
    | some b => handOn b s
    | none => missedTurn s.nextTurn s
  | .none => s
  | .sending => s
  | .window _ => s

/-! ## The attention sequence (R129 to R131) -/

/-- R130: the valley's attention sequence begins. -/
def sendAttention (s : State) : State :=
  { s with sl := { s.sl with
      attnWaiting := false, tx := .attention (attentionBytes s.sl.restartFlag s.sl.nextExpected) } }

/-- R130: a summit character has been received within the last 10 ms. -/
def State.charRecent (s : State) : Bool :=
  match s.sl.lastChar with
  | some c => decide (s.now < c + Config.attentionIdle)
  | none => false

/-- R130, R133: an attention instant. -/
def attentionInstant (s : State) : State :=
  match s.sl.link, s.sl.attnTimer with
  | .syncing, some t =>
    let s0 := reach t s
    let s1 := { s0 with sl := { s0.sl with attnTimer := some (t + Config.attentionPeriod) } }
    if !s1.deLow then s1
    else if s1.sl.breakPending then { s1 with sl := { s1.sl with tx := .breaking } }
    else if s1.sl.attnWaiting then s1
    else if s1.charRecent then { s1 with sl := { s1.sl with attnWaiting := true } }
    else sendAttention s1
  | _, _ => s

/-- R130: the time at which the line has been idle for 10 ms, counted from the last character whatever the summit's break
(log entry 78). -/
def State.idleEnd (s : State) : Nat :=
  match s.sl.lastChar with
  | some c => c + Config.attentionIdle
  | none => s.now

/-- R130: the line has been idle for 10 ms and the waiting sequence is sent. -/
def attentionAfterIdle (s : State) : State :=
  if s.sl.link = .syncing ∧ s.sl.attnWaiting = true ∧ s.deLow = true then sendAttention (reach s.idleEnd s) else s

/-- R130: the valley's attention sequence has been sent. -/
def attentionSent (s : State) : State :=
  match s.sl.tx with
  | .attention _ => { s with sl := { s.sl with tx := .quiet } }
  | .quiet => s
  | .burst _ => s
  | .breaking => s

/-- R131: a resynchronisation. An attention sequence or a break being sent goes on to its end (log entry 77). -/
def resync (restart : Bool) (next : Byte) (s : State) : State :=
  let was := s.sl.link
  let s1 := resyncQueue restart next s
  let s2 := if restart then { s1 with sl := { s1.sl with nextExpected := 0 } } else s1
  let s3 := setLink .up { s2 with sl := { s2.sl with
    missed := 0, restartFlag := false, attnTimer := none, attnWaiting := false, lostUntil := none } }
  let s4 := if was = .up then s3 else csLinkUp (gone .link .linkLost s3)
  { s4 with sl := { s4.sl with
      turn := .none, turnTimer := some (s4.now + Config.turnTime), firstTurn := true } }

/-- R129: detection starts anew: the detector is in its idle stage and waits for 10 ms with no character from now. -/
def restartDetection (s : State) : State := { s with sl := { s.sl with detector := .idle, idleFrom := s.now } }

/-- R129: the time at which 10 ms with no character have passed, for the stages idle and trail. -/
def State.silenceEnd (s : State) : Nat := s.sl.idleFrom + Config.attentionIdle

/-- R129, R131: the trailing silence of the summit's attention sequence ends; the detector is idle again and waits for
10 ms anew (log entry 65). -/
def attentionDetected (s : State) : State :=
  match s.sl.detector with
  | .trail restart next =>
    if s.sl.link = .down then s
    else
      resync restart next (restartDetection (reach s.silenceEnd s))
  | .idle => s
  | .first => s
  | .second => s
  | .third => s
  | .status => s
  | .sequence _ => s

/-- R129: the attention detector takes a character. -/
def Detector.take (d : Detector) (char : Byte) (framing : Bool) : Detector :=
  if framing then .idle
  else
    match d with
    | .idle => .idle
    | .first => if char = 0x5A then .second else .idle
    | .second => if char = 0x5A then .third else .idle
    | .third => if char = 0x5A then .status else .idle
    | .status => if char = 0x40 then .sequence false else if char = 0x41 then .sequence true else .idle
    | .sequence r => .trail r char
    | .trail _ _ => .idle

/-- R129: a silence at the attention detector: 10 ms with no character in the idle stage, or a gap of more than 2
character times before an expected character, which starts detection anew. -/
def attentionTimeout (s : State) : State :=
  if s.sl.link = .down then s
  else
    match s.sl.detector with
    | .idle => let s1 := reach s.silenceEnd s; { s1 with sl := { s1.sl with detector := .first } }
    | .first => s
    | .second => restartDetection s
    | .third => restartDetection s
    | .status => restartDetection s
    | .sequence _ => restartDetection s
    | .trail _ _ => s

/-- R119, R129: a character of the summit is received while DE is low. -/
def characterReceived (char : Byte) (framing : Bool) (s : State) : State :=
  if !s.deLow then s
  else
    let turn := match s.sl.turn with
      | .none => TurnPhase.none
      | .sending => .sending
      | .window _ => .receiving [char] framing
      | .receiving cs f => .receiving (cs ++ [char]) (f || framing)
    { s with sl := { s.sl with
        turn := turn
        lastChar := some s.now
        idleFrom := s.now
        detector := if s.sl.link = .down then s.sl.detector else s.sl.detector.take char framing } }

/-! ## Breaks (R132) -/

/-- SUMMIT_BREAK (R132). -/
def breakFault : Raise :=
  { source := .link, code := .summitBreak, cls := .trip, latched := true, present := true }

/-- R132: RX has been at space for 200 bit times with DE low. -/
def breakDetected (s : State) : State :=
  if !s.deLow then s
  else
    let turn := match s.sl.turn with
      | .none => TurnPhase.none
      | .sending => .sending
      | .window t => .window t
      | .receiving cs _ => .receiving cs true
    raise breakFault (restartDetection { s with sl := { s.sl with turn := turn, summitBreak := true } })

/-- R132: the line returns to mark. -/
def breakEnded (s : State) : State :=
  if s.sl.summitBreak then gone .link .summitBreak { s with sl := { s.sl with summitBreak := false } } else s

end Sys2Proof.Machine
end

