-- ==== Sys2Proof/Machine/Desk.lean ====
section
/-! DEFINITION. DR: taking requests, the key sequence, each request's judgement, replies and reports (chapter 10), with
the requests that LS and CM judge (R38, R39, R53, R56, R61). -/

namespace Sys2Proof.Machine

/-! ## Replies (R182, R209) -/

/-- What a request is answered with. -/
inductive Answer where
  | done (data : List Byte)
  | accepted
  | refused (r : Reason) (data : List Byte)
deriving DecidableEq, Repr

/-- R209: result, reason and data of a REPLY. -/
def Answer.bytes : Answer → List Byte
  | .done data => enc1 0 ++ enc1 0 ++ data
  | .accepted => enc1 1 ++ enc1 0
  | .refused r data => enc1 2 ++ enc1 r.code ++ data

/-- R182, R209: the REPLY to a request; the code of a request with no payload is a free value (log entry 6). -/
def reply (r : Request) (a : Answer) (restart : Bool) (s : State) : State :=
  let code := r.payload.head?.getD (Config.replyCodeOfEmpty s.freeCount)
  let s1 := if r.payload.isEmpty then { s with freeCount := s.freeCount + 1 } else s
  joinReport { dest := r.source.toNat, kind := .reply, payload := code :: a.bytes, tag := r.tag, restart := restart } s1

/-! ## The key sequence (R187) -/

/-- R187: the key state is set; the timer runs in A and B. -/
def setKey (k : KeyState) (s : State) : State :=
  { s with dr := { s.dr with key := k, keyTimer := if k = .none then none else some (s.now + Config.keyTime) } }

/-- R187: the key timer runs out. -/
def keyOut (s : State) : State :=
  match s.dr.keyTimer with
  | some t => setKey .none (reach t s)
  | none => s

/-! ## Taking a request (R181, R182) -/

/-- What a row does with a request that has passed the four checks: the answer, whether the REPLY is the one that
RESTART awaits, and the state. -/
abbrev Judge := List Byte → State → Answer × Bool × State

/-- R181: whether DR may take a request. -/
def State.takesRequest (s : State) : Bool :=
  decide (s.lr.report.length < Config.doorCap) && !s.dr.restartWait

/-- R181, R182: the request at the head is taken when the row is the one its code names (log entry 5), checked, and
judged. `fits` is the fourth check; a request that fails it breaks the key sequence (R187). -/
def takeRequest (mine : List Byte → Bool) (fits : List Byte → Bool) (judge : Judge) (s : State) : State :=
  match s.lr.requests with
  | [] => s
  | r :: rest =>
    if !s.takesRequest || !mine r.payload then s
    else
      let s1 := { s with lr := { s.lr with requests := rest }, dr := { s.dr with placeNotice := false } }
      if r.source.toNat ≠ s.params.deskNode then reply r (.refused .source []) false s1
      else if s.cl.load = .loading then reply r (.refused .notReady []) false s1
      else if !fits r.payload then reply r (.refused .range []) false (setKey .none s1)
      else
        let (a, restart, s2) := judge r.payload s1
        reply r a restart s2

/-- Any request but the key steps and the keyed ones (R187): judged, and the key state becomes NONE. -/
def plain (judge : List Byte → State → Answer × State) : Judge := fun p s =>
  let (a, s1) := judge p (setKey .none s)
  (a, false, s1)

/-- A keyed request (R187): judged in state B alone, and the key is spent. -/
def keyed (judge : List Byte → State → Answer × State) : Judge := fun p s =>
  if s.dr.key = .b then
    let (a, s1) := judge p (setKey .none s)
    (a, false, s1)
  else (.refused .key [], false, setKey .none s)

/-- A block's judgement as an answer of DONE or a refusal. -/
def doneOr (res : Except Reason State) (s : State) : Answer × State :=
  match res with
  | .ok t => (.done [], t)
  | .error r => (.refused r [], s)

/-- A door request's judgement as an answer of ACCEPTED or a refusal (R183). -/
def acceptedOr (res : Except Reason State) (s : State) : Answer × State :=
  match res with
  | .ok t => (.accepted, t)
  | .error r => (.refused r [], s)

/-! ## Which row takes a request (R183, R209) -/

/-- A request's code is this one. -/
def hasCode (code : Nat) (p : List Byte) : Bool := !p.isEmpty && u8 p 0 == code

/-- A request of this code whose selecting byte, at an offset, has this value; one whose byte is missing or names none
of the `n` values is RANGE whichever row of the code takes it. -/
def hasSub (code off n val : Nat) (p : List Byte) : Bool :=
  hasCode code p && (decide (p.length ≤ off ∨ n ≤ u8 p off) || u8 p off == val)

/-- R182: a code that is none of R183's, or no code at all. -/
def noCode (p : List Byte) : Bool := p.isEmpty || decide (u8 p 0 = 0 ∨ 0x12 < u8 p 0)

/-! ## STATUS (R186) -/

/-- The two bytes of a signed field (R208). -/
def enc2s (x : Int) : List Byte := enc2 (x % 65536).toNat

/-- R186, R210: the status record, 49 bytes. -/
def statusRecord (s : State) : List Byte :=
  let word := match s.sl.summitWord with
    | some w => enc1 1 ++ w.bytes
    | none => enc1 0 ++ enc2 0
  let prof := match s.cl.profile with
    | .idle => enc1 0 ++ enc1 0
    | .reading p _ => enc1 1 ++ enc1 (profileCode (some p))
    | .applying p => enc1 2 ++ enc1 (profileCode (some p))
  enc1 s.ls.line.code ++ enc1 s.ls.effDemand.code ++ enc1 s.ls.deskDemand.code ++ encMark s.ls.commissioned
    ++ enc1 s.ls.faults.length
    ++ enc4 s.ra.p ++ enc2s (if s.ra.speedValid then s.ra.vf else 0) ++ encMark s.ra.speedValid
    ++ enc1 (s.ct.fleet.toList.filter fun o => o.isSome).length ++ enc1 s.ct.queue.length
    ++ enc1 s.ct.uphill.length ++ enc1 s.ct.downhill.length
    ++ enc1 s.cm.subst.length
    ++ enc1 s.sl.link.code ++ word ++ enc1 s.sl.txQueue.length ++ enc1 s.sl.rxQueue.length
    ++ enc1 s.cs.call.code ++ encOpt1 s.cs.phone ++ enc1 s.cs.priority.code ++ enc1 s.cs.waiting.length
    ++ enc1 s.lr.loop.code ++ enc1 s.lr.relay.length ++ enc1 s.lr.requests.length ++ enc1 s.lr.safety.length
    ++ enc1 s.lr.door.length ++ enc1 s.lr.voice.length ++ enc1 s.lr.report.length ++ enc1 s.lr.outstanding.length
    ++ enc1 s.cl.load.code ++ enc1 s.cl.outcome.code ++ enc2 s.cl.skip ++ prof
    ++ enc1 (profileCode s.cl.pending) ++ enc1 s.cl.lastOutcome.code ++ enc2 s.cl.lastSkip
    ++ enc3 s.dr.flags.toNat

/-- R186. -/
def judgeStatusRequest (_ : List Byte) (s : State) : Answer × State := (.done (statusRecord s), s)

/-! ## READ_ENTRY (R184, R209, R210) -/

/-- R48, R210: a channel as READ_ENTRY returns it. The band and the counter base of a channel of another kind are what
its record holds (log entry 66). -/
def channelRead (s : State) (c : Nat) : List Byte :=
  let ch := s.chan c
  ch.entry.bytes ++ enc1 ((ch.bypass.map (·.minutes)).getD 0) ++ enc2 ch.rt.lastReading.toNat
    ++ enc1 ch.rt.condition.code ++ enc1 ch.rt.runCount ++ enc1 ch.rt.runSide.code ++ enc1 ch.rt.returnCount
    ++ enc1 ch.rt.band.code ++ encOpt2 (ch.rt.counterBase.map (·.toNat))

/-- R115, R210: the remaining dwell of a door record in ms; a free value while the hold was set before the doors
reached OPEN (log entry 7). -/
def remainingDwell (s : State) (j : Nat) : List Byte :=
  let d := s.door j
  match d.hold, d.dwellTimer with
  | .yes n, _ => enc2 n
  | .beforeOpen, _ => enc2 (Config.heldDwellBeforeOpen (s.freeCount * 16 + j)).toNat
  | .no, .running t => enc2 (t - s.now)
  | .no, .stopped => enc2 0
  | .no, .suspended => enc2 0

/-- R115, R210: a berth as READ_ENTRY returns it. -/
def berthRead (s : State) (j : Nat) : List Byte :=
  let d := s.door j
  let last := match d.lastStatus with
    | some (st, tog) => enc1 1 ++ enc1 st.code ++ encMark tog
    | none => enc1 0 ++ enc2 0
  let cmd := match d.command with
    | some (c, snd) => enc1 (c.code + 1) ++ enc1 snd.code
    | none => enc2 0
  let mark := match d.deskMark with
    | none => enc1 0
    | some .open => enc1 1
    | some .closed => enc1 2
  (s.berth j).entry.bytes ++ enc1 d.state.code ++ encMark d.awaiting ++ encMark d.heldClose ++ encMark d.held
    ++ remainingDwell s j ++ enc1 d.retryCount ++ last ++ enc1 d.stallCount ++ cmd ++ encOpt2 d.cabin
    ++ encMark d.waitingOpen ++ mark

/-- R92, R210: a fleet slot as READ_ENTRY returns it; an empty slot has no location, sent as 00h (R208). -/
def fleetRead (s : State) (i : Nat) : List Byte :=
  match s.ct.fleet[i]?.getD none with
  | some c => enc2 c.id ++ enc1 c.location.code
  | none => enc2 0 ++ enc1 0

/-- R163, R210: a phone as READ_ENTRY returns it. -/
def phoneRead (s : State) (h : Nat) : List Byte :=
  let standing := if s.cs.phone = some h then enc1 1 ++ enc1 0
    else
      match s.cs.waiting.findIdx? (fun w => w.phone == h) with
      | some i => enc1 2 ++ enc1 i
      | none => enc1 0 ++ enc1 0
  (s.phoneEntry h).bytes ++ standing

/-- R68, R210: a fault entry. -/
def FaultEntry.bytes (e : FaultEntry) : List Byte :=
  enc2 e.order.toNat ++ e.source.bytes ++ enc1 e.code.code ++ enc1 e.cls.code ++ encMark e.latched ++ encMark e.present

/-- R92, R210: a terminal queue record. -/
def Cabin.bytes (c : Cabin) : List Byte :=
  enc2 c.id ++ enc1 c.identity.code ++ enc1 c.zone ++ enc4 c.entryPos ++ enc1 c.grip.code
    ++ encOpt2 (c.force.map (·.toNat)) ++ encMark c.locked ++ encMark c.orderMark

/-- R149, R210: an uphill entry. -/
def UpEntry.bytes (e : UpEntry) : List Byte :=
  enc2 e.id ++ enc4 e.pos ++ enc2 e.order.toNat ++ encMark e.overdue

/-- R149, R210: a downhill entry. -/
def DownEntry.bytes (e : DownEntry) : List Byte := enc2 e.id ++ enc4 e.pos ++ encMark e.overdue

/-- R48, R210: a substitution list entry. -/
def SubstEntry.bytes (e : SubstEntry) : List Byte := enc1 e.primary ++ enc1 e.standby ++ enc2 e.order.toNat

/-- R184: the entries of a table in index order, with the index of the first; none for an id that is no table. -/
def tableEntries (table : Nat) (s : State) : Option (Nat × List (List Byte)) :=
  match table with
  | 0 => some (0, (List.range 48).map (channelRead s))
  | 1 => some (1, s.berthList.map (berthRead s))
  | 2 => some (0, (List.range 160).map (fleetRead s))
  | 3 => some (0, (List.range 8).map (phoneRead s))
  | 4 => some (0, [s.params.bytes])
  | 5 => some (0, s.ls.faults.map FaultEntry.bytes)
  | 6 => some (0, s.ct.queue.map Cabin.bytes)
  | 7 => some (0, s.ct.uphill.map UpEntry.bytes)
  | 8 => some (0, s.ct.downhill.map DownEntry.bytes)
  | 9 => some (0, s.cm.subst.map SubstEntry.bytes)
  | _ => none

/-- R209: as many whole entries as fit in `room` bytes. -/
def fitEntries : Nat → List (List Byte) → List (List Byte)
  | _, [] => []
  | room, e :: es => if e.length ≤ room then e :: fitEntries (room - e.length) es else []

/-- R184, R209: the entries of one REPLY, whose payload holds 55 bytes for them. -/
def judgeRead (p : List Byte) (s : State) : Answer × State :=
  let first := u16 p 2
  match tableEntries (u8 p 1) s with
  | none => (.refused .range [], s)
  | some (base, l) =>
    if first < base ∨ base + l.length ≤ first then (.refused .range [], s)
    else
      let es := fitEntries 55 ((l.drop (first - base)).take (u8 p 4))
      let s1 := if u8 p 1 = tableBerth then { s with freeCount := s.freeCount + 1 } else s
      (.done (enc1 (u8 p 1) ++ enc1 es.length ++ es.flatten), s1)

/-- R184: table, first index, count 1..4. -/
def fitsRead (p : List Byte) : Bool := decide (p.length = 5 ∧ u8 p 1 ≤ 9 ∧ 1 ≤ u8 p 4 ∧ u8 p 4 ≤ 4)

/-! ## WRITE_ENTRY (R185, R42 to R45, R66, R94, R70, R150) -/

/-- R185: table, index and contents of the table's entry length. -/
def fitsWrite (p : List Byte) : Bool := decide (4 ≤ p.length) && entryLength (u8 p 1) == some (p.length - 4)

/-- R43: a desk write of a valid entry outside STOPPED is refused when it changes a structural field or loosens. -/
def narrowing (structural loosens : Bool) (s : State) : Option Reason :=
  if s.ls.line = .stopped then none else if structural then some .state else if loosens then some .widen else none

/-- R44: an accepted desk write in STOPPED that loosens, or changes a structural field, clears the commissioned mark. -/
def uncommission (structural loosens : Bool) (before s : State) : State :=
  if before.ls.line = .stopped ∧ (structural = true ∨ loosens = true) then
    { s with ls := { s.ls with commissioned := false } }
  else s

/-- R42 to R45: a desk write of a channel entry. -/
def writeChannel (p : List Byte) (s : State) : Answer × State :=
  let c := u16 p 2
  match validChan c (p.drop 4) s with
  | .error r => (.refused r [], s)
  | .ok e =>
    let o := (s.chan c).entry
    match narrowing (chanStructural o e) (chanLoosens o e) s with
    | some r => (.refused r [], s)
    | none => (.done [], uncommission (chanStructural o e) (chanLoosens o e) s (applyChan follow c e s))

/-- R42, R43, R66: a desk write of LINE_PARAMS. -/
def writeLine (p : List Byte) (s : State) : Answer × State :=
  match validLine (u16 p 2) (p.drop 4) with
  | .error r => (.refused r [], s)
  | .ok e =>
    let o := s.params
    match narrowing (lineStructural o e) (lineLoosens o e) s with
    | some r => (.refused r [], s)
    | none => (.done [], uncommission (lineStructural o e) (lineLoosens o e) s (applyLine follow e s))

/-- R94: a desk write of a berth entry. -/
def writeBerth (p : List Byte) (s : State) : Answer × State :=
  match validBerth false (u16 p 2) (p.drop 4) s with
  | .error r => (.refused r [], s)
  | .ok e => (.done [], applyBerth (u16 p 2) e s)

/-- R70: a desk write of a fleet slot. -/
def writeFleet (p : List Byte) (s : State) : Answer × State :=
  doneOr (fleetWrite false (u16 p 2) (u16 (p.drop 4) 0) s) s

/-- R150: a desk write of a phone entry. -/
def writePhone (p : List Byte) (s : State) : Answer × State :=
  match validPhone (u16 p 2) (p.drop 4) s with
  | .error r => (.refused r [], s)
  | .ok e => (.done [], applyPhone (u16 p 2) e s)

/-! ## LINE (R56) -/

/-- R56: the start checks for a level. -/
def startAllowed (d : Demand) (s : State) : Bool :=
  s.ls.commissioned && s.sl.link == .up && s.lr.loop == .closed && decide ((demandWith d s).code ≤ Demand.slow.code)

/-- The desk demand set. -/
def setDesk (d : Demand) (s : State) : State := { s with ls := { s.ls with deskDemand := d } }

/-- R56: the line starts. -/
def startLine (d : Demand) (s : State) : State := follow s (enterLine .starting (setDesk d s))

/-- R56, R54: the desk demand changes while the line is moving. -/
def changeDesk (d : Demand) (s : State) : State := follow s (reform (setDesk d s))

/-- R56: a LINE request. -/
def judgeLine (d : Demand) (s : State) : Answer × State :=
  match s.ls.line with
  | .stopped =>
    if d = .stop then (.done [], s)
    else if startAllowed d s then (.done [], startLine d s)
    else (.refused .state [], s)
  | .starting => (.done [], changeDesk d s)
  | .running => (.done [], changeDesk d s)
  | .slowed => (.done [], changeDesk d s)
  | .stopping => if d = .stop then (.done [], s) else (.refused .state [], s)
  | .tripped => if d = .stop then (.done [], s) else (.refused .state [], s)

/-- R209: a LINE request's level is RUN, SLOW or STOP. -/
def fitsLine (p : List Byte) : Bool := decide (p.length = 2 ∧ u8 p 1 ≤ 2)

/-! ## Faults and the trip reset (R53, R61) -/

/-- R53: the order number that names an entry. -/
def namedBy (n : Nat) (e : FaultEntry) : Bool := e.order.toNat == n

/-- R53, R54: the named entry leaves the list, and the demand is formed again. -/
def clearEntry (n : Nat) (s : State) : State :=
  reform (setFlag .faultGone { s with ls := { s.ls with faults := s.ls.faults.eraseP (namedBy n) } })

/-- R53: CLEAR_FAULT. It names the oldest listed entry with the order number (log entry 76). -/
def judgeClear (p : List Byte) (s : State) : Answer × State :=
  match s.ls.faults.find? (namedBy (u16 p 1)) with
  | none => (.refused .range [], s)
  | some e =>
    if !e.latched ∨ e.cls = .trip ∨ e.present then (.refused .state [], s)
    else (.done [], follow s (clearEntry (u16 p 1) s))

/-- R61: the entries that an accepted TRIP_RESET removes. -/
def tripEntry (e : FaultEntry) : Bool := e.latched && e.cls == .trip && !e.present

/-- R61: the removal of the entries, the overflow demand, and the line's leaving TRIPPED. -/
def clearTrips (s : State) : State :=
  let s1 := { s with ls := { s.ls with
    faults := s.ls.faults.filter fun e => !tripEntry e, overflow := .run } }
  let s2 := if s.ls.faults.any tripEntry then setFlag .faultGone s1 else s1
  if s.ls.line = .tripped then enterLine .stopped s2 else reform s2

/-- R61: an accepted TRIP_RESET. -/
def tripReset (s : State) : State := follow s (clearTrips s)

/-- R61. -/
def judgeTripReset (_ : List Byte) (s : State) : Answer × State :=
  if ¬ (s.ls.line = .tripped ∨ s.ls.line = .stopped) ∨ s.ls.faults.any (fun e => e.cls == .trip && e.present)
      ∨ ¬ (s.ls.line = .stopped ∨ s.atRest = true) then (.refused .state [], s)
  else (.done [], tripReset s)

/-! ## Bypass and reinstatement (R38, R39) -/

/-- BYPASS_ACTIVE (R39). -/
def bypassFault (c : Nat) : Raise :=
  { source := .channel c, code := .bypassActive, cls := .slow, latched := false, present := true }

/-- R39: BYPASS. -/
def judgeBypass (p : List Byte) (s : State) : Answer × State :=
  let c := u8 p 1
  let ch := s.chan c
  let n := if u8 p 2 = 0 then s.params.bypassDefault else u8 p 2
  if ch.entry.state = .unused then (.refused .range [], s)
  else if ¬ (s.ls.line = .stopped ∨ s.ls.line = .slowed) then (.refused .state [], s)
  else if ch.entry.cls = .trip ∨ ch.entry.kind = .encoder then (.refused .state [], s)
  else
    let s1 := setChan c { ch with bypass := some { minutes := n, minuteEnd := s.now + Config.minute } } s
    (.done [], if ch.bypass.isSome then s1 else raise (bypassFault c) s1)

/-- R209: channel 0..47, minutes 0..120. -/
def fitsBypass (p : List Byte) : Bool := decide (p.length = 3 ∧ u8 p 1 ≤ 47 ∧ u8 p 2 ≤ 120)

/-- R38, step 2: the standby returns to STANDBY. -/
def standDown (b : Nat) (s : State) : State :=
  let s1 := goneAll follow b cmFaults (setEntry b { (s.chan b).entry with state := .standby } s)
  setRt b { (s1.chan b).rt with
    condition := .normal, runCount := 0, returnCount := 0, windyCount := 0, stormCount := 0 } s1

/-- R38, R195: REINSTATE of primary `c` with standby `b`. -/
def reinstate (c b : Nat) (s : State) : State :=
  let s1 := { s with cm := { s.cm with subst := s.cm.subst.eraseP fun e => e.primary == c } }
  let s2 := standDown b s1
  let s3 := resetRuntime follow c (setEntry c { (s2.chan c).entry with state := .active } s2)
  let s4 := formBand (determineEncoder follow (staleGone follow c s3))
  captureWritten b (captureWritten c s4)

/-- R38: REINSTATE. -/
def judgeReinstate (p : List Byte) (s : State) : Answer × State :=
  let c := u8 p 1
  match s.cm.subst.find? (fun e => e.primary == c) with
  | none => (.refused .range [], s)
  | some e => if s.ls.line ≠ .stopped then (.refused .state [], s) else (.done [], reinstate c e.standby s)

/-- R209: channel 0..47. -/
def fitsReinstate (p : List Byte) : Bool := decide (p.length = 2 ∧ u8 p 1 ≤ 47)

/-! ## Commissioning and restart (R189, R190) -/

/-- The number of channels that are ACTIVE of a kind. -/
def State.activeOf (s : State) (k : ChanKind) : Nat :=
  (s.cm.channels.toList.filter fun ch => ch.entry.state == .active && ch.entry.kind == k).length

/-- R189, check 4: the number of ACTIVE TRACK_MARK channels that name a boundary. -/
def State.marksOf (s : State) (k : Nat) : Nat :=
  (s.cm.channels.toList.filter fun ch =>
    ch.entry.state == .active && ch.entry.kind == .trackMark && ch.entry.boundary == k).length

/-- R189, check 8, for one channel. -/
def standbySound (s : State) (c : Nat) : Bool :=
  let e := (s.chan c).entry
  match e.standby with
  | none => true
  | some b =>
    e.state != .active
      || ((s.chan b).entry.state == .standby && (s.chan b).entry.kind == e.kind
        && !(List.range 48).any fun i =>
          i != c && (s.chan i).entry.state == .active && (s.chan i).entry.standby == some b)

/-- R189: the eight commissioning checks, in order. -/
def commissionChecks (s : State) : List Bool :=
  let p := s.params
  [ s.activeOf .encoder == 1,
    decide (p.uphillSpan + p.tolerance < p.loopLen ∧ p.downhillSpan + p.tolerance < p.loopLen),
    decide (p.minSpacing < p.loopLen),
    (List.range (s.berthCount + 2)).all fun i => s.marksOf (i + 1) == 1,
    s.activeOf .cabinId == 1,
    s.activeOf .gripForce == 1,
    s.berthList.all fun j => (s.berth j).entry.mode != .openMode || (s.berth j).entry.doorNode != 0,
    (List.range 48).all (standbySound s) ]

/-- R189: COMMISSION. -/
def judgeCommission (_ : List Byte) (s : State) : Answer × State :=
  if ¬ (s.ls.line = .stopped ∨ s.ls.line = .tripped) then (.refused .state [], s)
  else
    match (commissionChecks s).findIdx? (fun b => !b) with
    | some i => (.refused .config (enc1 (i + 1)), s)
    | none => (.done [], { s with ls := { s.ls with commissioned := true } })

/-- R190: RESTART; the REPLY is the one the reset awaits. -/
def judgeRestart : Judge := fun _ s =>
  let s1 := setKey .none s
  if s.dr.key ≠ .b then (.refused .key [], false, s1)
  else if s.ls.line ≠ .stopped then (.refused .state [], false, s1)
  else (.done [], true, { s1 with dr := { s1.dr with restartWait := true } })

/-! ## The other requests -/

/-- R191: FLAGS. -/
def judgeFlags (p : List Byte) (s : State) : Answer × State :=
  (.done [], applyFlags (BitVec.ofNat 24 (u24 p 1)) (BitVec.ofNat 24 (u24 p 4)) s)

/-- R193: CAPTURE. -/
def judgeCapture (p : List Byte) (s : State) : Answer × State :=
  let c := u8 p 1
  if (s.chan c).entry.state = .unused then (.refused .range [], s)
  else if s.dr.capture.isSome then (.refused .busy [], s)
  else
    let k : Capture :=
      { channel := c, remaining := u16 p 2, block := u8 p 4, nextBlock := 0, gap := false, subst := false,
        written := false, buffer := [] }
    (.done [], { s with dr := { s.dr with capture := some k } })

/-- R193, R209: channel 0..47, count 1..1024, block 1..8. -/
def fitsCapture (p : List Byte) : Bool :=
  decide (p.length = 5 ∧ u8 p 1 ≤ 47 ∧ 1 ≤ u16 p 2 ∧ u16 p 2 ≤ 1024 ∧ 1 ≤ u8 p 4 ∧ u8 p 4 ≤ 8)

/-- R136: SUMMIT_NOTE. -/
def judgeNote (p : List Byte) (s : State) : Answer × State :=
  let (taken, s1) := txOffer { type := msgDeskNote, payload := p.drop 1 } s
  if taken then (.done [], s1) else (.refused .busy [], s)

/-- R209: 0..12 bytes. -/
def fitsNote (p : List Byte) : Bool := decide (p.length ≤ 13)

/-- R187: KEY_A. -/
def judgeKeyA : Judge := fun _ s => (.done [], false, setKey .a s)

/-- R187: KEY_B. -/
def judgeKeyB : Judge := fun _ s =>
  if s.dr.key = .a then (.done [], false, setKey .b s) else (.refused .key [], false, setKey .none s)

/-- R182: a request with no code of R183. -/
def judgeUnknown (_ : List Byte) (s : State) : Answer × State := (.refused .unknown [], s)

/-- R209: a DOOR request's operation is one of the four. -/
def fitsDoor (p : List Byte) : Bool := decide (p.length = 3 ∧ u8 p 2 ≤ 3)

/-- R209: a CABIN request but PLACE. -/
def fitsCabin (p : List Byte) : Bool := decide (p.length = 4 ∧ u8 p 1 ≤ 3)

/-- R209: a PLACE, operation 4, its location a code of 4.2; an operation above 4 fits no CABIN request. -/
def fitsPlace (p : List Byte) : Bool := decide (p.length = 9 ∧ u8 p 1 = 4 ∧ u8 p 4 ≤ 5)

/-- R89: PLACE. -/
def judgePlace (p : List Byte) (s : State) : Answer × State :=
  match Location.ofCode (u8 p 4) with
  | some loc => doneOr (requestPlace (u16 p 2) loc (u32 p 5) s) s
  | none => (.refused .range [], s)

/-- A request with no parameters. -/
def fitsBare (p : List Byte) : Bool := decide (p.length = 1)

/-! ## Reports (R192, R195) -/

/-- R192: whether DR may offer a report: fewer than 7 frames in the REPORT queue, no restart wait, and no waiting
request that a freed place goes to first. -/
def State.mayReport (s : State) : Bool :=
  decide (s.lr.report.length < Config.doorCap - 1) && !s.dr.restartWait
    && !(s.dr.placeNotice && !s.lr.requests.isEmpty)

/-- A REPORT to the desk address (R192, R209). -/
def sendReport (payload : List Byte) (s : State) : State := joinReport (qframe s.params.deskNode .report payload) s

/-- R192, R209: a flag report. -/
def flagReport (s : State) : State :=
  if s.mayReport && s.dr.owed != 0 then
    sendReport (enc1 1 ++ enc3 s.dr.owed.toNat ++ enc3 s.dr.flags.toNat) { s with dr := { s.dr with owed := 0 } }
  else s

/-- R195: whether a capture has a block ready to send. -/
def Capture.ready (k : Capture) : Bool :=
  decide (k.block ≤ k.buffer.length) || k.written || (k.remaining == 0 && !k.buffer.isEmpty)

/-- R209: a captured sample. -/
def Sample.bytes (x : Sample) : List Byte :=
  enc2 x.reading.toNat ++ enc2 x.stamp.toNat ++ enc1 ((if x.gap then 1 else 0) + if x.subst then 2 else 0)

/-- R195, R209: the end cause of the block that leaves `rest` in the buffer: none 0, COMPLETE 1, WRITTEN 2. -/
def Capture.endCause (k : Capture) (rest : List Sample) : Nat :=
  if !rest.isEmpty then 0 else if k.written then 2 else if k.remaining = 0 then 1 else 0

/-- R195: the capture block is formed; the one with an end cause makes the record idle and sets CAPTURE_DONE. -/
def sendBlock (k : Capture) (s : State) : State :=
  let block := k.buffer.take k.block
  let rest := k.buffer.drop k.block
  let cause := k.endCause rest
  let s1 := sendReport (enc1 2 ++ enc1 k.channel ++ enc1 k.nextBlock ++ enc1 cause ++ enc1 block.length
    ++ block.flatMap Sample.bytes) s
  if cause = 0 then
    { s1 with dr := { s1.dr with capture := some { k with buffer := rest, nextBlock := (k.nextBlock + 1) % 128 } } }
  else setFlag .captureDone { s1 with dr := { s1.dr with capture := none } }

/-- R192, R195: a capture block, when no flag is owed. -/
def captureReport (s : State) : State :=
  match s.dr.capture with
  | some k => if s.mayReport && s.dr.owed == 0 && k.ready then sendBlock k s else s
  | none => s

/-- R192, R143: a note report, when no flag is owed and no block is ready. -/
def noteReport (s : State) : State :=
  match s.sl.rxQueue with
  | note :: rest =>
    let blocked := match s.dr.capture with
      | some k => k.ready
      | none => false
    if s.mayReport && s.dr.owed == 0 && !blocked then
      sendReport (enc1 3 ++ enc1 note.length ++ note)
        { s with sl := { s.sl with rxQueue := rest, holdFlag := s.sl.holdFlag && decide (2 < rest.length) } }
    else s
  | [] => s

end Sys2Proof.Machine
end

