-- ==== Sys2Proof/Machine/Rope.lean ====
section
/-! DEFINITION. RA: the ten stages of an encoder reading, its checks and its position update (chapter 1). -/

namespace Sys2Proof.Machine

/-- RA's verdicts (R2). -/
inductive Verdict where
  | base | repeated | jump | travel | spare
deriving DecidableEq, Repr

/-- R8, R9: a speed clamped to −32,768..32,767. -/
def clampSpeed (x : Int) : Int := max (-32768) (min 32767 x)

/-- R4: the time step, 0..65535. -/
def timeStep (t last : Word16) : Nat := (((t.toNat : Int) - (last.toNat : Int)) % 65536).toNat

/-- R5: the signed count step, by the shorter way round the wrap. -/
def countStep (n last : Word16) : Int := ((n.toNat : Int) - (last.toNat : Int) + 32768) % 65536 - 32768

/-- R8: the raw speed of a travel `u` over a time step. -/
def rawSpeed (u : Int) (dt : Nat) : Int := clampSpeed (Int.tdiv (u * 10) (dt : Int))

/-- R9: the filtered speed. -/
def filterSpeed (k : Nat) (v vf : Int) : Int :=
  if k = 0 then v else clampSpeed (vf + Int.fdiv (v - vf + 2 ^ (k - 1)) (2 ^ k))

/-- R7, R8, R9: travel, position, raw speed and filter of a count step. -/
def travel (e : ChanEntry) (len : Nat) (dn : Int) (dt : Nat) (ra : Rope) : Rope :=
  let u := dn * (e.scale : Int)
  let total := (ra.r : Int) + u
  let a := Int.fdiv total 1000
  let v := rawSpeed u dt
  { ra with r := (total - 1000 * a).toNat, p := (((ra.p : Int) + a) % (len : Int)).toNat, v := v,
            vf := filterSpeed e.shift v ra.vf, speedValid := true }

/-- R3 to R10: the stages of one reading of the encoder channel. -/
def ropeStages (e : ChanEntry) (len : Nat) (n t : Word16) (ra : Rope) : Verdict × Rope :=
  if !ra.baseValid then (.base, { ra with cLast := n, tLast := t, baseValid := true })
  else
    let dt := timeStep t ra.tLast
    if dt = 0 then (.repeated, ra)
    else
      let dn := countStep n ra.cLast
      if e.step < dn.natAbs then (.jump, { ra with cLast := n, tLast := t })
      else (.travel, { travel e len dn dt ra with cLast := n, tLast := t })

/-- R13: the overspeed limit of the line state. -/
def overspeedLimit (s : State) : Nat :=
  match s.ls.line with
  | .starting => s.params.startingLimit
  | .running => s.params.runningLimit
  | .slowed => s.params.slowedLimit
  | .stopping => s.params.stoppingLimit
  | .stopped => s.params.stoppingLimit
  | .tripped => s.params.stoppingLimit

/-- R13, R14: a latched TRIP fault of RA. -/
def ropeFault (c : Nat) (code : FaultCode) : Raise :=
  { source := .channel c, code := code, cls := .trip, latched := true, present := true }

/-- R13: the overspeed check. -/
def overspeedCheck (c : Nat) (s : State) : State :=
  if overspeedLimit s < s.ra.vf.natAbs then raise (ropeFault c .overspeed) s else gone (.channel c) .overspeed s

/-- R14: the rollback check. -/
def rollbackCheck (c : Nat) (s : State) : State :=
  if s.ra.vf < -(s.params.reverseLimit : Int) then raise (ropeFault c .rollback) s
  else gone (.channel c) .rollback s

/-- R57, R59: LS's transitions on a position update. -/
def lineOnUpdate (s : State) : State :=
  if s.ls.line = .starting ∧ s.startExit then
    follow s (enterLine (if s.ls.effDemand = .run then .running else .slowed) s)
  else if s.ls.line = .stopping ∧ s.atRest then follow s (enterLine .stopped s)
  else s

/-- R147: the overdue evaluation of the oldest uphill entry. -/
def overdueUp (s : State) : State :=
  match s.ct.uphill with
  | e :: es =>
    if !e.overdue && decide (s.params.uphillSpan + s.params.tolerance < s.forwardDist e.pos) then
      raise (eventFault (.cabin e.id) .overdue)
        { s with ct := { s.ct with uphill := { e with overdue := true } :: es } }
    else s
  | [] => s

/-- R147: the overdue evaluation of the oldest downhill entry. -/
def overdueDown (s : State) : State :=
  match s.ct.downhill with
  | e :: es =>
    if !e.overdue && decide (s.params.downhillSpan + s.params.tolerance < s.forwardDist e.pos) then
      raise (eventFault (.cabin e.id) .overdue)
        { s with ct := { s.ct with downhill := { e with overdue := true } :: es } }
    else s
  | [] => s

/-- R10, R80, R147: the position update, taken by LS and then by CT. Both blocks' speed tests see the values of this
update (R12), so CT's forward test is answered before LS's transition, which may apply the deferred list. -/
def positionUpdate (s : State) : State :=
  let forward := s.forward
  let s := lineOnUpdate s
  evalRelease (if forward then overdueDown (overdueUp s) else s)

/-- R10: after a TRAVEL verdict, the overspeed and rollback checks and then the position update. -/
def afterTravel (c : Nat) (s : State) : State := positionUpdate (rollbackCheck c (overspeedCheck c s))

/-- R2: the verdict applied to the channel's runtime record: the staleness credit and the run count. -/
def creditVerdict (v : Verdict) (now : Nat) (rt : Runtime) : Runtime :=
  match v with
  | .repeated => rt
  | .jump => { rt with lastAccepted := now, runCount := rt.runCount + 1 }
  | .base => { rt with lastAccepted := now, runCount := 0 }
  | .travel => { rt with lastAccepted := now, runCount := 0 }
  | .spare => { rt with lastAccepted := now, runCount := 0 }

/-- R2: a reading of an ACTIVE channel of kind ENCODER. -/
def encoderReading (c : Nat) (n t : Word16) (s : State) : State :=
  let e := (s.chan c).entry
  let (v, ra) := if s.ra.encoder = some c then ropeStages e s.params.loopLen n t s.ra else (.spare, s.ra)
  let rt := creditVerdict v s.now (s.chan c).rt
  let s := setRt c rt { s with ra := ra }
  match v with
  | .travel => afterTravel c s
  | .jump => if e.persistence ≤ rt.runCount then failChannel follow c s else s
  | .base => s
  | .repeated => s
  | .spare => s

end Sys2Proof.Machine
end

