-- ==== Sys2Proof/Machine/Event.lean ====
section
/-! DEFINITION. How a command's effect becomes its outcome, and the timers of LS and DS that a command runs out. -/

namespace Sys2Proof.Machine

/-- R206: an event of the part; while the reset pin is held low the part takes none. -/
def event (f : State → State) (s : State) : Host.Outcome State Fault Refusal :=
  .next (if s.resetHeld then s else f s)

/-- An operation on one of the berths 1..B. -/
def forBerth (j : Nat) (f : Nat → State → State) (s : State) : State := if s.isBerth j then f j s else s

/-- R57: the start time limit runs out. -/
def startLimitOut (s : State) : State :=
  match s.ls.startTimer with
  | some t => startTimeout follow (reach (t + s.params.startTime * 1000) s)
  | none => s

/-- R59: the stop time limit runs out. -/
def stopLimitOut (s : State) : State :=
  match s.ls.stopTimer with
  | some t => stopTimeout follow (reach (t + s.params.stopTime * 1000) s)
  | none => s

/-- R64: the auto-slow timer reaches its period. -/
def autoSlowPeriodOut (s : State) : State :=
  match s.ls.autoSlow, autoSlowPeriod s.params.idleSlow with
  | some t, some d => autoSlowOut follow (reach (t + d) s)
  | _, _ => s

/-- R63: the refresh interval runs out. -/
def refreshOut (s : State) : State := sendDrive (reach s.ls.refreshAt s)

/-- R102: the open delay of berth `j` runs out. -/
def openDelayEnd (j : Nat) (s : State) : State :=
  match (s.door j).openDelay with
  | some t => openDelayOut j (reach t s)
  | none => s

/-- R105: the gather window timer runs out. -/
def windowOut (s : State) : State :=
  match s.ds.windowTimer with
  | some t => closeGather (reach t s)
  | none => s

/-- R105: the gather cap timer runs out. -/
def capOut (s : State) : State :=
  match s.ds.capTimer with
  | some t => closeGather (reach t s)
  | none => s

end Sys2Proof.Machine
end

