-- ==== Sys2Proof/Machine/Loader.lean ====
section
/-! DEFINITION. CL: the start-up load, profile loads and their application, and the reset of the part (chapter 11). -/

namespace Sys2Proof.Machine

/-! ## The end of the start-up load (R198, R202) -/

/-- R198, step 6: a pending profile begins, or becomes none while the pointers are invalid. -/
def pendingProfile (s : State) : State :=
  if s.cl.pointers.isSome then afterProfile s else { s with cl := { s.cl with pending := none } }

/-- R198: the start-up load ends with an outcome. The link leaves DOWN, and the attention detector begins to watch
(R129). -/
def loadEnd (o : StartOutcome) (s : State) : State :=
  let s1 := { s with
    ls := { s.ls with commissioned := o == .complete }
    cl := { s.cl with outcome := o, load := .ready, phase := .idle } }
  pendingProfile (setFlag .loadDone (enterSyncing (restartDetection s1)))

/-- R200: the skip count of the start-up load rises. -/
def skipOne (s : State) : State := { s with cl := { s.cl with skip := bump s.cl.skip } }

/-- R200, R201, R202: the loader goes on to the first record of the next segment that holds one, or ends the load. -/
def nextSegment : List Nat → State → State
  | [], s => loadEnd (if s.cl.skip = 0 then .complete else .skipped) s
  | i :: rest, s =>
    let (a, b) := s.segment i
    if a = b then nextSegment rest s
    else if b < a + 4 then nextSegment rest (skipOne s)
    else { s with cl := { s.cl with phase := .segment i a rest } }

/-- R201: the start-up segments in reading order: COMMON, CHANNELS, the BERTHS segment of B, FLEET, PHONES. -/
def State.startSegments (s : State) : List Nat := [0, 1, 2 + s.straps.berths.toNat, 6, 7]

/-- R201: the read of the descriptor completes; none when the memory did not answer. -/
def descriptorRead (read : Option (List Byte)) (s : State) : State :=
  match s.cl.load, s.cl.phase with
  | .loading, .descriptor =>
    match read with
    | none => loadEnd .noMemory s
    | some bs =>
      match parseDescriptor bs with
      | none => loadEnd .badSignature s
      | some ps => nextSegment s.startSegments { s with cl := { s.cl with pointers := some ps } }
  | _, _ => s

/-! ## Records (R200, R201) -/

/-- 11.3: whether a segment may hold records of a table. -/
def segmentHolds (seg table : Nat) : Bool :=
  match seg with
  | 0 => table == tableLineParams
  | 1 => table == tableChannel
  | 2 => table == tableBerth
  | 3 => table == tableBerth
  | 4 => table == tableBerth
  | 5 => table == tableBerth
  | 6 => table == tableFleet
  | 7 => table == tablePhone
  | _ => table == tableChannel || table == tableLineParams

/-- R200: the address after a record that begins at `addr`. -/
def MemRecord.next (r : MemRecord) (addr : Nat) : Nat := addr + 4 + r.length.toNat

/-- R200: a record that the segment may hold, with its table's entry length. -/
def usable (seg : Nat) (r : MemRecord) : Bool :=
  segmentHolds seg r.tableId.toNat && entryLength r.tableId.toNat == some r.length.toNat

/-- R201: a well-formed record is applied as a write of the start-up load; none when its owner judges it invalid. -/
def applyRecord (r : MemRecord) (s : State) : Option State :=
  let i := r.index.toNat
  match r.tableId.toNat with
  | 0 => (validChan i r.contents s).toOption.map fun e => applyChan follow i e s
  | 1 => (validBerth true i r.contents s).toOption.map fun e => applyBerth i e s
  | 2 => (fleetWrite true i (u16 r.contents 0) s).toOption
  | 3 => (validPhone i r.contents s).toOption.map fun e => applyPhone i e s
  | 4 => (validLine i r.contents).toOption.map fun p => applyLine follow p s
  | _ => none

/-- R200, R201: a start-up record is applied, or skipped and counted. -/
def applyOrSkip (seg : Nat) (r : MemRecord) (s : State) : State :=
  if usable seg r then (applyRecord r s).getD (skipOne s) else skipOne s

/-- R200: the loader goes on to the record at an address of a segment. -/
def advance (seg addr : Nat) (rest : List Nat) (s : State) : State :=
  let stop := (s.segment seg).2
  if addr = stop then nextSegment rest s
  else if stop < addr + 4 then nextSegment rest (skipOne s)
  else { s with cl := { s.cl with phase := .segment seg addr rest } }

/-- What a loader makes of the bytes read of a record; fewer than a header's are no record. -/
def withRecord (bytes : List Byte) (f : MemRecord → State → State) (s : State) : State :=
  match MemRecord.ofBytes bytes with
  | some r => f r s
  | none => s

/-- R199: as much of a record as CL reads has been read: the header, and the contents when the header is usable. Any
other bytes are no read of CL's (log entry 74). -/
def fetched (seg addr : Nat) (r : MemRecord) (s : State) : Bool :=
  r.contents.length == if r.next addr ≤ (s.segment seg).2 ∧ usable seg r then r.length.toNat else 0

/-- R200, R201: a start-up record has been read. -/
def configRecord (r : MemRecord) (s : State) : State :=
  match s.cl.load, s.cl.phase with
  | .loading, .segment seg addr rest =>
    if !fetched seg addr r s then s
    else if (s.segment seg).2 < r.next addr then nextSegment rest (skipOne s)
    else advance seg (r.next addr) rest (applyOrSkip seg r s)
  | _, _ => s

/-! ## Profile loads (R46, R204, R205) -/

/-- R205: a load whose application has just begun and ended with nothing staged gives way to a pending profile. -/
def applying (p : Profile) (s : State) : State :=
  let s1 := enterApplying p s
  if s1.cl.profile = .idle then afterProfile s1 else s1

/-- R204: the profile's skip count rises. -/
def skipProfile (s : State) : State := { s with cl := { s.cl with profileSkip := bump s.cl.profileSkip } }

/-- R204: a profile record is staged, or counted as skipped. -/
def stage (seg : Nat) (r : MemRecord) (s : State) : State :=
  if usable seg r ∧ s.cl.staging.length < Config.stagingCap then
    { s with cl := { s.cl with staging := s.cl.staging ++ [r] } }
  else skipProfile s

/-- R204: a profile record has been read. -/
def profileRecord (r : MemRecord) (s : State) : State :=
  match s.cl.profile with
  | .reading p addr =>
    let stop := (s.segment p.segment).2
    let next := r.next addr
    if !fetched p.segment addr r s then s
    else if stop < next then applying p (skipProfile s)
    else
      let s1 := stage p.segment r s
      if next = stop then applying p s1
      else if stop < next + 4 then applying p (skipProfile s1)
      else { s1 with cl := { s1.cl with profile := .reading p next } }
  | .idle => s
  | .applying _ => s

/-- R46: whether an entry only tightens, or changes nothing. -/
def tightens (r : MemRecord) (s : State) : Bool :=
  if r.tableId.toNat = tableChannel then
    match validChan r.index.toNat r.contents s with
    | .ok e =>
      let o := (s.chan r.index.toNat).entry
      !chanStructural o e && !chanLoosens o e
    | .error _ => true
  else
    let p := LineParams.ofBytes r.contents
    !lineStructural s.params p && !lineLoosens s.params p

/-- R46: whether a profile entry is valid. -/
def validEntry (r : MemRecord) (s : State) : Bool :=
  if r.tableId.toNat = tableChannel then (validChan r.index.toNat r.contents s).toOption.isSome
  else (validLine r.index.toNat r.contents).toOption.isSome

/-- R46: CM judges one profile entry. -/
def profileEntry (r : MemRecord) (s : State) : State :=
  if !validEntry r s then s
  else if s.ls.line = .stopped ∨ tightens r s = true then applyLoaded follow r s
  else { s with cm := { s.cm with deferred := s.cm.deferred ++ [r] } }

/-- R205: the application of a profile ends. -/
def applyEnd (s : State) : State :=
  afterProfile (setFlag .profileApplied { s with cl := { s.cl with
    profile := .idle, staging := [], lastOutcome := .applied, lastSkip := s.cl.profileSkip } })

/-- R46, R205: one staged entry is handed to CM; after the last one the application ends. -/
def profileApply (s : State) : State :=
  match s.cl.profile, s.cl.staging with
  | .applying _, r :: rest =>
    let s1 := profileEntry r { s with cl := { s.cl with staging := rest } }
    if rest.isEmpty then applyEnd s1 else s1
  | _, _ => s

/-! ## Read failures (R199, R201, R204) -/

/-- R199: a memory read fails. -/
def readFail (s : State) : State :=
  match s.cl.load, s.cl.phase, s.cl.profile with
  | .loading, .descriptor, _ => loadEnd .noMemory s
  | .loading, .segment _ _ _, _ => loadEnd .readFailed s
  | .ready, _, .reading _ _ =>
    afterProfile { s with cl := { s.cl with
      profile := .idle, staging := [], lastOutcome := .readFailed, lastSkip := s.cl.profileSkip } }
  | _, _, _ => s

/-! ## Reset (R206) -/

/-- R206: reset ends: every block takes its reset values, the straps are sampled, and the start-up load begins; with
the memory-present strap at 0 it ends at once (R201). -/
def resetPart (straps : Straps) (s : State) : State :=
  let s1 := State.blocksReset straps s.now s.freeCount s.pending
  if straps.memory then s1 else loadEnd .noMemory s1

/-- R206: the reset pin is held low: LOOP-OUT is idle and DE low, and the part takes no event. -/
def resetLow (s : State) : State :=
  { s with resetHeld := true, lr := { s.lr with out := .idle }, sl := { s.sl with tx := .quiet } }

end Sys2Proof.Machine
end

