-- ==== Sys2Proof/Machine/Sample.lean ====
section
/-! DEFINITION. CM's judging of SAMPLE readings by the channels' kinds (2.2 to 2.6), and the two timers of a channel. -/

namespace Sys2Proof.Machine

/-! ## Window kinds (R25, R26) -/

/-- R25: the side on which a reading lies out of the window, none inside it. -/
def outSide (e : ChanEntry) (x : Nat) : Option Side :=
  if x < e.low then some .low else if e.high < x then some .high else none

/-- R25: the return band. -/
def inReturnBand (e : ChanEntry) (x : Nat) : Bool :=
  decide (e.low + e.hysteresis ≤ x ∧ x + e.hysteresis ≤ e.high)

/-- R25: a reading out on a side raises the run count, or starts a run. -/
def runOn (side : Side) (rt : Runtime) : Runtime :=
  if rt.runCount ≠ 0 ∧ rt.runSide = side then { rt with runCount := rt.runCount + 1 }
  else { rt with runCount := 1, runSide := side }

/-- The condition of a side (R25). -/
def Side.condition : Side → Condition
  | .low => .outLow | .high => .outHigh

/-- The fault of a side (R25). -/
def Side.faultCode : Side → FaultCode
  | .low => .outLow | .high => .outHigh

/-- The side of a condition that is OUT. -/
def Condition.side : Condition → Option Side
  | .outLow => some .low | .outHigh => some .high | .normal => none | .stale => none

/-- R25, R26: the runtime record after a reading of a window kind. -/
def windowStep (e : ChanEntry) (x : Nat) (rt : Runtime) : Runtime :=
  let settle := fun (r : Runtime) (c : Condition) => { r with condition := c, runCount := 0, returnCount := 0 }
  let run := fun (r : Runtime) (side : Side) =>
    let r1 := runOn side r
    if e.persistence ≤ r1.runCount then settle r1 side.condition else r1
  match rt.condition.side, outSide e x with
  | none, none => { rt with runCount := 0 }
  | none, some side => run rt side
  | some held, some side =>
    if side = held then { rt with runCount := 0, returnCount := 0 } else run { rt with returnCount := 0 } side
  | some _, none =>
    if inReturnBand e x then
      if e.persistence ≤ rt.returnCount + 1 then settle rt .normal
      else { rt with runCount := 0, returnCount := rt.returnCount + 1 }
    else { rt with runCount := 0, returnCount := 0 }

/-- R25, R26: a reading of a TENSION or ROPE_OFFSET channel: the old side's fault is reported gone, then the new
side's raised. -/
def windowReading (c : Nat) (x : Nat) (s : State) : State :=
  let e := (s.chan c).entry
  let rt := (s.chan c).rt
  let rt1 := windowStep e x rt
  let s1 := setRt c rt1 s
  if rt1.condition = rt.condition then s1
  else
    let s2 := match rt.condition.side with
      | some side => gone (.channel c) side.faultCode s1
      | none => s1
    match rt1.condition.side with
    | some side => raise (classFault c side.faultCode e.cls) s2
    | none => s2

/-! ## Wind (R28) -/

/-- R28: one level and its count after a reading. -/
def levelStep (p entry exit x : Nat) (level : Bool) (count : Nat) : Bool × Nat :=
  let toward := if level then decide (x < exit) else decide (entry ≤ x)
  if toward then if p ≤ count + 1 then (!level, 0) else (level, count + 1) else (level, 0)

/-- R28: the runtime record after a WIND reading. -/
def windStep (e : ChanEntry) (x : Nat) (rt : Runtime) : Runtime :=
  let (w, wc) := levelStep e.persistence e.low (e.low - e.hysteresis) x rt.windy rt.windyCount
  let (t, tc) := levelStep e.persistence e.high (e.high - e.hysteresis) x rt.storm rt.stormCount
  { rt with windy := w, windyCount := wc, storm := t, stormCount := tc }

/-- R28: the fault of a band. -/
def windFault (c : Nat) : Band → Option Raise
  | .calm => none
  | .windy => some { source := .channel c, code := .windWindy, cls := .slow, latched := false, present := true }
  | .storm => some { source := .channel c, code := .windStorm, cls := .stop, latched := false, present := true }

/-- R28, R29: a reading of a WIND channel. -/
def windReading (c : Nat) (x : Nat) (s : State) : State :=
  let rt := (s.chan c).rt
  let rt1 := windStep (s.chan c).entry x rt
  let s1 := setRt c rt1 s
  if rt1.band = rt.band then s1
  else
    let s2 := match windFault c rt.band with
      | some f => gone f.source f.code s1
      | none => s1
    let s3 := match windFault c rt1.band with
      | some f => raise f s2
      | none => s2
    formBand s3

/-! ## Counter kinds (R30, R31) and event kinds (R32, R33) -/

/-- MARK_SKIP (R30). -/
def markSkip (c : Nat) : Raise :=
  { source := .channel c, code := .markSkip, cls := .stop, latched := true, present := true }

/-- R30: a reading of a TRACK_MARK channel. -/
def markReading (c : Nat) (x : Word16) (s : State) : State :=
  let rt := (s.chan c).rt
  let s1 := setRt c { rt with counterBase := some x } s
  match rt.counterBase with
  | none => s1
  | some base =>
    let d := (x - base).toNat
    if d = 0 then s1
    else if d = 1 then passageEvent (s.chan c).entry.boundary (gone (.channel c) .markSkip s1)
    else raise (markSkip c) s1

/-- R31, R64: a passage notice restarts the auto-slow timer. -/
def passageNotice (s : State) : State :=
  if (s.ls.line = .running ∨ s.ls.line = .slowed) ∧ s.params.idleSlow ≠ 0 then
    gone .line .autoSlow { s with ls := { s.ls with autoSlow := some s.now } }
  else s

/-- R31: a reading of a PASSAGE channel. -/
def passageReading (c : Nat) (x : Word16) (s : State) : State :=
  let rt := (s.chan c).rt
  let s1 := setRt c { rt with counterBase := some x } s
  match rt.counterBase with
  | none => s1
  | some base => if x = base then s1 else passageNotice s1

/-- R32: a reading of a CABIN_ID channel. -/
def cabinIdReading (x : Word16) (s : State) : State := cabinIdEvent (if x.toNat ≤ 999 then x.toNat else 0) s

/-- R33: a reading of a GRIP_FORCE channel. -/
def gripReading (c : Nat) (x : Word16) (s : State) : State :=
  let e := (s.chan c).entry
  gripTest x (decide (e.low ≤ x.toNat ∧ x.toNat ≤ e.high)) s

/-! ## Matching (R23, R24, R194) -/

/-- R24: an accepted sample. -/
def accepted (c : Nat) (s : State) : State := setRt c { (s.chan c).rt with lastAccepted := s.now } s

/-- R23: a reading of an ACTIVE channel, judged by its kind; RA's verdict credits the encoder kind itself. -/
def judgeReading (c : Nat) (x t : Word16) (s : State) : State :=
  match (s.chan c).entry.kind with
  | .encoder => encoderReading c x t s
  | .tension => windowReading c x.toNat (accepted c s)
  | .ropeOffset => windowReading c x.toNat (accepted c s)
  | .wind => windReading c x.toNat (accepted c s)
  | .trackMark => markReading c x (accepted c s)
  | .passage => passageReading c x (accepted c s)
  | .cabinId => cabinIdReading x (accepted c s)
  | .gripForce => gripReading c x (accepted c s)

/-- R194: DR takes a reading of the captured channel. -/
def captureReading (c : Nat) (x t : Word16) (s : State) : State :=
  match s.dr.capture with
  | some k =>
    if k.channel ≠ c ∨ k.remaining = 0 ∨ k.written then s
    else if Config.captureCap ≤ k.buffer.length then { s with dr := { s.dr with capture := some { k with gap := true } } }
    else
      { s with dr := { s.dr with capture := some { k with
          buffer := k.buffer ++ [{ reading := x, stamp := t, gap := k.gap, subst := k.subst }]
          gap := false, subst := false, remaining := k.remaining - 1 } } }
  | none => s

/-- R23: a reading whose slot is present in the frame. -/
def takeReading (c : Nat) (x t : Word16) (s : State) : State :=
  let s1 := captureReading c x t s
  let s2 := setRt c { (s1.chan c).rt with lastReading := x } s1
  if (s2.chan c).entry.state = .active then judgeReading c x t s2 else s2

/-- R23: a frame that does not reach the channel's slot: the idle frame of a CABIN_ID or GRIP_FORCE head. -/
def slotAbsent (c : Nat) (s : State) : State :=
  let e := (s.chan c).entry
  if e.state = .active ∧ (e.kind = .cabinId ∨ e.kind = .gripForce) then accepted c s else s

/-- R23: the entry that a node and slot match. -/
def State.channelAt (s : State) (node slot : Nat) : Option Nat :=
  (List.range 48).find? fun c =>
    (s.chan c).entry.state != .unused && (s.chan c).entry.node == node && (s.chan c).entry.slot == slot

/-- R23: one slot of a SAMPLE frame. -/
def takeSlot (src : Byte) (t : Word16) (readings : List Word16) (s : State) (slot : Nat) : State :=
  match s.channelAt src.toNat slot with
  | none => s
  | some c =>
    match readings[slot]? with
    | some x => takeReading c x t s
    | none => slotAbsent c s

/-- R23: CM takes a SAMPLE frame; the readings are judged in slot order. -/
def sampleFrame (src : Byte) (payload : List Byte) (s : State) : State :=
  match parseSample payload with
  | none => s
  | some (t, readings) => (List.range 8).foldl (takeSlot src t readings) s

/-! ## Timers (R24, R41) -/

/-- R24: the stale time of channel `c` runs out. -/
def staleOut (c : Nat) (s : State) : State :=
  let ch := s.chan c
  if ch.entry.state = .active then failChannel follow c (reach (ch.rt.lastAccepted + ch.entry.staleTime * 10) s)
  else s

/-- R41: a minute of channel `c`'s bypass ends. -/
def bypassMinute (c : Nat) (s : State) : State :=
  match (s.chan c).bypass with
  | none => s
  | some b =>
    let s1 := reach b.minuteEnd s
    if b.minutes ≤ 1 then endBypass follow c s1
    else
      setChan c { s1.chan c with bypass := some { minutes := b.minutes - 1, minuteEnd := b.minuteEnd + Config.minute } } s1

end Sys2Proof.Machine
end

