-- ==== Sys2Proof/Machine/Loop.lean ====
section
/-! DEFINITION. LR: frames on LOOP-IN and LOOP-OUT, insertion, and the loop-closed check (chapter 9). -/

namespace Sys2Proof.Machine

/-! ## Returns (R177, R178) -/

/-- R177: a stripped frame matches an entry. -/
def OutEntry.matchesFrame (e : OutEntry) (f : Frame) : Bool :=
  e.kind == f.kind && e.dest == f.dest && e.tag == f.tag && e.check == f.check

/-- R178: a frame of the part has returned. -/
def loopReturn (s : State) : State :=
  let s1 := { s with lr := { s.lr with loop := .closed } }
  if s.lr.loop = .opened then gone .loop .loopOpen s1 else s1

/-- R177: a stripped frame is compared with the outstanding list. -/
def strip (f : Frame) (s : State) : State :=
  match s.lr.outstanding.findIdx? (fun e => e.matchesFrame f) with
  | none => s
  | some k =>
    let s1 := { s with lr := { s.lr with outstanding := s.lr.outstanding.drop (k + 1) } }
    loopReturn (if k = 0 then s1 else setFlag .loopErr s1)

/-- LOOP_OPEN (R178). -/
def loopOpenFault : Raise := { source := .loop, code := .loopOpen, cls := .stop, latched := false, present := true }

/-- R178: the oldest entry's return deadline runs out. -/
def returnOverdue (s : State) : State :=
  match s.lr.outstanding with
  | [] => s
  | e :: es =>
    let s1 := reach e.deadline { s with lr := { s.lr with outstanding := es, loop := .opened } }
    if s.lr.loop = .opened then s1 else raise loopOpenFault s1

/-! ## Frames consumed and forwarded (R165 to R169) -/

/-- R166: a consumed REQUEST joins the request queue, or is discarded. -/
def queueRequest (f : Frame) (s : State) : State :=
  if s.lr.requests.length < Config.relayCap then
    { s with lr := { s.lr with
        requests := s.lr.requests ++ [{ source := f.source, tag := f.tag, payload := f.payload }] } }
  else setFlag .reqOverrun s

/-- R166: a consumed frame is handed on by its kind. -/
def consume (f : Frame) (s : State) : State :=
  if f.kind = 0x10 then sampleFrame f.source f.payload s
  else if f.kind = 0x21 then doorStatus f.source f.payload s
  else if f.kind = 0x40 then callFrame f.source f.payload s
  else if f.kind = 0x41 then voiceFrame f.source f.payload s
  else if f.kind = 0x50 then queueRequest f s
  else s

/-- R168, R169: a frame to be forwarded is taken at once, joins the relay buffer, or is discarded. -/
def forwardFrame (bytes : List Byte) (s : State) : State :=
  if s.lr.out = .idle ∧ s.lr.relay = [] then { s with lr := { s.lr with out := .forwarding bytes } }
  else if s.lr.relay.length < Config.relayCap then { s with lr := { s.lr with relay := s.lr.relay ++ [bytes] } }
  else setFlag .loopOverrun s

/-- R164, R165: a frame has arrived on LOOP-IN. -/
def frameReceived (bytes : List Byte) (s : State) : State :=
  match parseFrame bytes with
  | none => setFlag .loopErr s
  | some f =>
    if f.source = s.ownAddress then strip f s
    else if f.dest = s.ownAddress then consume f s
    else if f.dest = 127 ∧ f.kind = 0x10 then forwardFrame bytes (sampleFrame f.source f.payload s)
    else forwardFrame bytes s

/-- R168: LOOP-OUT is idle, and takes the oldest frame of the relay buffer. -/
def outIdle (s : State) : State :=
  match s.lr.relay with
  | [] => { s with lr := { s.lr with out := .idle } }
  | b :: rest => { s with lr := { s.lr with out := .forwarding b, relay := rest } }

/-- R168: a forwarded frame has been sent. -/
def forwardSent (s : State) : State :=
  match s.lr.out with
  | .forwarding _ => outIdle s
  | .idle => s
  | .inserting _ _ => s

/-! ## Insertion (R173, R174, R176) -/

/-- R173: the frame the arbiter takes, and the state with it gone from its queue; a DOOR frame gives DS a notice, a
REPORT frame gives DR one for a waiting request (R171, R172). -/
def chooseFrame (s : State) : Option (QFrame × State) :=
  match s.lr.safety, s.lr.door, s.lr.voice, s.lr.report with
  | f :: q, _, _, _ => some (f, { s with lr := { s.lr with safety := q } })
  | [], f :: q, _, _ =>
    some (f, { s with
      lr := { s.lr with door := q }
      ds := { s.ds with notices := min (s.ds.notices + 1) s.ds.waiting.length } })
  | [], [], f :: q, _ => some (f, { s with lr := { s.lr with voice := q } })
  | [], [], [], f :: q =>
    some (f, { s with
      lr := { s.lr with report := q }
      dr := { s.dr with placeNotice := s.dr.placeNotice || !s.lr.requests.isEmpty } })
  | [], [], [], [] => none

/-- R174: the frame is completed and its sending begins. -/
def sendInserted (f : QFrame) (s : State) : State :=
  let tag := if f.kind = .reply then f.tag else s.lr.insertion
  let bytes := frameBytes (BitVec.ofNat 8 f.dest) s.ownAddress f.kind.code tag f.payload
  { s with lr := { s.lr with
      out := .inserting bytes f.restart
      insertion := if f.kind = .reply then s.lr.insertion else s.lr.insertion + 1 } }

/-- R173: the arbiter begins an insertion. -/
def insertionStart (s : State) : State :=
  if s.lr.out = .idle ∧ s.lr.relay = [] ∧ s.lr.outstanding.length < Config.doorCap then
    match chooseFrame s with
    | some (f, t) => sendInserted f t
    | none => s
  else s

/-- R175, R176: the outstanding entry of an inserted frame. -/
def outEntry (bytes : List Byte) (now : Nat) : OutEntry :=
  { kind := bytes.getD 2 0, dest := bytes.getD 0 0, tag := bytes.getD 3 0,
    check := BitVec.ofNat 16 (u16 bytes (bytes.length - 2)), deadline := now + Config.returnTime }

/-- R176, R190: an insertion ends; the end of a RESTART's REPLY resets the part. -/
def insertionEnd (straps : Straps) (s : State) : State :=
  match s.lr.out with
  | .inserting bytes restart =>
    if restart then resetPart straps s
    else outIdle { s with lr := { s.lr with outstanding := s.lr.outstanding ++ [outEntry bytes s.now] } }
  | .idle => s
  | .forwarding _ => s

end Sys2Proof.Machine
end

