-- ==== Sys2Proof/Machine/DeskCommands.lean ====
section
/-! DEFINITION. DR's commands: the desk requests, the key timer and the reports (chapter 10). Each command has one meaning. -/

namespace Sys2Proof.Machine

/-- STATUS (R186). -/
def execStatus (s : State) : Host.Outcome State Fault Refusal :=
  event (takeRequest (hasCode 0x01) fitsBare (plain judgeStatusRequest)) s

/-- READ_ENTRY (R184). -/
def execReadEntry (s : State) : Host.Outcome State Fault Refusal :=
  event (takeRequest (hasCode 0x02) fitsRead (plain judgeRead)) s

/-- WRITE_ENTRY_CHANNEL (R42). -/
def execWriteEntryChannel (s : State) : Host.Outcome State Fault Refusal :=
  event (takeRequest (hasSub 0x03 1 5 0) fitsWrite (plain writeChannel)) s

/-- WRITE_ENTRY_LINE_PARAMS (R66). -/
def execWriteEntryLineParams (s : State) : Host.Outcome State Fault Refusal :=
  event (takeRequest (hasSub 0x03 1 5 4) fitsWrite (plain writeLine)) s

/-- WRITE_ENTRY_BERTH (R94). -/
def execWriteEntryBerth (s : State) : Host.Outcome State Fault Refusal :=
  event (takeRequest (hasSub 0x03 1 5 1) fitsWrite (plain writeBerth)) s

/-- WRITE_ENTRY_FLEET (R70). -/
def execWriteEntryFleet (s : State) : Host.Outcome State Fault Refusal :=
  event (takeRequest (hasSub 0x03 1 5 2) fitsWrite (plain writeFleet)) s

/-- WRITE_ENTRY_PHONE (R150). -/
def execWriteEntryPhone (s : State) : Host.Outcome State Fault Refusal :=
  event (takeRequest (hasSub 0x03 1 5 3) fitsWrite (plain writePhone)) s

/-- LINE_RUN (R56). -/
def execLineRun (s : State) : Host.Outcome State Fault Refusal :=
  event (takeRequest (hasSub 0x04 1 3 0) fitsLine (plain fun _ t => judgeLine .run t)) s

/-- LINE_SLOW (R56). -/
def execLineSlow (s : State) : Host.Outcome State Fault Refusal :=
  event (takeRequest (hasSub 0x04 1 3 1) fitsLine (plain fun _ t => judgeLine .slow t)) s

/-- LINE_STOP (R56). -/
def execLineStop (s : State) : Host.Outcome State Fault Refusal :=
  event (takeRequest (hasSub 0x04 1 3 2) fitsLine (plain fun _ t => judgeLine .stop t)) s

/-- DOOR_OPEN (R110). -/
def execDoorOpen (s : State) : Host.Outcome State Fault Refusal :=
  event (takeRequest (hasSub 0x05 2 4 0) fitsDoor (plain fun p t => acceptedOr (requestOpen (u8 p 1) t) t)) s

/-- DOOR_CLOSE (R110). -/
def execDoorClose (s : State) : Host.Outcome State Fault Refusal :=
  event (takeRequest (hasSub 0x05 2 4 1) fitsDoor (plain fun p t => acceptedOr (requestClose (u8 p 1) t) t)) s

/-- DOOR_HOLD (R111). -/
def execDoorHold (s : State) : Host.Outcome State Fault Refusal :=
  event (takeRequest (hasSub 0x05 2 4 2) fitsDoor (plain fun p t => acceptedOr (requestHold (u8 p 1) t) t)) s

/-- DOOR_RELEASE (R111). -/
def execDoorRelease (s : State) : Host.Outcome State Fault Refusal :=
  event (takeRequest (hasSub 0x05 2 4 3) fitsDoor (plain fun p t => acceptedOr (requestRelease (u8 p 1) t) t)) s

/-- DOOR_RESET (R113). -/
def execDoorReset (s : State) : Host.Outcome State Fault Refusal :=
  event (takeRequest (hasCode 0x06) (fun p => p.length == 2) (plain fun p t => doneOr (requestDoorReset (u8 p 1) t) t)) s

/-- CABIN_INSERT (R86). -/
def execCabinInsert (s : State) : Host.Outcome State Fault Refusal :=
  event (takeRequest (hasSub 0x07 1 5 0) fitsCabin (plain fun p t => doneOr (requestInsert (u16 p 2) t) t)) s

/-- CABIN_WITHDRAW (R87). -/
def execCabinWithdraw (s : State) : Host.Outcome State Fault Refusal :=
  event (takeRequest (hasSub 0x07 1 5 1) fitsCabin (plain fun p t => doneOr (requestWithdraw (u16 p 2) t) t)) s

/-- CABIN_ASSIGN (R88). -/
def execCabinAssign (s : State) : Host.Outcome State Fault Refusal :=
  event (takeRequest (hasSub 0x07 1 5 2) fitsCabin (plain fun p t => doneOr (requestAssign (u16 p 2) t) t)) s

/-- CABIN_RETEST (R90). -/
def execCabinRetest (s : State) : Host.Outcome State Fault Refusal :=
  event (takeRequest (hasSub 0x07 1 5 3) fitsCabin (plain fun p t => doneOr (requestRetest (u16 p 2) t) t)) s

/-- CABIN_PLACE (R89). -/
def execCabinPlace (s : State) : Host.Outcome State Fault Refusal :=
  event (takeRequest (hasSub 0x07 1 5 4) fitsPlace (plain judgePlace)) s

/-- CLEAR_FAULT (R53). -/
def execClearFault (s : State) : Host.Outcome State Fault Refusal :=
  event (takeRequest (hasCode 0x08) (fun p => p.length == 3) (plain judgeClear)) s

/-- FLAGS (R191). -/
def execFlags (s : State) : Host.Outcome State Fault Refusal :=
  event (takeRequest (hasCode 0x09) (fun p => p.length == 7) (plain judgeFlags)) s

/-- CAPTURE (R193). -/
def execCapture (s : State) : Host.Outcome State Fault Refusal :=
  event (takeRequest (hasCode 0x0A) fitsCapture (plain judgeCapture)) s

/-- SUMMIT_NOTE (R136). -/
def execSummitNote (s : State) : Host.Outcome State Fault Refusal :=
  event (takeRequest (hasCode 0x0B) fitsNote (plain judgeNote)) s

/-- KEY_A (R187). -/
def execKeyA (s : State) : Host.Outcome State Fault Refusal :=
  event (takeRequest (hasCode 0x0C) fitsBare judgeKeyA) s

/-- KEY_B (R187). -/
def execKeyB (s : State) : Host.Outcome State Fault Refusal :=
  event (takeRequest (hasCode 0x0D) fitsBare judgeKeyB) s

/-- TRIP_RESET (R61). -/
def execTripReset (s : State) : Host.Outcome State Fault Refusal :=
  event (takeRequest (hasCode 0x0E) fitsBare (keyed judgeTripReset)) s

/-- BYPASS (R39). -/
def execBypass (s : State) : Host.Outcome State Fault Refusal :=
  event (takeRequest (hasCode 0x0F) fitsBypass (keyed judgeBypass)) s

/-- REINSTATE (R38). -/
def execReinstate (s : State) : Host.Outcome State Fault Refusal :=
  event (takeRequest (hasCode 0x10) fitsReinstate (keyed judgeReinstate)) s

/-- COMMISSION (R189). -/
def execCommission (s : State) : Host.Outcome State Fault Refusal :=
  event (takeRequest (hasCode 0x11) fitsBare (keyed judgeCommission)) s

/-- RESTART (R190). -/
def execRestart (s : State) : Host.Outcome State Fault Refusal :=
  event (takeRequest (hasCode 0x12) fitsBare judgeRestart) s

/-- UNKNOWN_REQUEST (R182). -/
def execUnknownRequest (s : State) : Host.Outcome State Fault Refusal :=
  event (takeRequest noCode (fun _ => true) (plain judgeUnknown)) s

/-- KEY_TIMER_EXPIRY (R187). -/
def execKeyTimerExpiry (s : State) : Host.Outcome State Fault Refusal :=
  event keyOut s

/-- FLAG_REPORT (R192). -/
def execFlagReport (s : State) : Host.Outcome State Fault Refusal :=
  event flagReport s

/-- CAPTURE_BLOCK_REPORT (R195). -/
def execCaptureBlockReport (s : State) : Host.Outcome State Fault Refusal :=
  event captureReport s

/-- NOTE_REPORT (R192). -/
def execNoteReport (s : State) : Host.Outcome State Fault Refusal :=
  event noteReport s

end Sys2Proof.Machine
end

