-- ==== Sys2Proof/Machine/DoorCommands.lean ====
section
/-! DEFINITION. The commands of DS's own timers and of its waiting frames (chapter 5). Each command has one meaning. -/

namespace Sys2Proof.Machine

/-- OPEN_DELAY_EXPIRY (R102). -/
def execOpenDelayExpiry (berth : Nat) (s : State) : Host.Outcome State Fault Refusal :=
  event (forBerth berth openDelayEnd) s

/-- DWELL_EXPIRY (R104). -/
def execDwellExpiry (berth : Nat) (s : State) : Host.Outcome State Fault Refusal :=
  event (forBerth berth dwellOut) s

/-- GATHER_WINDOW_EXPIRY (R105). -/
def execGatherWindowExpiry (s : State) : Host.Outcome State Fault Refusal :=
  event windowOut s

/-- GATHER_CAP_EXPIRY (R105). -/
def execGatherCapExpiry (s : State) : Host.Outcome State Fault Refusal :=
  event capOut s

/-- ACK_TIMER_EXPIRY (R98). -/
def execAckTimerExpiry (berth : Nat) (s : State) : Host.Outcome State Fault Refusal :=
  event (forBerth berth ackOut) s

/-- MOTION_TIMER_EXPIRY (R100). -/
def execMotionTimerExpiry (berth : Nat) (s : State) : Host.Outcome State Fault Refusal :=
  event (forBerth berth motionOut) s

/-- HOLD_TIMER_EXPIRY (R111). -/
def execHoldTimerExpiry (berth : Nat) (s : State) : Host.Outcome State Fault Refusal :=
  event (forBerth berth holdOut) s

/-- DOOR_QUEUE_PLACE (R97). -/
def execDoorQueuePlace (s : State) : Host.Outcome State Fault Refusal :=
  event placeLongestWaiting s

end Sys2Proof.Machine
end

