-- ==== Sys2Proof/Machine/LineCommands.lean ====
section
/-! DEFINITION. The commands of CM's and LS's own timers (chapters 2 and 3). Each command has one meaning. -/

namespace Sys2Proof.Machine

/-- STALE_TIME_EXPIRY (R24). -/
def execStaleTimeExpiry (channel : Nat) (s : State) : Host.Outcome State Fault Refusal :=
  event (staleOut channel) s

/-- BYPASS_MINUTE_TICK (R41). -/
def execBypassMinuteTick (channel : Nat) (s : State) : Host.Outcome State Fault Refusal :=
  event (bypassMinute channel) s

/-- START_TIME_LIMIT_EXPIRY (R57). -/
def execStartTimeLimitExpiry (s : State) : Host.Outcome State Fault Refusal :=
  event startLimitOut s

/-- STOP_TIME_LIMIT_EXPIRY (R59). -/
def execStopTimeLimitExpiry (s : State) : Host.Outcome State Fault Refusal :=
  event stopLimitOut s

/-- AUTO_SLOW_EXPIRY (R64). -/
def execAutoSlowExpiry (s : State) : Host.Outcome State Fault Refusal :=
  event autoSlowPeriodOut s

/-- DRIVE_REFRESH_EXPIRY (R63). -/
def execDriveRefreshExpiry (s : State) : Host.Outcome State Fault Refusal :=
  event refreshOut s

end Sys2Proof.Machine
end

