-- ==== Sys2Proof/Machine/LinkCommands.lean ====
section
/-! DEFINITION. CS's timers and SL's commands (chapters 6, 7 and 8). Each command has one meaning. -/

namespace Sys2Proof.Machine

/-- RING_TIMER_EXPIRY (R159). -/
def execRingTimerExpiry (s : State) : Host.Outcome State Fault Refusal :=
  event ringOut s

/-- RING_REPEAT (R159). -/
def execRingRepeat (s : State) : Host.Outcome State Fault Refusal :=
  event ringAgain s

/-- TURN_START (R118). -/
def execTurnStart (s : State) : Host.Outcome State Fault Refusal :=
  event turnStart s

/-- VALLEY_BURST_SENT (R118). -/
def execValleyBurstSent (s : State) : Host.Outcome State Fault Refusal :=
  event burstSent s

/-- BREAK_SENT (R133). -/
def execBreakSent (s : State) : Host.Outcome State Fault Refusal :=
  event breakSent s

/-- REPLY_WINDOW_CLOSE (R119). -/
def execReplyWindowClose (s : State) : Host.Outcome State Fault Refusal :=
  event windowClose s

/-- LOST_PERIOD_END (R123). -/
def execLostPeriodEnd (s : State) : Host.Outcome State Fault Refusal :=
  event lostPeriodEnd s

/-- SUMMIT_BURST_END (R120). -/
def execSummitBurstEnd (s : State) : Host.Outcome State Fault Refusal :=
  event burstEnd s

/-- CLASH (R121). -/
def execClash (s : State) : Host.Outcome State Fault Refusal :=
  event clash s

/-- ATTENTION_INSTANT (R130). -/
def execAttentionInstant (s : State) : Host.Outcome State Fault Refusal :=
  event attentionInstant s

/-- ATTENTION_SEND_AFTER_IDLE (R130). -/
def execAttentionSendAfterIdle (s : State) : Host.Outcome State Fault Refusal :=
  event attentionAfterIdle s

/-- ATTENTION_SENT (R130). -/
def execAttentionSent (s : State) : Host.Outcome State Fault Refusal :=
  event attentionSent s

/-- ATTENTION_DETECTED (R131). -/
def execAttentionDetected (s : State) : Host.Outcome State Fault Refusal :=
  event attentionDetected s

/-- SUMMIT_BREAK_DETECT (R132). -/
def execSummitBreakDetect (s : State) : Host.Outcome State Fault Refusal :=
  event breakDetected s

/-- SUMMIT_BREAK_END (R132). -/
def execSummitBreakEnd (s : State) : Host.Outcome State Fault Refusal :=
  event breakEnded s

/-- SUMMIT_CHARACTER_RECEIVED (R129). -/
def execSummitCharacterReceived (char : Byte) (framingError : Bool) (s : State) : Host.Outcome State Fault Refusal :=
  event (characterReceived char framingError) s

/-- ATTENTION_IDLE_TIMEOUT (R129). -/
def execAttentionIdleTimeout (s : State) : Host.Outcome State Fault Refusal :=
  event attentionTimeout s

end Sys2Proof.Machine
end

