-- ==== Sys2Proof/Machine/LoopCommands.lean ====
section
/-! DEFINITION. LR's commands (chapter 9). Each command has one meaning. -/

namespace Sys2Proof.Machine

/-- LOOP_FRAME_RECEIVED (R164). -/
def execLoopFrameReceived (bytes : List Byte) (s : State) : Host.Outcome State Fault Refusal :=
  event (frameReceived bytes) s

/-- FORWARD_SENT (R168). -/
def execForwardSent (s : State) : Host.Outcome State Fault Refusal :=
  event forwardSent s

/-- INSERTION_START (R173). -/
def execInsertionStart (s : State) : Host.Outcome State Fault Refusal :=
  event insertionStart s

/-- INSERTION_END (R176). -/
def execInsertionEnd (straps : Straps) (s : State) : Host.Outcome State Fault Refusal :=
  event (insertionEnd straps) s

/-- RETURN_DEADLINE_EXPIRY (R178). -/
def execReturnDeadlineExpiry (s : State) : Host.Outcome State Fault Refusal :=
  event returnOverdue s

end Sys2Proof.Machine
end

