-- ==== Sys2Proof/Machine/StartUp.lean ====
section
/-! DEFINITION. CL's commands and the part's reset (chapter 11). Each command has one meaning. -/

namespace Sys2Proof.Machine

/-- RESET_PIN_LOW (R206). -/
def execResetPinLow (s : State) : Host.Outcome State Fault Refusal :=
  event resetLow s

/-- RESET_END (R206). -/
def execResetEnd (straps : Straps) (s : State) : Host.Outcome State Fault Refusal :=
  .next (if s.resetHeld then resetPart straps s else s)

/-- DESCRIPTOR_READ (R201). -/
def execDescriptorRead (read : Option (List Byte)) (s : State) : Host.Outcome State Fault Refusal :=
  event (fun t => if (Instr.descriptorRead read).wellFormed then descriptorRead read t else t) s

/-- CONFIG_RECORD_READ (R201). -/
def execConfigRecordRead (bytes : List Byte) (s : State) : Host.Outcome State Fault Refusal :=
  event (withRecord bytes configRecord) s

/-- MEMORY_READ_FAIL (R199). -/
def execMemoryReadFail (s : State) : Host.Outcome State Fault Refusal :=
  event readFail s

/-- PROFILE_RECORD_READ (R204). -/
def execProfileRecordRead (bytes : List Byte) (s : State) : Host.Outcome State Fault Refusal :=
  event (withRecord bytes profileRecord) s

/-- PROFILE_ENTRY_APPLY (R46). -/
def execProfileEntryApply (s : State) : Host.Outcome State Fault Refusal :=
  event profileApply s

end Sys2Proof.Machine
end

