-- ==== Sys2Proof/Machine/Dispatch.lean ====
section
/-! DEFINITION. The dispatch: one arm per command, each a direct call of its meaning. -/

namespace Sys2Proof.Machine

/-- A command's effect on everything but the queue. -/
def exec (i : Instr) (s : State) : Host.Outcome State Fault Refusal :=
  match i with
  | .resetPinLow => Sys2Proof.Machine.execResetPinLow s
  | .resetEnd straps => Sys2Proof.Machine.execResetEnd straps s
  | .descriptorRead read => Sys2Proof.Machine.execDescriptorRead read s
  | .configRecordRead bytes => Sys2Proof.Machine.execConfigRecordRead bytes s
  | .memoryReadFail => Sys2Proof.Machine.execMemoryReadFail s
  | .profileRecordRead bytes => Sys2Proof.Machine.execProfileRecordRead bytes s
  | .profileEntryApply => Sys2Proof.Machine.execProfileEntryApply s
  | .loopFrameReceived bytes => Sys2Proof.Machine.execLoopFrameReceived bytes s
  | .staleTimeExpiry channel => Sys2Proof.Machine.execStaleTimeExpiry channel s
  | .bypassMinuteTick channel => Sys2Proof.Machine.execBypassMinuteTick channel s
  | .startTimeLimitExpiry => Sys2Proof.Machine.execStartTimeLimitExpiry s
  | .stopTimeLimitExpiry => Sys2Proof.Machine.execStopTimeLimitExpiry s
  | .autoSlowExpiry => Sys2Proof.Machine.execAutoSlowExpiry s
  | .driveRefreshExpiry => Sys2Proof.Machine.execDriveRefreshExpiry s
  | .openDelayExpiry berth => Sys2Proof.Machine.execOpenDelayExpiry berth s
  | .dwellExpiry berth => Sys2Proof.Machine.execDwellExpiry berth s
  | .gatherWindowExpiry => Sys2Proof.Machine.execGatherWindowExpiry s
  | .gatherCapExpiry => Sys2Proof.Machine.execGatherCapExpiry s
  | .ackTimerExpiry berth => Sys2Proof.Machine.execAckTimerExpiry berth s
  | .motionTimerExpiry berth => Sys2Proof.Machine.execMotionTimerExpiry berth s
  | .holdTimerExpiry berth => Sys2Proof.Machine.execHoldTimerExpiry berth s
  | .doorQueuePlace => Sys2Proof.Machine.execDoorQueuePlace s
  | .ringTimerExpiry => Sys2Proof.Machine.execRingTimerExpiry s
  | .ringRepeat => Sys2Proof.Machine.execRingRepeat s
  | .turnStart => Sys2Proof.Machine.execTurnStart s
  | .valleyBurstSent => Sys2Proof.Machine.execValleyBurstSent s
  | .breakSent => Sys2Proof.Machine.execBreakSent s
  | .replyWindowClose => Sys2Proof.Machine.execReplyWindowClose s
  | .lostPeriodEnd => Sys2Proof.Machine.execLostPeriodEnd s
  | .summitBurstEnd => Sys2Proof.Machine.execSummitBurstEnd s
  | .clash => Sys2Proof.Machine.execClash s
  | .attentionInstant => Sys2Proof.Machine.execAttentionInstant s
  | .attentionSendAfterIdle => Sys2Proof.Machine.execAttentionSendAfterIdle s
  | .attentionSent => Sys2Proof.Machine.execAttentionSent s
  | .attentionDetected => Sys2Proof.Machine.execAttentionDetected s
  | .summitBreakDetect => Sys2Proof.Machine.execSummitBreakDetect s
  | .summitBreakEnd => Sys2Proof.Machine.execSummitBreakEnd s
  | .forwardSent => Sys2Proof.Machine.execForwardSent s
  | .insertionStart => Sys2Proof.Machine.execInsertionStart s
  | .insertionEnd straps => Sys2Proof.Machine.execInsertionEnd straps s
  | .returnDeadlineExpiry => Sys2Proof.Machine.execReturnDeadlineExpiry s
  | .status => Sys2Proof.Machine.execStatus s
  | .readEntry => Sys2Proof.Machine.execReadEntry s
  | .writeEntryChannel => Sys2Proof.Machine.execWriteEntryChannel s
  | .writeEntryLineParams => Sys2Proof.Machine.execWriteEntryLineParams s
  | .writeEntryBerth => Sys2Proof.Machine.execWriteEntryBerth s
  | .writeEntryFleet => Sys2Proof.Machine.execWriteEntryFleet s
  | .writeEntryPhone => Sys2Proof.Machine.execWriteEntryPhone s
  | .lineRun => Sys2Proof.Machine.execLineRun s
  | .lineSlow => Sys2Proof.Machine.execLineSlow s
  | .lineStop => Sys2Proof.Machine.execLineStop s
  | .doorOpen => Sys2Proof.Machine.execDoorOpen s
  | .doorClose => Sys2Proof.Machine.execDoorClose s
  | .doorHold => Sys2Proof.Machine.execDoorHold s
  | .doorRelease => Sys2Proof.Machine.execDoorRelease s
  | .doorReset => Sys2Proof.Machine.execDoorReset s
  | .cabinInsert => Sys2Proof.Machine.execCabinInsert s
  | .cabinWithdraw => Sys2Proof.Machine.execCabinWithdraw s
  | .cabinAssign => Sys2Proof.Machine.execCabinAssign s
  | .cabinRetest => Sys2Proof.Machine.execCabinRetest s
  | .cabinPlace => Sys2Proof.Machine.execCabinPlace s
  | .clearFault => Sys2Proof.Machine.execClearFault s
  | .flags => Sys2Proof.Machine.execFlags s
  | .capture => Sys2Proof.Machine.execCapture s
  | .summitNote => Sys2Proof.Machine.execSummitNote s
  | .keyA => Sys2Proof.Machine.execKeyA s
  | .keyB => Sys2Proof.Machine.execKeyB s
  | .tripReset => Sys2Proof.Machine.execTripReset s
  | .bypass => Sys2Proof.Machine.execBypass s
  | .reinstate => Sys2Proof.Machine.execReinstate s
  | .commission => Sys2Proof.Machine.execCommission s
  | .restart => Sys2Proof.Machine.execRestart s
  | .unknownRequest => Sys2Proof.Machine.execUnknownRequest s
  | .keyTimerExpiry => Sys2Proof.Machine.execKeyTimerExpiry s
  | .flagReport => Sys2Proof.Machine.execFlagReport s
  | .captureBlockReport => Sys2Proof.Machine.execCaptureBlockReport s
  | .noteReport => Sys2Proof.Machine.execNoteReport s
  | .summitCharacterReceived char framingError => Sys2Proof.Machine.execSummitCharacterReceived char framingError s
  | .attentionIdleTimeout => Sys2Proof.Machine.execAttentionIdleTimeout s

end Sys2Proof.Machine
end

