-- ==== Sys2Proof/Safety.lean ====
section
/-! DEFINITION. What counts as a safe run of the VT48: the whole-part properties that the claims are stated in. -/

namespace Sys2Proof.Safety

open Sys2Proof.Machine

/-! ## Frames -/

/-- The blocks of the part, with its straps, its reset pin and the model's own fields. -/
inductive Block where
  | straps | resetHeld | now | freeCount | ra | cm | ls | ct | ds | sl | cs | lr | dr | cl | pending
deriving DecidableEq, Repr

/-- Two states agree on a block. -/
def Block.same (b : Block) (s t : State) : Prop :=
  match b with
  | .straps => t.straps = s.straps
  | .resetHeld => t.resetHeld = s.resetHeld
  | .now => t.now = s.now
  | .freeCount => t.freeCount = s.freeCount
  | .ra => t.ra = s.ra
  | .cm => t.cm = s.cm
  | .ls => t.ls = s.ls
  | .ct => t.ct = s.ct
  | .ds => t.ds = s.ds
  | .sl => t.sl = s.sl
  | .cs => t.cs = s.cs
  | .lr => t.lr = s.lr
  | .dr => t.dr = s.dr
  | .cl => t.cl = s.cl
  | .pending => t.pending = s.pending

/-- A state differs from another at most in the listed blocks. -/
def OnlyChanges (l : List Block) (s t : State) : Prop := ∀ b : Block, b ∉ l → b.same s t

/-! ## Demand and line state (R54 to R62) -/

/-- R54: an entry stands, and is not suppressed by a bypass of its channel (R40). -/
def Stands (s : State) (e : FaultEntry) : Prop :=
  (e.present = true ∨ e.latched = true)
    ∧ ∀ c, e.source = .channel c → s.bypassed c = false ∨ e.code = .bypassActive

/-- R54: the most severe of the desk demand, the overflow demand and the levels of the entries that stand. -/
def MostSevere (s : State) (d : Demand) : Prop :=
  (d = s.ls.deskDemand ∨ d = s.ls.overflow ∨ ∃ e ∈ s.ls.faults, Stands s e ∧ d = e.cls.demand)
    ∧ s.ls.deskDemand.code ≤ d.code ∧ s.ls.overflow.code ≤ d.code
    ∧ ∀ e ∈ s.ls.faults, Stands s e → e.cls.demand.code ≤ d.code

/-- R62: the drive request record's level, setpoint and line state, by the table of the rule. -/
structure DriveAnswers (s : State) : Prop where
  line : s.ls.drive.line = s.ls.line
  run : s.ls.line = .running ∨ (s.ls.line = .starting ∧ s.ls.effDemand = .run) →
    s.ls.drive.level = .run ∧ s.ls.drive.setpoint = s.params.runSetpoint
  slow : s.ls.line = .slowed ∨ (s.ls.line = .starting ∧ s.ls.effDemand = .slow) →
    s.ls.drive.level = .slow ∧ s.ls.drive.setpoint = s.params.slowSetpoint
  stop : s.ls.line = .stopping ∨ s.ls.line = .stopped → s.ls.drive.level = .stop ∧ s.ls.drive.setpoint = 0
  trip : s.ls.line = .tripped → s.ls.drive.level = .trip ∧ s.ls.drive.setpoint = 0

/-- The line obeys its demand: the effective demand is the most severe level, the line state answers it, the desk
demand is never TRIP and is STOP while the line is STOPPED, STOPPING or TRIPPED, and the drive request record answers the
line state. -/
structure DemandKept (s : State) : Prop where
  /-- R54 -/
  demand : MostSevere s s.ls.effDemand
  /-- R60 -/
  trip : s.ls.effDemand = .trip → s.ls.line = .tripped
  /-- R58 -/
  running : s.ls.line = .running → s.ls.effDemand = .run
  /-- R58 -/
  slowed : s.ls.line = .slowed → s.ls.effDemand = .slow
  /-- R56, R57 -/
  starting : s.ls.line = .starting → s.ls.effDemand = .run ∨ s.ls.effDemand = .slow
  /-- R54, R55 -/
  desk : s.ls.deskDemand ≠ .trip
    ∧ (s.ls.line = .stopped ∨ s.ls.line = .stopping ∨ s.ls.line = .tripped → s.ls.deskDemand = .stop)
  /-- R62 -/
  drive : DriveAnswers s

/-! ## The account of cabins (R69, R71) -/

/-- The ids of the cabin records that have one. -/
def queueIds (s : State) : List Nat := (s.ct.queue.map (·.id)).filter (· ≠ 0)

/-- The registered cabins. -/
def cabins (s : State) : List FleetCabin := s.ct.fleet.toList.filterMap id

/-- Every registered cabin has one location, and appears in the collection of that location and in no other. -/
structure Accounted (s : State) : Prop where
  slots : ((cabins s).map (·.id)).Nodup
  ids : (queueIds s ++ s.ct.uphill.map (·.id) ++ s.ct.downhill.map (·.id)).Nodup
  terminal : ∀ c ∈ cabins s, c.location = .terminal ↔ c.id ∈ queueIds s
  uphill : ∀ c ∈ cabins s, c.location = .uphill ↔ c.id ∈ s.ct.uphill.map (·.id)
  downhill : ∀ c ∈ cabins s, c.location = .downhill ↔ c.id ∈ s.ct.downhill.map (·.id)
  lists : ∀ x ∈ s.ct.uphill.map (·.id) ++ s.ct.downhill.map (·.id), x ∈ (cabins s).map (·.id)
  identity : ∀ r ∈ s.ct.queue, (r.identity = .registered ↔ r.id ∈ (cabins s).map (·.id))
    ∧ (r.identity = .anonymous ↔ r.id = 0)
  named : ∀ c ∈ cabins s, c.id ≠ 0

/-! ## The terminal track (R72) -/

/-- The number of records in a zone. -/
def inZone (z : Nat) (s : State) : Nat := (s.ct.queue.filter fun c => c.zone == z).length

/-- R72: no record is in an earlier zone than one that entered after it; a berth holds one record, LAUNCH two. -/
structure TrackOrdered (s : State) : Prop where
  order : s.ct.queue.Pairwise fun older newer => newer.zone ≤ older.zone
  berths : ∀ j, 1 ≤ j → j ≤ s.berthCount → inZone j s ≤ 1
  launch : inZone s.launchZone s ≤ 2

/-! ## Capacities -/

/-- R170: the frames of the SAFETY queue are DRIVE_REQ and LAUNCH_REL, at most one of each. -/
def AtMostOneEach (l : List QFrame) : Prop :=
  (l.map (·.kind)).Nodup ∧ ∀ f ∈ l, f.kind = .driveReq ∨ f.kind = .launchRel

/-- R63, R81, R170: the SAFETY queue after a frame is handed to it: the frame takes the place of the one of its kind that
is still queued, or joins. -/
def Offered (f : QFrame) (l l' : List QFrame) : Prop :=
  ((∀ g ∈ l, g.kind ≠ f.kind) ∧ l' = l ++ [f])
    ∨ ∃ before g after, l = before ++ g :: after ∧ g.kind = f.kind ∧ (∀ h ∈ before ++ after, h.kind ≠ f.kind)
      ∧ l' = before ++ f :: after

/-- R175: the outstanding list's entries, with the one that a running insertion will add. -/
def outLoad (s : State) : Nat :=
  s.lr.outstanding.length + match s.lr.out with
    | .inserting _ _ => 1
    | .idle => 0
    | .forwarding _ => 0

/-- R46, R204: the deferred list's entries, with the staged ones that CM may still defer. -/
def deferLoad (s : State) : Nat :=
  s.cm.deferred.length + match s.cl.profile with
    | .applying _ => s.cl.staging.length
    | .idle => 0
    | .reading _ _ => 0

/-- R194: the samples in the capture buffer. -/
def captured (s : State) : Nat :=
  match s.dr.capture with
  | some k => k.buffer.length
  | none => 0

/-- Every list and queue of the part holds no more than the manual gives it. -/
structure WithinCapacity (s : State) : Prop where
  /-- R50 -/
  faults : s.ls.faults.length ≤ 32
  /-- R72 -/
  queue : s.ct.queue.length ≤ 24
  /-- R71 -/
  uphill : s.ct.uphill.length ≤ 64
  /-- R71 -/
  downhill : s.ct.downhill.length ≤ 64
  /-- R34 -/
  subst : s.cm.subst.length ≤ 8
  /-- R135 -/
  txQueue : s.sl.txQueue.length ≤ 16
  /-- R143 -/
  rxQueue : s.sl.rxQueue.length ≤ 8
  /-- R154 -/
  waiting : s.cs.waiting.length ≤ 4
  /-- R161 -/
  linkVoice : s.cs.voice.length ≤ 3
  /-- R168 -/
  relay : s.lr.relay.length ≤ 4
  /-- R166 -/
  requests : s.lr.requests.length ≤ 4
  /-- R171 -/
  door : s.lr.door.length ≤ 8
  /-- R171 -/
  voice : s.lr.voice.length ≤ 4
  /-- R172 -/
  report : s.lr.report.length ≤ 8
  /-- R204 -/
  staging : s.cl.staging.length ≤ 64
  /-- R46 -/
  deferred : deferLoad s ≤ 64
  /-- R152 -/
  backlog : s.cs.backlog.length ≤ 4
  /-- R170 -/
  safety : AtMostOneEach s.lr.safety
  /-- R175 -/
  outstanding : outLoad s ≤ 8
  /-- 10.7 -/
  capture : captured s ≤ 16

/-! ## The rope (R11) -/

/-- R11, with the range of the loop length (R66). -/
structure RopeInRange (s : State) : Prop where
  loop : 1000 ≤ s.params.loopLen
  position : s.ra.p < s.params.loopLen
  remainder : s.ra.r ≤ 999
  speed : -32768 ≤ s.ra.vf ∧ s.ra.vf ≤ 32767

/-! ## What an event at LS may change -/

/-- No profile write waits for STOPPED (R46), CT keeps no LINK_BACKLOG source, and the transmit queue has room (R82): a
line state change is then followed by one evaluation of the launch release and nothing more. -/
structure Settled (s : State) : Prop where
  deferred : s.cm.deferred = []
  waiting : s.ct.backlogWaiting = none
  launched : s.ct.backlogLaunched = []
  room : s.sl.txQueue.length < 16

/-- Two states differ at most in what a fault, and the line state change it causes, can write: LS but its parameters and
its commissioned mark, the release record (R80), the open delays and waiting opens (R101), the break pending mark (R133),
the SAFETY queue (R62, R81), and the flags, none of which is cleared, with their owed marks (R191). -/
structure LineOnly (s t : State) : Prop where
  others : OnlyChanges [.ls, .ct, .ds, .sl, .lr, .dr] s t
  params : t.ls.params = s.ls.params
  commissioned : t.ls.commissioned = s.ls.commissioned
  ct : t.ct = { s.ct with release := t.ct.release, releaseCabin := t.ct.releaseCabin, lastGo := t.ct.lastGo }
  ds : t.ds = { s.ds with berths := t.ds.berths }
  entries : ∀ j, (t.berth j).entry = (s.berth j).entry
  doors : ∀ j, t.door j = { s.door j with openDelay := (t.door j).openDelay, waitingOpen := (t.door j).waitingOpen }
  sl : t.sl = { s.sl with breakPending := t.sl.breakPending }
  lr : t.lr = { s.lr with safety := t.lr.safety }
  safety : AtMostOneEach s.lr.safety → AtMostOneEach t.lr.safety
  dr : t.dr = { s.dr with flags := t.dr.flags, owed := t.dr.owed }
  flags : ∀ f, s.flag f = true → t.flag f = true

/-- The line state that an effective demand leads to in one event (R55, R58, R59, R60). -/
def obeying (line : LineState) (d : Demand) (atRest : Bool) : LineState :=
  match line, d with
  | .tripped, _ => .tripped
  | _, .trip => .tripped
  | .stopped, _ => .stopped
  | .stopping, _ => .stopping
  | _, .stop => if atRest then .stopped else .stopping
  | .starting, _ => .starting
  | _, .slow => .slowed
  | _, .run => .running

/-- An entry is the one a raising names (R49). -/
def Names (f : Raise) (e : FaultEntry) : Prop := e.source = f.source ∧ e.code = f.code

/-- An entry is AUTO_SLOW, which LS itself reports gone when the line stops or trips (R64). -/
def IsAutoSlow (e : FaultEntry) : Prop := e.source = .line ∧ e.code = .autoSlow

/-- R50: the entry that a raising lists when none names its fault: it is as it was raised, with the next order number. -/
def freshEntry (f : Raise) (s : State) : FaultEntry :=
  { order := s.ls.nextFault, source := f.source, code := f.code, cls := f.cls, latched := f.latched, present := f.present }

/-- R50: a listed entry raised again: its condition is present if it was or is raised so, its class the more severe, and
it is latched if either is. -/
def raisedAgain (f : Raise) (e : FaultEntry) : FaultEntry :=
  { e with
    present := e.present || f.present
    cls := if e.cls.code < f.cls.code then f.cls else e.cls
    latched := e.latched || f.latched }

/-- R50, R52: the list after a raising: the entry of the fault raised again; or, with none, a fresh one at the tail; or,
with 32 others, the list as it stood. -/
def listAfter (f : Raise) (s : State) : List FaultEntry :=
  if s.ls.faults.any (fun e => decide (e.source = f.source ∧ e.code = f.code)) then
    s.ls.faults.map fun e => if e.source = f.source ∧ e.code = f.code then raisedAgain f e else e
  else if s.ls.faults.length < 32 then s.ls.faults ++ [freshEntry f s]
  else s.ls.faults

/-- The line has left its state for one in which LS reports AUTO_SLOW gone (R64). -/
def LineEnds (s t : State) : Prop :=
  t.ls.line ≠ s.ls.line ∧ (t.ls.line = .stopping ∨ t.ls.line = .stopped ∨ t.ls.line = .tripped)

/-- What the raising of a fault leaves (R50, R52, R54, R55, R58, R60). -/
structure Raised (f : Raise) (s t : State) : Prop where
  /-- R50: the list is that of the raising, less AUTO_SLOW where the line ends its run. -/
  list : t.ls.faults = listAfter f s ∨ (LineEnds s t ∧ t.ls.faults = (listGone .line .autoSlow (listAfter f s)).1)
  /-- R50: a fresh entry takes the next order number and sets FAULT_NEW. -/
  fresh : (∀ e ∈ s.ls.faults, ¬ Names f e) → s.ls.faults.length < 32 →
    t.ls.nextFault = s.ls.nextFault + 1 ∧ t.flag .faultNew = true
  /-- R50: a listed entry whose condition was gone and is raised present sets FAULT_NEW. -/
  again : (∃ e ∈ s.ls.faults, Names f e ∧ e.present = false) → f.present = true → t.flag .faultNew = true
  /-- R50, R52: no other raising takes an order number. -/
  order : (∃ e ∈ s.ls.faults, Names f e) ∨ 32 ≤ s.ls.faults.length → t.ls.nextFault = s.ls.nextFault
  /-- R52: a fault that finds the list full is folded into the overflow demand; no other changes it. -/
  folded : (∀ e ∈ s.ls.faults, ¬ Names f e) → 32 ≤ s.ls.faults.length →
    t.ls.overflow = s.ls.overflow.max f.cls.demand ∧ t.flag .overflow = true
  overflow : (∃ e ∈ s.ls.faults, Names f e) ∨ s.ls.faults.length < 32 → t.ls.overflow = s.ls.overflow
  /-- R54 -/
  demand : MostSevere t t.ls.effDemand
  /-- R55, R58, R59, R60 -/
  line : ∃ d, MostSevere (listFault f s) d ∧ t.ls.line = obeying s.ls.line d s.atRest
  frame : LineOnly s t

/-- What the report that a fault's condition is gone leaves (R51, R54, R55, R58, R60). -/
structure Withdrawn (src : Source) (code : FaultCode) (s t : State) : Prop where
  /-- R51: a live entry leaves the list. -/
  left : ∀ e ∈ t.ls.faults, e.source = src → e.code = code → e.latched = true
  /-- R51: a latched entry stays, its condition gone. -/
  stays : (∀ e ∈ s.ls.faults, e.source = src → e.code = code → e.latched = true) →
    ∀ e ∈ s.ls.faults, e.source = src → e.code = code → { e with present := false } ∈ t.ls.faults
  /-- R51: an entry that leaves sets FAULT_GONE. -/
  flag : (∃ e ∈ s.ls.faults, e.source = src ∧ e.code = code ∧ e.latched = false) → t.flag .faultGone = true
  /-- R51: every other entry is kept as it stood. -/
  kept : ∀ e ∈ s.ls.faults, ¬ (e.source = src ∧ e.code = code) → ¬ IsAutoSlow e → e ∈ t.ls.faults
  /-- R51: no entry is made. -/
  made : ∀ e ∈ t.ls.faults, e ∈ s.ls.faults ∨ (e.source = src ∧ e.code = code) ∨ IsAutoSlow e
  /-- R52 -/
  overflow : t.ls.overflow = s.ls.overflow
  /-- R54 -/
  demand : MostSevere t t.ls.effDemand
  /-- R55, R58, R59, R60 -/
  line : ∃ d, MostSevere (dropFault src code s) d ∧ t.ls.line = obeying s.ls.line d s.atRest
  frame : LineOnly s t

/-! ## Channel entries (R42) -/

/-- R42: a channel write is in range: its fields, those that 2.1 marks with a kind judged for that kind alone (log entry
9); its node and slot those of no other channel that is not UNUSED, unless it is UNUSED itself; and FAILED kept, not
made. -/
structure ChanAllowed (s : State) (c : Nat) (e : ChanEntry) : Prop where
  node : 1 ≤ e.node ∧ e.node ≤ 126
  slot : e.slot ≤ 7
  persistence : 1 ≤ e.persistence ∧ e.persistence ≤ 15
  staleTime : 1 ≤ e.staleTime ∧ e.staleTime ≤ 200
  standby : ∀ b, e.standby = some b → b ≤ 47 ∧ b ≠ c
  encoder : e.kind = .encoder →
    1 ≤ e.scale ∧ e.scale ≤ 20000 ∧ 1 ≤ e.step ∧ e.step ≤ 32767 ∧ e.shift ≤ 4
  boundary : e.kind = .trackMark → 1 ≤ e.boundary ∧ e.boundary ≤ s.berthCount + 2
  window : e.kind = .tension ∨ e.kind = .ropeOffset → e.low + 2 * e.hysteresis ≤ e.high
  wind : e.kind = .wind → e.low ≤ e.high ∧ e.hysteresis ≤ e.low
  grip : e.kind = .gripForce → e.low ≤ e.high
  failed : e.state = .failed → (s.chan c).entry.state = .failed
  place : e.state ≠ .unused → ∀ i, i < 48 → i ≠ c → (s.chan i).entry.state ≠ .unused →
    ¬ ((s.chan i).entry.node = e.node ∧ (s.chan i).entry.slot = e.slot)

/-! ## LINE_PARAMS and berth entries (R66, R93) -/

/-- R66: every field of LINE_PARAMS is in its range. -/
structure LineAllowed (p : LineParams) : Prop where
  loopLen : 1000 ≤ p.loopLen ∧ p.loopLen ≤ 30000000
  uphillSpan : 1 ≤ p.uphillSpan ∧ p.uphillSpan ≤ 29999999
  downhillSpan : 1 ≤ p.downhillSpan ∧ p.downhillSpan ≤ 29999999
  tolerance : 100 ≤ p.tolerance ∧ p.tolerance ≤ 100000
  minSpacing : 1000 ≤ p.minSpacing ∧ p.minSpacing ≤ 1000000
  zeroBand : p.zeroBand ≤ 500
  setpoints : p.runSetpoint ≤ 12000 ∧ p.slowSetpoint ≤ 12000 ∧ p.startExit ≤ 12000
  limits : p.startingLimit ≤ 15000 ∧ p.runningLimit ≤ 15000 ∧ p.slowedLimit ≤ 15000 ∧ p.stoppingLimit ≤ 15000
  reverseLimit : p.reverseLimit ≤ 2000
  times : (1 ≤ p.startTime ∧ p.startTime ≤ 255) ∧ 1 ≤ p.stopTime ∧ p.stopTime ≤ 255
  bypassDefault : 1 ≤ p.bypassDefault ∧ p.bypassDefault ≤ 120
  idleSlow : p.idleSlow ≤ 255
  deskNode : 1 ≤ p.deskNode ∧ p.deskNode ≤ 126
  nodes : p.driveNode ≤ 126 ∧ p.conveyorNode ≤ 126 ∧ p.warnNode ≤ 126

/-- R93: every field of a berth entry is in its range. -/
structure BerthAllowed (e : BerthEntry) : Prop where
  doorNode : e.doorNode ≤ 126
  openDelay : e.openDelay ≤ 50
  dwell : 2 ≤ e.dwell ∧ e.dwell ≤ 120
  gatherWindow : 1 ≤ e.gatherWindow ∧ e.gatherWindow ≤ 20
  reopenDwell : 1 ≤ e.reopenDwell ∧ e.reopenDwell ≤ 20
  retries : e.retries ≤ 3
  motionLimit : 10 ≤ e.motionLimit ∧ e.motionLimit ≤ 100
  holdLimit : 10 ≤ e.holdLimit ∧ e.holdLimit ≤ 600

/-! ## The narrowing rule (R43) -/

/-- R43: a channel write changes a field that is refused outside STOPPED: state, node, slot, kind or standby, and of the
fields that 2.1 gives to one kind, those of the channel's kind. -/
def ChanStructural (o e : ChanEntry) : Prop :=
  o.state ≠ e.state ∨ o.node ≠ e.node ∨ o.slot ≠ e.slot ∨ o.kind ≠ e.kind ∨ o.standby ≠ e.standby
    ∨ (e.kind = .trackMark ∧ o.boundary ≠ e.boundary)
    ∨ (e.kind = .encoder ∧ (o.scale ≠ e.scale ∨ o.step ≠ e.step ∨ o.shift ≠ e.shift))

/-- R43: a channel write loosens a field of the table that has a meaning for the channel's kind. -/
def ChanLoosens (o e : ChanEntry) : Prop :=
  ((e.kind = .tension ∨ e.kind = .ropeOffset ∨ e.kind = .gripForce) ∧ (e.low < o.low ∨ o.high < e.high))
    ∨ (e.kind = .wind ∧ (o.low < e.low ∨ o.high < e.high))
    ∨ ((e.kind = .tension ∨ e.kind = .ropeOffset ∨ e.kind = .wind) ∧ e.hysteresis < o.hysteresis)
    ∨ o.persistence < e.persistence ∨ o.staleTime < e.staleTime ∨ e.cls.code < o.cls.code

/-- R43: a LINE_PARAMS write changes L, U, Dn or an address. -/
def LineStructural (o p : LineParams) : Prop :=
  o.loopLen ≠ p.loopLen ∨ o.uphillSpan ≠ p.uphillSpan ∨ o.downhillSpan ≠ p.downhillSpan ∨ o.deskNode ≠ p.deskNode
    ∨ o.driveNode ≠ p.driveNode ∨ o.conveyorNode ≠ p.conveyorNode ∨ o.warnNode ≠ p.warnNode

/-- R43: a LINE_PARAMS write loosens a field of the table. The effective period of idle-slow N is that of 12 for a
smaller N (R64), and N = 0 is the loosest. -/
def LineLoosens (o p : LineParams) : Prop :=
  o.zeroBand < p.zeroBand ∨ o.startExit < p.startExit ∨ o.runSetpoint < p.runSetpoint ∨ o.slowSetpoint < p.slowSetpoint
    ∨ o.startingLimit < p.startingLimit ∨ o.runningLimit < p.runningLimit ∨ o.slowedLimit < p.slowedLimit
    ∨ o.stoppingLimit < p.stoppingLimit ∨ o.reverseLimit < p.reverseLimit ∨ o.tolerance < p.tolerance
    ∨ o.startTime < p.startTime ∨ o.stopTime < p.stopTime ∨ o.bypassDefault < p.bypassDefault
    ∨ p.minSpacing < o.minSpacing
    ∨ (o.idleSlow ≠ 0 ∧ (p.idleSlow = 0 ∨ max 12 o.idleSlow < max 12 p.idleSlow))

/-! ## The end of the start-up load (R198) -/

/-- The start-up load has ended with an outcome while no profile waits: the commissioned mark, READY, the link in SYNCING
with its first attention instant 10 ms away, the attention detector in its idle stage from now, LINK_CHANGE and
LOAD_DONE. -/
def loadEnded (o : StartOutcome) (s : State) : State :=
  setFlag .loadDone (setFlag .linkChange { s with
    ls := { s.ls with commissioned := o == .complete }
    cl := { s.cl with outcome := o, load := .ready, phase := .idle, pending := none }
    sl := { s.sl with
      link := .syncing, lostUntil := none, attnTimer := some (s.now + Config.attentionIdle), attnWaiting := false
      detector := .idle, idleFrom := s.now } })

/-! ## Channels (R1, R29) -/

/-- The lowest number that meets a property, none where no number does. -/
def Lowest (p : Nat → Prop) (o : Option Nat) : Prop :=
  (o = none ∧ ∀ i, ¬ p i) ∨ ∃ d, o = some d ∧ p d ∧ ∀ i, i < d → ¬ p i

/-- A channel of the table is ACTIVE and of a kind. -/
def ActiveOf (kind : ChanKind) (s : State) (i : Nat) : Prop :=
  i < 48 ∧ (s.chan i).entry.state = .active ∧ (s.chan i).entry.kind = kind

/-- RA's encoder channel is the lowest ACTIVE one of kind ENCODER (R1), and the part-wide wind band the most severe band
of the ACTIVE WIND channels, CALM with none (R29). -/
structure ChannelsFormed (s : State) : Prop where
  encoder : Lowest (ActiveOf .encoder s) s.ra.encoder
  held : s.cm.windBand = .calm ∨ ∃ i, ActiveOf .wind s i ∧ (s.chan i).rt.band = s.cm.windBand
  most : ∀ i, ActiveOf .wind s i → (s.chan i).rt.band.code ≤ s.cm.windBand.code

/-- There is one number, and no other, that meets a property. -/
def Single (p : Nat → Prop) : Prop := ∃ i, p i ∧ ∀ j, p j → j = i

/-- R189: the eight commissioning checks, by number. -/
def Commissionable (s : State) (check : Nat) : Prop :=
  let p := s.params
  (check = 1 → Single (ActiveOf .encoder s))
  ∧ (check = 2 → p.uphillSpan + p.tolerance < p.loopLen ∧ p.downhillSpan + p.tolerance < p.loopLen)
  ∧ (check = 3 → p.minSpacing < p.loopLen)
  ∧ (check = 4 → ∀ k, 1 ≤ k → k ≤ s.berthCount + 2 →
    Single fun i => ActiveOf .trackMark s i ∧ (s.chan i).entry.boundary = k)
  ∧ (check = 5 → Single (ActiveOf .cabinId s))
  ∧ (check = 6 → Single (ActiveOf .gripForce s))
  ∧ (check = 7 → ∀ j, s.isBerth j = true → (s.berth j).entry.mode = .openMode → (s.berth j).entry.doorNode ≠ 0)
  ∧ (check = 8 → ∀ c b, c < 48 → (s.chan c).entry.state = .active → (s.chan c).entry.standby = some b →
    (s.chan b).entry.state = .standby ∧ (s.chan b).entry.kind = (s.chan c).entry.kind
      ∧ ∀ i, i < 48 → i ≠ c → (s.chan i).entry.state = .active → (s.chan i).entry.standby ≠ some b)

/-! ## Samples (R23) -/

/-- A SAMPLE that carries one reading `x`, stamped `t`, to an address, for the ACTIVE channel `c` at its node and slot 0,
with no channel at its other slots and no capture under way: LR hands it to CM, which judges the reading. -/
structure Sampled (dest : Byte) (bytes : List Byte) (x t : Word16) (c : Nat) (s : State) : Prop where
  pin : s.resetHeld = false
  capture : s.dr.capture = none
  frame : ∃ f, parseFrame bytes = some f ∧ f.source ≠ s.ownAddress ∧ f.dest = dest ∧ f.kind = 0x10
    ∧ f.payload = enc2 t.toNat ++ enc1 1 ++ enc2 x.toNat
    ∧ s.channelAt f.source.toNat 0 = some c ∧ ∀ i, 1 ≤ i → i < 8 → s.channelAt f.source.toNat i = none
  known : c < 48
  active : (s.chan c).entry.state = .active

/-- The reading `x` of channel `c` has been accepted (R23, R24) and leaves the channel's runtime record as given. -/
def credited (c : Nat) (x : Word16) (rt : Runtime) (s : State) : State :=
  setChan c { s.chan c with rt := { rt with lastReading := x, lastAccepted := s.now } } s

/-! ## Desk requests (R181, R182, R209) -/

/-- A REQUEST from the desk stands at the head of the request queue, and DR may take it and judge it: the reset pin is
high, the REPORT queue has room for the REPLY, no restart is awaited, and the start-up load has ended. -/
structure Asked (r : Request) (rest : List Request) (payload : List Byte) (s : State) : Prop where
  pin : s.resetHeld = false
  head : s.lr.requests = r :: rest
  payload : r.payload = payload
  room : s.lr.report.length < 8
  free : s.dr.restartWait = false
  desk : r.source.toNat = s.params.deskNode
  ready : s.cl.load = .ready

/-- The REPLY to a request (R209): to its source, with its tag. -/
def replyFrame (r : Request) (payload : List Byte) : QFrame :=
  { dest := r.source.toNat, kind := .reply, payload := payload, tag := r.tag, restart := false }

/-- A request has left the request queue (R181). -/
def taken (rest : List Request) (s : State) : State :=
  { s with lr := { s.lr with requests := rest }, dr := { s.dr with placeNotice := false } }

/-- The REPLY to a request has joined the REPORT queue (R182, R172). -/
def replied (r : Request) (payload : List Byte) (s : State) : State :=
  { s with lr := { s.lr with report := s.lr.report ++ [replyFrame r payload] } }

/-- A request has left the request queue and its REPLY has joined the REPORT queue (R181), with no other effect. -/
def answered (r : Request) (rest : List Request) (payload : List Byte) (s : State) : State :=
  replied r payload (taken rest s)

/-- The key sequence is broken or spent (R187). -/
def keyless (s : State) : State := { s with dr := { s.dr with key := .none, keyTimer := none } }

end Sys2Proof.Safety
end

