-- ==== Sys2Proof/Certificates/Slice0/Obligations.lean ====
section
/-! DEFINITION. The statements about the VT48 for the provers. Each names the rules of spec/ that it formalises. -/

open Sys2Proof Sys2Proof.Machine Sys2Proof.Safety

/-! ## The step, the reset pin and reset -/

/-- 95_what_each_step_holds: a step is the command at the front of the queue, run on the state with the queue's rest. -/
def Obligations.StepRunsTheFrontCommand : Prop :=
  ∀ (c : Instr) (rest : List Instr) (s : State),
    step { s with pending := c :: rest } = exec c { s with pending := rest }

/-- With no command waiting, a millisecond of the part's time passes and nothing else changes. This is the model's
choice (log entry 1), not a rule of the manual. -/
def Obligations.EmptyQueuePassesAMillisecond : Prop :=
  ∀ s : State, step { s with pending := [] } = .next { s with pending := [], now := s.now + 1 }

/-- Parts of R206, R197, R201: RESET_PIN_LOW makes LOOP-OUT idle and DE low, and while the pin is low no command but
RESET_END has an effect. RESET_END gives every block its reset values and samples the straps; with no memory present the
start-up load ends at once with NO_MEMORY. -/
def Obligations.ResetPinAndItsEnd : Prop :=
  (∀ s : State, s.resetHeld = false →
    exec .resetPinLow s = .next { s with
      resetHeld := true, lr := { s.lr with out := .idle }, sl := { s.sl with tx := .quiet } })
  ∧ (∀ (c : Instr) (s : State), s.resetHeld = true → (∀ straps, c ≠ .resetEnd straps) → exec c s = .next s)
  ∧ ∀ (straps : Straps) (s : State), s.resetHeld = true →
    (straps.memory = true →
      exec (.resetEnd straps) s = .next (State.blocksReset straps s.now s.freeCount s.pending))
    ∧ (straps.memory = false →
      exec (.resetEnd straps) s
        = .next (loadEnded .noMemory (State.blocksReset straps s.now s.freeCount s.pending)))

/-- Parts of R19, R21, R67, R66, R69, R71, R72, R91, R93, R95, R117, R135, R143, R148, R150, R151, R179, R191, R196,
R206: the values the manual gives for reset, whatever the straps and the part's time. -/
def Obligations.ResetValues : Prop :=
  State.reset = State.blocksReset Straps.atReset 0 0 []
  ∧ ∀ (straps : Straps) (now free : Nat) (queue : List Instr),
    let s := State.blocksReset straps now free queue
    s.straps = straps
    -- R19
    ∧ (s.ra.p = 0 ∧ s.ra.r = 0 ∧ s.ra.v = 0 ∧ s.ra.vf = 0 ∧ s.ra.baseValid = false ∧ s.ra.speedValid = false
      ∧ s.ra.q = 0 ∧ s.ra.qValid = false ∧ s.ra.encoder = none)
    -- R21
    ∧ (∀ c, c < 48 → (s.chan c).entry.state = .unused ∧ (s.chan c).entry.standby = none ∧ (s.chan c).bypass = none)
    ∧ (s.cm.subst = [] ∧ s.cm.windBand = .calm ∧ s.cm.deferred = [])
    -- R67, R63
    ∧ (s.ls.line = .tripped ∧ s.ls.deskDemand = .stop ∧ s.ls.effDemand = .trip ∧ s.ls.overflow = .run
      ∧ s.ls.commissioned = false
      ∧ s.ls.faults = [{ order := 0, source := .line, code := .powerOn, cls := .trip, latched := true, present := false }]
      ∧ s.ls.drive = { level := .trip, setpoint := 0, line := .tripped } ∧ s.ls.refreshAt = now + 40)
    -- R66
    ∧ (s.params.loopLen = 1000 ∧ s.params.tolerance = 100 ∧ s.params.minSpacing = 1000 ∧ s.params.deskNode = 1
      ∧ s.params.driveNode = 0 ∧ s.params.conveyorNode = 0 ∧ s.params.warnNode = 0)
    -- R69, R71, R72, R91
    ∧ (s.ct.fleet = Vector.replicate 160 none ∧ s.ct.queue = [] ∧ s.ct.uphill = [] ∧ s.ct.downhill = []
      ∧ s.ct.launchCount = 0 ∧ s.ct.release = .hold ∧ s.ct.lastGo = none)
    -- R93, R95
    ∧ (∀ j, 1 ≤ j → j ≤ 8 → (s.berth j).entry.mode = .passMode ∧ (s.berth j).entry.doorNode = 0
      ∧ (s.door j).state = .closed ∧ (s.door j).awaiting = true ∧ (s.door j).command = none)
    -- R117, R135, R143, R148
    ∧ (s.sl.link = .down ∧ s.sl.restartFlag = true ∧ s.sl.breakPending = true ∧ s.sl.tx = .quiet
      ∧ s.sl.summitWord = none ∧ s.sl.txQueue = [] ∧ s.sl.rxQueue = [] ∧ s.sl.nextSend = 0 ∧ s.sl.nextExpected = 0)
    -- R150, R151
    ∧ ((∀ h, h < 8 → s.phoneEntry h = { node := 0, priority := .service, ringGroup := false })
      ∧ s.cs.call = .idle ∧ s.cs.phone = none ∧ s.cs.waiting = [] ∧ s.cs.backlog = [] ∧ s.cs.voice = [])
    -- R179
    ∧ (s.lr.relay = [] ∧ s.lr.requests = [] ∧ s.lr.safety = [] ∧ s.lr.door = [] ∧ s.lr.voice = [] ∧ s.lr.report = []
      ∧ s.lr.outstanding = [] ∧ s.lr.insertion = 0 ∧ s.lr.loop = .unproven ∧ s.lr.out = .idle)
    -- R191, R196
    ∧ (s.dr.key = .none ∧ s.dr.flags = 0 ∧ s.dr.enable = BitVec.allOnes 24 ∧ s.dr.owed = 0 ∧ s.dr.capture = none
      ∧ s.dr.restartWait = false)
    -- R206
    ∧ (s.cl.load = .loading ∧ s.cl.outcome = .none ∧ s.cl.skip = 0 ∧ s.cl.pointers = none ∧ s.cl.profile = .idle
      ∧ s.cl.pending = none ∧ s.cl.staging = [])

/-! ## What every step keeps -/

/-- Parts of R60, R61, R67: TRIPPED is left by TRIP_RESET alone, apart from a reset of the part. -/
def Obligations.TrippedUntilReset : Prop :=
  ∀ (c : Instr) (s t : State), c ≠ .tripReset → (∀ x, c ≠ .resetEnd x) → (∀ x, c ≠ .insertionEnd x) →
    exec c s = .next t → s.ls.line = .tripped → t.ls.line = .tripped

/-- Parts of R54, R55, R58, R60, R62: every step keeps the effective demand the most severe level, the line state
obeying it, the desk demand STOP where the line stops, and the drive request record in agreement with the line state. -/
def Obligations.DemandKeptByEveryStep : Prop :=
  ∀ s t : State, DemandKept s → step s = .next t → DemandKept t

/-- Parts of R69, R71: every step keeps each registered cabin in the collection of its location and in no other. -/
def Obligations.CabinsAccountedByEveryStep : Prop :=
  ∀ s t : State, Accounted s → step s = .next t → Accounted t

/-- Parts of R72: every step keeps the records of the terminal track in their order and within their zones' room. -/
def Obligations.TrackOrderedByEveryStep : Prop :=
  ∀ s t : State, TrackOrdered s → step s = .next t → TrackOrdered t

/-- Parts of R34, R46, R50, R71, R72, R135, R143, R152, R154, R161, R166, R168, R170, R171, R172, R175, R194, R204:
every step keeps every list, queue and buffer of these rules within the capacity the manual gives it. The outstanding
list is counted with the entry that a running insertion will add, and the deferred list with the staged entries that CM
may still defer. -/
def Obligations.CapacitiesKeptByEveryStep : Prop :=
  ∀ s t : State, WithinCapacity s → step s = .next t → WithinCapacity t

/-- Parts of R11, R17, R66: every step keeps P in 0..L−1, r in 0..999 and vf in −32,768..32,767. -/
def Obligations.RopeInRangeByEveryStep : Prop :=
  ∀ s t : State, RopeInRange s → step s = .next t → RopeInRange t

/-- Parts of R206: the state after reset meets each of the properties that every step keeps. -/
def Obligations.ResetMeetsTheInvariants : Prop :=
  DemandKept State.reset ∧ Accounted State.reset ∧ TrackOrdered State.reset ∧ WithinCapacity State.reset
    ∧ RopeInRange State.reset

/-! ## The layouts of chapter 12 -/

/-- Parts of R208, R212: the part reads back each table entry it writes, every field that the entry's bytes can hold; a
FLEET entry is the cabin's id. -/
def Obligations.TableEntriesReadBack : Prop :=
  (∀ e : ChanEntry, e.node < 256 → e.slot < 256 → e.low < 65536 → e.high < 65536 → e.hysteresis < 65536 →
      e.persistence < 256 → e.staleTime < 256 → (∀ b, e.standby = some b → b < 256) → e.boundary < 256 →
      e.scale < 65536 → e.step < 65536 → e.shift < 256 →
      e.bytes.length = 21 ∧ ChanEntry.ofBytes e.bytes = some e)
  ∧ (∀ p : LineParams, LineAllowed p →
      p.bytes.length = 46 ∧ LineParams.ofBytes p.bytes = p)
  ∧ (∀ e : BerthEntry, BerthAllowed e → e.bytes.length = 10 ∧ BerthEntry.ofBytes e.bytes = some e)
  ∧ (∀ e : Phone, e.node < 256 → e.bytes.length = 3 ∧ Phone.ofBytes e.bytes = some e)
  ∧ ∀ id : Nat, id < 65536 → (enc2 id).length = 2 ∧ u16 (enc2 id) 0 = id

/-- 12.2, R164, R174: a frame as the part completes it is well formed, and is read back field by field. -/
def Obligations.LoopFramesReadBack : Prop :=
  ∀ (dest source kind tag : Byte) (payload : List Byte),
    dest ≠ 0 → source ≠ 0 → source ≠ 127 → payload.length ≤ 60 →
    parseFrame (frameBytes dest source kind tag payload) = some
      { dest := dest, source := source, kind := kind, tag := tag, payload := payload,
        check := crc16 ([dest, source, kind, tag, BitVec.ofNat 8 payload.length] ++ payload) }

/-! ## CL: the start-up load and the profiles -/

/-- Parts of R201, R202: DESCRIPTOR_READ. No answer ends the load with NO_MEMORY and a wrong signature with
BAD_SIGNATURE; a good descriptor gives the ten segments, and the loader goes on to the first record of COMMON when it
holds one. Parts of R199, R200, R201, R202, R70: CONFIG_RECORD_READ. A record past the segment's stop address, and one
that the segment may not hold or whose length is not its table's, is skipped and counted with its header alone read;
the contents of any other record are read too. A FLEET record registers its cabin as UNPLACED, and a PHONE, BERTH,
CHANNEL or LINE_PARAMS record that its owner finds valid gives its entry. After the last record the load ends: COMPLETE
with no record skipped, else SKIPPED. Parts of R199, R201, R202, R204: MEMORY_READ_FAIL ends the start-up load with
NO_MEMORY at the descriptor and READ_FAILED at a record, and a profile load with READ_FAILED, nothing of it applied. -/
def Obligations.StartUpLoadJudged : Prop :=
  (∀ s : State, s.resetHeld = false → s.cl.load = .loading → s.cl.phase = .descriptor → s.sl.link = .down →
      s.cl.pending = none →
      exec (.descriptorRead none) s = .next (loadEnded .noMemory s)
      ∧ (∀ bs : List Byte, bs.length = 42 → u16 bs 0 ≠ 0xAB5E →
          exec (.descriptorRead (some bs)) s = .next (loadEnded .badSignature s))
      ∧ ∀ bs : List Byte, bs.length = 42 → u16 bs 0 = 0xAB5E → u16 bs 2 + 4 ≤ u16 bs 4 →
          exec (.descriptorRead (some bs)) s = .next { s with cl := { s.cl with
            pointers := some ((List.range 10).map fun i => (u16 bs (2 + 4 * i), u16 bs (4 + 4 * i)))
            phase := .segment 0 (u16 bs 2) [1, 2 + s.straps.berths.toNat, 6, 7] } })
  ∧ (∀ (r : MemRecord) (seg addr : Nat) (rest : List Nat) (s : State), s.resetHeld = false →
      s.cl.load = .loading → s.cl.phase = .segment seg addr rest →
      let next := addr + 4 + r.length.toNat
      let stop := (s.segment seg).2
      let unusable := segmentHolds seg r.tableId.toNat = false ∨ entryLength r.tableId.toNat ≠ some r.length.toNat
      let skipped := fun (phase : LoadPhase) =>
        { s with cl := { s.cl with skip := min 65535 (s.cl.skip + 1), phase := phase } }
      let goesOn := LoadPhase.segment seg next rest
      (∀ i more, rest = i :: more → stop < next → (s.segment i).1 + 4 ≤ (s.segment i).2 →
        exec (.configRecordRead r.header) s = .next (skipped (.segment i (s.segment i).1 more)))
      ∧ (unusable → next + 4 ≤ stop → exec (.configRecordRead r.header) s = .next (skipped goesOn))
      ∧ (rest = [] → s.sl.link = .down → s.cl.pending = none → unusable → stop = next →
        exec (.configRecordRead r.header) s = .next (loadEnded .skipped (skipped goesOn)))
      ∧ (r.contents.length = r.length.toNat → next + 4 ≤ stop →
        let i := r.index.toNat
        (seg = 6 → r.tableId = 2 → r.length = 2 → i < 160 → s.ct.fleet[i]?.getD none = none →
          1 ≤ u16 r.contents 0 → u16 r.contents 0 ≤ 999 → s.registered (u16 r.contents 0) = false →
          (∀ c ∈ s.ct.queue, c.id ≠ u16 r.contents 0) →
          exec (.configRecordRead r.bytes) s = .next { s with
            ct := { s.ct with
              fleet := s.ct.fleet.setIfInBounds i (some { id := u16 r.contents 0, location := .unplaced }) }
            cl := { s.cl with phase := goesOn } })
        ∧ (∀ e, seg = 7 → r.tableId = 3 → r.length = 3 → validPhone i r.contents s = .ok e →
          exec (.configRecordRead r.bytes) s = .next { s with
            cs := { s.cs with phones := s.cs.phones.setIfInBounds i e }, cl := { s.cl with phase := goesOn } })
        ∧ (∀ e, 2 ≤ seg → seg ≤ 5 → r.tableId = 1 → r.length = 10 → validBerth true i r.contents s = .ok e →
          (s.berth i).entry.doorNode = e.doorNode → (s.berth i).entry.mode = e.mode →
          exec (.configRecordRead r.bytes) s = .next (
            let t := setBerth i { s.berth i with entry := e } s
            { t with cl := { s.cl with phase := goesOn } }))
        ∧ (Settled s →
          (∀ e, 2 ≤ seg → seg ≤ 5 → r.tableId = 1 → r.length = 10 → validBerth true i r.contents s = .ok e →
            ∃ t, exec (.configRecordRead r.bytes) s = .next t ∧ (t.berth i).entry = e
              ∧ t.cl = { s.cl with phase := goesOn })
          ∧ (∀ e, seg = 1 → r.tableId = 0 → r.length = 21 → validChan i r.contents s = .ok e →
            e.state ≠ .active ∨ (s.chan i).entry.staleTime ≤ e.staleTime →
            ∃ t, exec (.configRecordRead r.bytes) s = .next t ∧ (t.chan i).entry = e ∧ t.cl.phase = goesOn
              ∧ t.cl.skip = s.cl.skip)
          ∧ (∀ p, seg = 0 → r.tableId = 4 → r.length = 46 → validLine i r.contents = .ok p →
            ∃ t, exec (.configRecordRead r.bytes) s = .next t ∧ t.params = p ∧ t.cl = { s.cl with phase := goesOn })))
      ∧ (∀ e, r.contents.length = r.length.toNat → seg = 7 → r.tableId = 3 → r.length = 3 →
        validPhone r.index.toNat r.contents s = .ok e → rest = [] → stop = next → s.cl.skip = 0 → s.sl.link = .down →
        s.cl.pending = none →
        exec (.configRecordRead r.bytes) s = .next (loadEnded .complete { s with
          cs := { s.cs with phones := s.cs.phones.setIfInBounds r.index.toNat e } })))
  ∧ (∀ s : State, s.resetHeld = false → s.cl.pending = none →
      (s.cl.load = .loading → s.cl.phase = .descriptor → s.sl.link = .down →
        exec .memoryReadFail s = .next (loadEnded .noMemory s))
      ∧ (∀ seg addr rest, s.cl.load = .loading → s.cl.phase = .segment seg addr rest → s.sl.link = .down →
        exec .memoryReadFail s = .next (loadEnded .readFailed s))
      ∧ ∀ p addr, s.cl.load = .ready → s.cl.profile = .reading p addr →
        exec .memoryReadFail s = .next { s with cl := { s.cl with
          profile := .idle, staging := [], lastOutcome := .readFailed, lastSkip := s.cl.profileSkip } })

/-- Parts of R199, R204, R205: PROFILE_RECORD_READ stages a CHANNEL or LINE_PARAMS record of its table's length while
staging has room, counts another as skipped, its header alone read when it is of no such form, and after the segment's
last record begins the application, which empties the deferred list. Parts of R46, R205: PROFILE_ENTRY_APPLY. A CHANNEL
or LINE_PARAMS entry that is not valid is dropped; outside STOPPED one that loosens, or changes a field that must not
change there, is appended to the deferred list; any other takes effect as a desk write does, but that the commissioned
mark is kept. Nothing but the entry changes for an unbypassed channel that keeps its state, place, class and stale time,
no capture running, and for a LINE_PARAMS entry that changes the tolerance alone. (The rest is stated with no line event
pending and no stale time made shorter.) The last entry also ends the application, with APPLIED, the skip count and
PROFILE_APPLIED. (With no profile pending then.) -/
def Obligations.ProfilesStagedAndApplied : Prop :=
  (∀ (r : MemRecord) (p : Profile) (addr : Nat) (s : State), s.resetHeld = false →
      s.cl.profile = .reading p addr →
      let next := addr + 4 + r.length.toNat
      let stop := (s.segment p.segment).2
      let fits := (r.tableId = 0 ∧ r.length = 21) ∨ (r.tableId = 4 ∧ r.length = 46)
      let skipped := { s with cl := { s.cl with
        profileSkip := min 65535 (s.cl.profileSkip + 1), profile := .reading p next } }
      (fits → r.contents.length = r.length.toNat → s.cl.staging.length < 64 → next + 4 ≤ stop →
        exec (.profileRecordRead r.bytes) s = .next { s with cl := { s.cl with
          staging := s.cl.staging ++ [r], profile := .reading p next } })
      ∧ (¬ fits → next + 4 ≤ stop → exec (.profileRecordRead r.header) s = .next skipped)
      ∧ (fits → r.contents.length = r.length.toNat → 64 ≤ s.cl.staging.length → next + 4 ≤ stop →
        exec (.profileRecordRead r.bytes) s = .next skipped)
      ∧ (fits → r.contents.length = r.length.toNat → s.cl.staging.length < 64 → next = stop →
        exec (.profileRecordRead r.bytes) s = .next { s with
          cl := { s.cl with staging := s.cl.staging ++ [r], profile := .applying p }
          cm := { s.cm with deferred := [] } }))
  ∧ ∀ (r : MemRecord) (rest : List MemRecord) (p : Profile) (s : State), s.resetHeld = false →
      s.cl.profile = .applying p → s.cl.staging = r :: rest →
      let i := r.index.toNat
      let o := (s.chan i).entry
      let u : State := { s with cl := { s.cl with staging := rest } }
      let handed := fun t : State =>
        (rest ≠ [] → exec .profileEntryApply s = .next t)
        ∧ (rest = [] → t.cl.pending = none → exec .profileEntryApply s = .next (setFlag .profileApplied { t with
            cl := { t.cl with profile := .idle, staging := [], lastOutcome := .applied, lastSkip := t.cl.profileSkip } }))
      let deferred : State := { u with cm := { s.cm with deferred := s.cm.deferred ++ [r] } }
      (r.tableId = 0 →
        let valid := fun e => i < 48 ∧ r.contents.length = 21 ∧ ChanEntry.ofBytes r.contents = some e ∧ ChanAllowed s i e
          ∧ ¬ ((∃ x ∈ s.cm.subst, x.primary = i ∨ x.standby = i) ∧ (o.state ≠ e.state ∨ o.node ≠ e.node
            ∨ o.slot ≠ e.slot ∨ o.kind ≠ e.kind ∨ o.standby ≠ e.standby ∨ o.boundary ≠ e.boundary))
        ((∀ e, ¬ valid e) → handed u)
        ∧ ∀ e, valid e →
          (s.ls.line ≠ .stopped → ChanStructural o e ∨ ChanLoosens o e → handed deferred)
          ∧ (s.ls.line = .stopped ∨ (¬ ChanStructural o e ∧ ¬ ChanLoosens o e) →
            (Settled s → e.state ≠ .active ∨ o.staleTime ≤ e.staleTime →
              ∃ t, handed t ∧ (t.chan i).entry = e ∧ t.ls.commissioned = s.ls.commissioned)
            ∧ (¬ ChanStructural o e → o.cls = e.cls → o.staleTime = e.staleTime → s.bypassed i = false →
              s.dr.capture = none → handed (setChan i { s.chan i with entry := e } u))))
      ∧ (r.tableId = 4 →
        let new := LineParams.ofBytes r.contents
        let valid := i = 0 ∧ r.contents.length = 46 ∧ LineAllowed new
        (¬ valid → handed u)
        ∧ (valid → s.ls.line ≠ .stopped → LineStructural s.params new ∨ LineLoosens s.params new → handed deferred)
        ∧ (valid → s.ls.line = .stopped ∨ (¬ LineStructural s.params new ∧ ¬ LineLoosens s.params new) →
          (Settled s → ∃ t, handed t ∧ t.params = new ∧ t.ls.commissioned = s.ls.commissioned)
          ∧ (new = { s.params with tolerance := new.tolerance } →
            handed { u with ls := { s.ls with params := new } })))

/-! ## LR: the loop -/

/-- Parts of R164 to R169, R177, R178: LOOP_FRAME_RECEIVED. A malformed frame sets LOOP_ERR; a frame of the part's own
is compared with the outstanding list, and its return closes the loop, with LOOP_ERR when it passed over older entries,
and with LOOP_OPEN reported gone when the loop was open; a REQUEST for the part joins the request queue or is lost with
REQ_OVERRUN, and a frame for it of a kind that it does not take has no effect; any frame for another node is forwarded,
queued, or lost with LOOP_OVERRUN. -/
def Obligations.LoopFramesJudged : Prop :=
  ∀ (bytes : List Byte) (s : State), s.resetHeld = false →
    (parseFrame bytes = none → exec (.loopFrameReceived bytes) s = .next (setFlag .loopErr s))
    ∧ ∀ f : Frame, parseFrame bytes = some f →
      let own (e : OutEntry) : Prop := e.kind = f.kind ∧ e.dest = f.dest ∧ e.tag = f.tag ∧ e.check = f.check
      (f.source = s.ownAddress → (∀ e ∈ s.lr.outstanding, ¬ own e) →
        exec (.loopFrameReceived bytes) s = .next s)
      ∧ (∀ older e newer, f.source = s.ownAddress → s.lr.outstanding = older ++ e :: newer → own e →
        (∀ d ∈ older, ¬ own d) → s.lr.loop ≠ .opened →
        exec (.loopFrameReceived bytes) s = .next ((if older = [] then id else setFlag .loopErr)
          { s with lr := { s.lr with outstanding := newer, loop := .closed } }))
      ∧ (∀ older e newer, f.source = s.ownAddress → s.lr.outstanding = older ++ e :: newer → own e →
        (∀ d ∈ older, ¬ own d) → s.lr.loop = .opened → Settled s →
        ∃ t, exec (.loopFrameReceived bytes) s = .next t
          ∧ Withdrawn .loop .loopOpen ((if older = [] then id else setFlag .loopErr)
              { s with lr := { s.lr with outstanding := newer, loop := .closed } }) t)
      ∧ (f.source ≠ s.ownAddress → f.dest = s.ownAddress → f.kind ∉ [0x10, 0x21, 0x40, 0x41, 0x50] →
        exec (.loopFrameReceived bytes) s = .next s)
      ∧ (f.source ≠ s.ownAddress → f.dest = s.ownAddress → f.kind = 0x50 → s.lr.requests.length < 4 →
        exec (.loopFrameReceived bytes) s = .next { s with lr := { s.lr with
          requests := s.lr.requests ++ [{ source := f.source, tag := f.tag, payload := f.payload }] } })
      ∧ (f.source ≠ s.ownAddress → f.dest = s.ownAddress → f.kind = 0x50 → 4 ≤ s.lr.requests.length →
        exec (.loopFrameReceived bytes) s = .next (setFlag .reqOverrun s))
      ∧ (f.source ≠ s.ownAddress → f.dest ≠ s.ownAddress → ¬ (f.dest = 127 ∧ f.kind = 0x10) →
        (s.lr.out = .idle → s.lr.relay = [] →
          exec (.loopFrameReceived bytes) s = .next { s with lr := { s.lr with out := .forwarding bytes } })
        ∧ (s.lr.out ≠ .idle ∨ s.lr.relay ≠ [] → s.lr.relay.length < 4 →
          exec (.loopFrameReceived bytes) s = .next { s with lr := { s.lr with relay := s.lr.relay ++ [bytes] } })
        ∧ (4 ≤ s.lr.relay.length → exec (.loopFrameReceived bytes) s = .next (setFlag .loopOverrun s)))

/-- Parts of R168, R176, R190: FORWARD_SENT and INSERTION_END leave LOOP-OUT idle, or sending the oldest frame of the
relay buffer; an inserted frame joins the tail of the outstanding list with a deadline 5 ms away; the end of the REPLY
to a RESTART resets the part, with the straps as the command carries them (log entry 32). -/
def Obligations.LoopOutSent : Prop :=
  ∀ s : State, s.resetHeld = false →
    (∀ b, s.lr.out = .forwarding b →
      (s.lr.relay = [] → exec .forwardSent s = .next { s with lr := { s.lr with out := .idle } })
      ∧ ∀ x rest, s.lr.relay = x :: rest →
        exec .forwardSent s = .next { s with lr := { s.lr with out := .forwarding x, relay := rest } })
    ∧ (∀ straps dest source kind tag payload, payload.length ≤ 60 →
      s.lr.out = .inserting (frameBytes dest source kind tag payload) false →
      let entry : OutEntry :=
        { kind := kind, dest := dest, tag := tag, deadline := s.now + 5,
          check := crc16 ([dest, source, kind, tag, BitVec.ofNat 8 payload.length] ++ payload) }
      (s.lr.relay = [] → exec (.insertionEnd straps) s = .next { s with lr := { s.lr with
        out := .idle, outstanding := s.lr.outstanding ++ [entry] } })
      ∧ ∀ x rest, s.lr.relay = x :: rest → exec (.insertionEnd straps) s = .next { s with lr := { s.lr with
        out := .forwarding x, relay := rest, outstanding := s.lr.outstanding ++ [entry] } })
    ∧ ∀ straps bytes, s.lr.out = .inserting bytes true → straps.memory = true →
      exec (.insertionEnd straps) s = .next (State.blocksReset straps s.now s.freeCount s.pending)

/-- Parts of R173, R174, R171, R172, R192: INSERTION_START takes the oldest frame of the first queue that holds one,
SAFETY before DOOR before VOICE before REPORT, and sends it with the part's address and, but for a REPLY, the insertion
number as it stands, which then advances (log entry 53); with LOOP-OUT busy, a frame to forward, or 8 frames outstanding
it takes none. A DOOR frame leaves DS a notice, of which no more are kept than frames wait (log entry 45); a REPORT
frame gives the freed place to a waiting request first (log entry 46). -/
def Obligations.InsertionTakesTheFirstQueue : Prop :=
  ∀ s : State, s.resetHeld = false →
    (s.lr.out ≠ .idle ∨ s.lr.relay ≠ [] ∨ 8 ≤ s.lr.outstanding.length → exec .insertionStart s = .next s)
    ∧ (s.lr.out = .idle → s.lr.relay = [] → s.lr.outstanding.length < 8 →
      ∀ (f : QFrame) (q : List QFrame),
      let sending (tag : Byte) : LoopOut :=
        .inserting (frameBytes (BitVec.ofNat 8 f.dest) s.ownAddress f.kind.code tag f.payload) f.restart
      (f.kind ≠ .reply → s.lr.safety = f :: q →
        exec .insertionStart s = .next { s with lr := { s.lr with
          safety := q, out := sending s.lr.insertion, insertion := s.lr.insertion + 1 } })
      ∧ (f.kind ≠ .reply → s.lr.safety = [] → s.lr.door = f :: q →
        exec .insertionStart s = .next { s with
          lr := { s.lr with door := q, out := sending s.lr.insertion, insertion := s.lr.insertion + 1 }
          ds := { s.ds with notices := min (s.ds.notices + 1) s.ds.waiting.length } })
      ∧ (f.kind ≠ .reply → s.lr.safety = [] → s.lr.door = [] → s.lr.voice = f :: q →
        exec .insertionStart s = .next { s with lr := { s.lr with
          voice := q, out := sending s.lr.insertion, insertion := s.lr.insertion + 1 } })
      ∧ (s.lr.safety = [] → s.lr.door = [] → s.lr.voice = [] → s.lr.report = f :: q →
        exec .insertionStart s = .next { s with
          lr := { s.lr with
            report := q, out := sending (if f.kind = .reply then f.tag else s.lr.insertion)
            insertion := if f.kind = .reply then s.lr.insertion else s.lr.insertion + 1 }
          dr := { s.dr with placeNotice := s.dr.placeNotice || !s.lr.requests.isEmpty } }))

/-! ## RA: the stages of an encoder reading -/

/-- R5: the signed count step is ((n − C_last + 32768) mod 65536) − 32768, in −32768..32767: the shorter way round the
16-bit wrap, positive for a count that has moved forward and negative for one that has moved back. R8: the raw speed is
(u × 10) / δt truncated toward zero and clamped to −32,768..32,767; short of the clamp, a forward and a reverse movement
of equal size have raw speeds of equal magnitude, so that −75,000 / 160 gives −468. Parts of R12: each speed test is
false while speed-valid is clear; with it set, at rest is |vf| within the zero band, forward is vf above 0, and start
exit is vf at or above the start exit speed. -/
def Obligations.CountStepRawSpeedAndSpeedTests : Prop :=
  (∀ n last : Word16,
    countStep n last = ((n.toNat : Int) - (last.toNat : Int) + 32768) % 65536 - 32768
    ∧ -32768 ≤ countStep n last ∧ countStep n last ≤ 32767
    ∧ (∀ k : Nat, k ≤ 32767 → n = last + BitVec.ofNat 16 k → countStep n last = k)
    ∧ ∀ k : Nat, k ≤ 32768 → n = last - BitVec.ofNat 16 k → countStep n last = -k)
  ∧ (∀ (u : Int) (dt : Nat), 1 ≤ dt →
    rawSpeed u dt = max (-32768) (min 32767 (Int.tdiv (u * 10) dt))
    ∧ ((u * 10).natAbs < 32768 * dt → rawSpeed (-u) dt = -rawSpeed u dt))
  ∧ rawSpeed (-7500) 160 = -468
  ∧ ∀ s : State,
    (s.atRest = true ↔ s.ra.speedValid = true ∧ |s.ra.vf| ≤ s.params.zeroBand)
    ∧ (s.forward = true ↔ s.ra.speedValid = true ∧ 0 < s.ra.vf)
    ∧ (s.startExit = true ↔ s.ra.speedValid = true ∧ s.params.startExit ≤ s.ra.vf)

/-- Parts of R3, R4, R6, R7, R9: the stages of a reading of the encoder channel. The first reading sets the base alone;
a repeated time stamp changes nothing; a step beyond D re-bases alone; any other moves the position by exactly its
travel, to the micrometre mod 1000 × L, keeps r in 0..999 and P in 0..L−1, and sets speed-valid. Q and the encoder
channel are kept. Parts of R2, R10, R13, R14, R57, R59, R147: the SAMPLE that carries the reading credits the channel by
the verdict. After a TRAVEL, OVERSPEED is raised as a latched TRIP when |vf| is above the limit of the line state, and
withdrawn otherwise; ROLLBACK, when vf is below the negative reverse limit, likewise; then, with the line as these left
it, STARTING ends on the start exit test and STOPPING on the at-rest test, an oldest uphill cabin past the far end of
its window is OVERDUE while the forward test holds, and the launch release is evaluated. -/
def Obligations.EncoderReadingStages : Prop :=
  (∀ (e : ChanEntry) (len : Nat) (n t : Word16) (ra : Rope), 0 < len →
      let dt := timeStep t ra.tLast
      let dn := countStep n ra.cLast
      (ra.baseValid = false →
        ropeStages e len n t ra = (.base, { ra with cLast := n, tLast := t, baseValid := true }))
      ∧ (ra.baseValid = true → dt = 0 → ropeStages e len n t ra = (.repeated, ra))
      ∧ (ra.baseValid = true → dt ≠ 0 → e.step < dn.natAbs →
        ropeStages e len n t ra = (.jump, { ra with cLast := n, tLast := t }))
      ∧ (ra.baseValid = true → dt ≠ 0 → dn.natAbs ≤ e.step →
        ∃ p r v vf, ropeStages e len n t ra = (.travel, { ra with
            cLast := n, tLast := t, p := p, r := r, v := v, vf := vf, speedValid := true })
          ∧ (1000 * (p : Int) + r - (1000 * (ra.p : Int) + ra.r + dn * e.scale)) % (1000 * len) = 0
          ∧ p < len ∧ r ≤ 999
          ∧ v = rawSpeed (dn * e.scale) dt ∧ (e.shift = 0 → vf = v)
          ∧ (1 ≤ e.shift →
            vf = max (-32768) (min 32767 (ra.vf + Int.fdiv (v - ra.vf + 2 ^ (e.shift - 1)) (2 ^ e.shift))))))
  ∧ ∀ (bytes : List Byte) (n t : Word16) (c : Nat) (s : State), Sampled s.ownAddress bytes n t c s → Settled s →
    DemandKept s → (s.chan c).entry.kind = .encoder → s.ra.encoder = some c →
    let e := (s.chan c).entry
    let rt := (s.chan c).rt
    let runs (v : State) : Prop := exec (.loopFrameReceived bytes) s = .next v
    let stages := ropeStages e s.params.loopLen n t s.ra
    (stages.1 = .base → runs (credited c n { rt with runCount := 0 } { s with ra := stages.2 }))
    ∧ (stages.1 = .repeated → runs (setChan c { s.chan c with rt := { rt with lastReading := n } } s))
    ∧ (stages.1 = .jump → rt.runCount + 1 < e.persistence →
      runs (credited c n { rt with runCount := rt.runCount + 1 } { s with ra := stages.2 }))
    ∧ (stages.1 = .travel →
      let m : State := credited c n { rt with runCount := 0 } { s with ra := stages.2 }
      let limit : Nat := match s.ls.line with
        | .starting => s.params.startingLimit
        | .running => s.params.runningLimit
        | .slowed => s.params.slowedLimit
        | .stopping => s.params.stoppingLimit
        | .stopped => s.params.stoppingLimit
        | .tripped => s.params.stoppingLimit
      let fast : Prop := limit < m.ra.vf.natAbs
      let back : Prop := m.ra.vf < -(s.params.reverseLimit : Int)
      let checked (present : Prop) (code : FaultCode) (v w : State) : Prop :=
        (present → Raised { source := .channel c, code := code, cls := .trip, latched := true, present := true } v w)
        ∧ (¬ present → Withdrawn (.channel c) code v w)
      let past (span : Nat) (pos : Nat) : Prop := span + s.params.tolerance < m.forwardDist pos
      ∃ v w, checked fast .overspeed m v ∧ checked back .rollback v w
        ∧ (¬ fast → ¬ back →
          (∀ y ∈ s.ls.faults, ¬ (y.source = .channel c ∧ (y.code = .overspeed ∨ y.code = .rollback))) → w = m)
        ∧ ((∀ y ∈ s.ct.downhill.head?, y.overdue = false → ¬ past s.params.downhillSpan y.pos) ∨ m.forward = false →
          ((∀ y ∈ s.ct.uphill.head?, y.overdue = false → ¬ past s.params.uphillSpan y.pos) ∨ m.forward = false →
            (¬ (w.ls.line = .starting ∧ m.startExit = true) → ¬ (w.ls.line = .stopping ∧ m.atRest = true) →
              runs (updateRelease w))
            ∧ (w.ls.line = .starting → m.startExit = true → ∃ z, runs z ∧ LineOnly w z
              ∧ z.ls.line = if w.ls.effDemand = .run then .running else .slowed)
            ∧ (w.ls.line = .stopping → m.atRest = true → ∃ z, runs z ∧ LineOnly w z ∧ z.ls.line = .stopped))
          ∧ (∀ y rest, s.ct.uphill = y :: rest → y.overdue = false → past s.params.uphillSpan y.pos →
            m.forward = true → w.ls.line ≠ .starting → w.ls.line ≠ .stopping → ∃ z, runs (updateRelease z) ∧ Raised
              { source := .cabin y.id, code := .overdue, cls := .stop, latched := true, present := false }
              { w with ct := { w.ct with uphill := { y with overdue := true } :: rest } } z)))

/-! ## CM: samples, failure, bypass -/

/-- Parts of R23, R24, R25, R32, R73: a SAMPLE of one reading for the part. With no channel at its node and slot it has
no effect. A TENSION reading inside the window is accepted and ends a run; one below the window raises the run count
while that stays under the persistence. A CABIN_ID reading of 1,000 or more opens an ANONYMOUS record in DETACH and sets
CABIN_ENTRY. Parts of R28, R29: a WIND reading raises or ends the count of each level; a count that reaches the
persistence changes its level, and a change of band withdraws the old band's live fault and raises the new one's, SLOW
for WINDY and STOP for STORM. A change of the part-wide band sets WIND_BAND and, between CALM and the others, requests a
profile, which waits while the loader is busy and is not begun with no pointers. Parts of R31, R64: a PASSAGE reading
re-bases silently at first, and any step in RUNNING or SLOWED restarts the auto-slow timer and withdraws AUTO_SLOW.
Parts of R33, R78: a GRIP_FORCE reading is the force of the oldest untested LAUNCH record, PASS within the channel's
window, else FAIL with GRIP_FAIL; with none untested it is PHANTOM. R167: a SAMPLE to 127 is judged, and then forwarded.
-/
def Obligations.SampleReadingsJudged : Prop :=
  (∀ (bytes : List Byte) (f : Frame) (x t : Word16) (s : State), s.resetHeld = false → s.dr.capture = none →
      parseFrame bytes = some f → f.source ≠ s.ownAddress → f.dest = s.ownAddress → f.kind = 0x10 →
      f.payload = enc2 t.toNat ++ enc1 1 ++ enc2 x.toNat →
      (∀ i, 1 ≤ i → i < 8 → s.channelAt f.source.toNat i = none) →
      (s.channelAt f.source.toNat 0 = none → exec (.loopFrameReceived bytes) s = .next s)
      ∧ ∀ c, s.channelAt f.source.toNat 0 = some c → c < 48 → (s.chan c).entry.state = .active →
        let e := (s.chan c).entry
        let rt := (s.chan c).rt
        (e.kind = .tension → rt.condition = .normal → e.low ≤ x.toNat → x.toNat ≤ e.high →
          exec (.loopFrameReceived bytes) s = .next (setChan c { s.chan c with rt := { rt with
            lastReading := x, lastAccepted := s.now, runCount := 0 } } s))
        ∧ (e.kind = .tension → rt.condition = .normal → x.toNat < e.low → rt.runSide = .low → rt.runCount ≠ 0 →
          rt.runCount + 1 < e.persistence →
          exec (.loopFrameReceived bytes) s = .next (setChan c { s.chan c with rt := { rt with
            lastReading := x, lastAccepted := s.now, runCount := rt.runCount + 1 } } s))
        ∧ (e.kind = .cabinId → 1000 ≤ x.toNat → s.ct.queue.length < 24 → s.registered 0 = false →
          exec (.loopFrameReceived bytes) s = .next (setFlag .cabinEntry
            { setChan c { s.chan c with rt := { rt with lastReading := x, lastAccepted := s.now } } s with
              ct := { s.ct with queue := s.ct.queue ++
                [{ id := 0, identity := .anonymous, zone := 0, entryPos := s.ra.p, grip := .none, force := none,
                   locked := true, orderMark := false }] } })))
  ∧ ∀ (bytes : List Byte) (x t : Word16) (c : Nat) (s : State), Settled s → DemandKept s →
    let e := (s.chan c).entry
    let rt := (s.chan c).rt
    let runs (v : State) : Prop := exec (.loopFrameReceived bytes) s = .next v
    let based : State := credited c x { rt with counterBase := some x } s
    (Sampled s.ownAddress bytes x t c s →
      (e.kind = .wind → e.hysteresis ≤ e.low → e.low ≤ e.high → s.cm.windBand = s.bandNow →
        let others (b : Band) : Prop := ∀ i, i < 48 → i ≠ c → (s.chan i).entry.state = .active →
          (s.chan i).entry.kind = .wind → (s.chan i).rt.band = .calm ∨ (s.chan i).rt.band = b
        let windy : Raise :=
          { source := .channel c, code := .windWindy, cls := .slow, latched := false, present := true }
        let storm : Raise :=
          { source := .channel c, code := .windStorm, cls := .stop, latched := false, present := true }
        let banded (b : Band) (v : State) : State := setFlag .windBand { v with cm := { v.cm with windBand := b } }
        let rises : State := credited c x { rt with windy := true, windyCount := 0, stormCount := 0 } s
        let falls : State := credited c x { rt with windy := false, windyCount := 0, stormCount := 0 } s
        let storms : State := credited c x { rt with windyCount := 0, storm := true, stormCount := 0 } s
        let abates : State := credited c x { rt with windyCount := 0, storm := false, stormCount := 0 } s
        (rt.storm = false →
          (rt.windy = false →
            (x.toNat < e.low → runs (credited c x { rt with windyCount := 0, stormCount := 0 } s))
            ∧ (e.low ≤ x.toNat → x.toNat < e.high → rt.windyCount + 1 < e.persistence →
              runs (credited c x { rt with windyCount := rt.windyCount + 1, stormCount := 0 } s))
            ∧ (e.high ≤ x.toNat → rt.windyCount + 1 < e.persistence → rt.stormCount + 1 < e.persistence → runs
              (credited c x { rt with windyCount := rt.windyCount + 1, stormCount := rt.stormCount + 1 } s))
            ∧ (e.low ≤ x.toNat → x.toNat < e.high → e.persistence ≤ rt.windyCount + 1 →
              (s.cm.windBand ≠ .calm → ∃ v, runs v ∧ Raised windy rises v)
              ∧ (s.cm.windBand = .calm → s.cl.load = .ready → s.cl.profile = .idle → s.cl.pointers = none →
                ∃ v, runs (banded .windy v) ∧ Raised windy rises v)
              ∧ (s.cm.windBand = .calm → s.cl.load = .loading ∨ s.cl.profile ≠ .idle → ∃ v, Raised windy rises v
                ∧ let w := banded .windy v
                  runs { w with cl := { w.cl with pending := some .windy } })))
          ∧ (rt.windy = true →
            (e.low - e.hysteresis ≤ x.toNat → x.toNat < e.high →
              runs (credited c x { rt with windyCount := 0, stormCount := 0 } s))
            ∧ (x.toNat < e.low - e.hysteresis → e.persistence ≤ rt.windyCount + 1 → others .calm →
              s.cl.load = .ready → s.cl.profile = .idle → s.cl.pointers = none →
              ∃ v, runs (banded .calm v) ∧ Withdrawn (.channel c) .windWindy falls v)
            ∧ (e.high ≤ x.toNat → e.persistence ≤ rt.stormCount + 1 → others .windy →
              ∃ v w, runs (banded .storm w) ∧ Withdrawn (.channel c) .windWindy storms v ∧ Raised storm v w)))
        ∧ (rt.storm = true → rt.windy = true → e.low - e.hysteresis ≤ x.toNat → x.toNat < e.high - e.hysteresis →
          (rt.stormCount + 1 < e.persistence →
            runs (credited c x { rt with windyCount := 0, stormCount := rt.stormCount + 1 } s))
          ∧ (e.persistence ≤ rt.stormCount + 1 → others .windy →
            ∃ v w, runs (banded .windy w) ∧ Withdrawn (.channel c) .windStorm abates v ∧ Raised windy v w)))
      ∧ (e.kind = .passage →
        (rt.counterBase = none ∨ rt.counterBase = some x → runs based)
        ∧ ∀ base, rt.counterBase = some base → x ≠ base →
          ((s.ls.line ≠ .running ∧ s.ls.line ≠ .slowed) ∨ s.params.idleSlow = 0 → runs based)
          ∧ (s.ls.line = .running ∨ s.ls.line = .slowed → s.params.idleSlow ≠ 0 → ∃ v, runs v
            ∧ Withdrawn .line .autoSlow { based with ls := { s.ls with autoSlow := some s.now } } v))
      ∧ (e.kind = .gripForce →
        ((∀ r ∈ s.ct.queue, r.zone = s.launchZone → r.grip ≠ .none) → ∃ v, runs (updateRelease v)
          ∧ Raised { source := .cabin 0, code := .phantom, cls := .stop, latched := true, present := false }
             (credited c x rt s) v)
        ∧ ∀ r before after, s.ct.queue = before ++ r :: after → r.zone = s.launchZone → r.grip = .none →
          (∀ y ∈ before, y.zone = s.launchZone → y.grip ≠ .none) →
          let tested (g : Grip) : State :=
            let v := credited c x rt s
            { v with ct := { s.ct with queue := before ++ { r with grip := g, force := some x } :: after } }
          (e.low ≤ x.toNat → x.toNat ≤ e.high → runs (updateRelease (tested .pass)))
          ∧ (x.toNat < e.low ∨ e.high < x.toNat → ∃ v, runs (updateRelease v)
            ∧ Raised { source := .cabin r.id, code := .gripFail, cls := .stop, latched := true, present := true }
                (tested .fail) v)))
    ∧ (Sampled 127 bytes x t c s → e.kind = .passage → rt.counterBase = none ∨ rt.counterBase = some x →
      (s.lr.out = .idle → s.lr.relay = [] → runs { based with lr := { s.lr with out := .forwarding bytes } })
      ∧ (s.lr.out ≠ .idle ∨ s.lr.relay ≠ [] →
        (s.lr.relay.length < 4 → runs { based with lr := { s.lr with relay := s.lr.relay ++ [bytes] } })
        ∧ (4 ≤ s.lr.relay.length → runs (setFlag .loopOverrun based))))

/-- Parts of R25, R26, R27: a TENSION or ROPE_OFFSET reading. In NORMAL one inside the window ends the run, and one out
on a side goes on with the run on that side or starts one; a run of the persistence makes the condition OUT on that side
and raises its fault, of the channel's class, live for NOTE and SLOW and latched for STOP and TRIP. While OUT, one in
the return band counts toward NORMAL, which reports the fault gone; one elsewhere in the window, or out on the same
side, ends both counts; one out on the other side runs there, and at the persistence the faults change. Parts of R32,
R73, R74: a CABIN_ID reading x raises TRACK_FULL with 24 records. Else a record joins in DETACH with CABIN_ENTRY set: of
a registered cabin, whose location becomes TERMINAL: the oldest of the downhill list leaves it, with ARRIVAL_POSITION
outside its window; another of it leaves it with ORDER, the record's order mark and CABIN_ORDER; one not in it raises
UNKNOWN_CABIN and leaves the uphill list, or the older record goes (here one in no berth, not failed its grip test); a
FOREIGN one raises UNKNOWN_CABIN, an older FOREIGN record of the id (likewise) going. Parts of R194: a reading of the
captured channel is stored with its stamp and the pending marks; with 16 samples it is dropped and GAP is pending; with
none left to store, or an end cause set, it is not stored. (Captures are stated for a quiet PASSAGE reading.) -/
def Obligations.WindowCabinIdAndCaptureReadings : Prop :=
  ∀ (bytes : List Byte) (x t : Word16) (c : Nat) (s : State), Settled s →
    let e := (s.chan c).entry
    let rt := (s.chan c).rt
    let runs (v : State) : Prop := exec (.loopFrameReceived bytes) s = .next v
    (Sampled s.ownAddress bytes x t c s →
      (e.kind = .tension ∨ e.kind = .ropeOffset →
        let out (side : Side) : Prop := match side with
          | .low => x.toNat < e.low
          | .high => e.low ≤ x.toNat ∧ e.high < x.toNat
        let cond (side : Side) : Condition := match side with
          | .low => .outLow
          | .high => .outHigh
        let fault (side : Side) : FaultCode := match side with
          | .low => .outLow
          | .high => .outHigh
        let raised (side : Side) : State → State → Prop := Raised
          { source := .channel c, code := fault side, cls := e.cls, latched := e.cls == .stop || e.cls == .trip,
            present := true }
        let count (side : Side) : Nat := if rt.runCount ≠ 0 ∧ rt.runSide = side then rt.runCount + 1 else 1
        let entered (side : Side) : State := credited c x
          { rt with condition := cond side, runCount := 0, runSide := side, returnCount := 0 } s
        (rt.condition = .normal →
          (e.low ≤ x.toNat → x.toNat ≤ e.high → runs (credited c x { rt with runCount := 0 } s))
          ∧ ∀ side, out side →
            (count side < e.persistence →
              runs (credited c x { rt with runCount := count side, runSide := side } s))
            ∧ (e.persistence ≤ count side → ∃ v, runs v ∧ raised side (entered side) v))
        ∧ ∀ held, rt.condition = cond held →
          (out held → runs (credited c x { rt with runCount := 0, returnCount := 0 } s))
          ∧ (e.low ≤ x.toNat → x.toNat ≤ e.high →
            x.toNat < e.low + e.hysteresis ∨ e.high < x.toNat + e.hysteresis →
            runs (credited c x { rt with runCount := 0, returnCount := 0 } s))
          ∧ (e.low + e.hysteresis ≤ x.toNat → x.toNat + e.hysteresis ≤ e.high →
            (rt.returnCount + 1 < e.persistence →
              runs (credited c x { rt with runCount := 0, returnCount := rt.returnCount + 1 } s))
            ∧ (e.persistence ≤ rt.returnCount + 1 → ∃ v, runs v ∧ Withdrawn (.channel c) (fault held)
                (credited c x { rt with condition := .normal, runCount := 0, returnCount := 0 } s) v))
          ∧ ∀ side, side ≠ held → out side →
            (count side < e.persistence →
              runs (credited c x { rt with runCount := count side, runSide := side, returnCount := 0 } s))
            ∧ (e.persistence ≤ count side → ∃ v w, Withdrawn (.channel c) (fault held) (entered side) v
              ∧ raised side v w ∧ runs w))
      ∧ (e.kind = .cabinId →
        let id := if x.toNat ≤ 999 then x.toNat else 0
        let base : State := credited c x rt s
        let event (code : FaultCode) : State → State → Prop :=
          Raised { source := .cabin id, code := code, cls := .stop, latched := true, present := false }
        let fresh (identity : Identity) (mark : Bool) : Cabin :=
          { id := id, identity := identity, zone := 0, entryPos := s.ra.p, grip := .none, force := none
            locked := true, orderMark := mark }
        let leaves (p : Cabin → Prop) (q : List Cabin) : Prop := ((∀ y ∈ s.ct.queue, ¬ p y) ∧ q = s.ct.queue)
          ∨ ∃ before o after, s.ct.queue = before ++ o :: after ∧ p o ∧ (∀ y ∈ before, ¬ p y) ∧ o.grip ≠ .fail
            ∧ s.isBerth o.zone = false ∧ q = before ++ after
        (24 ≤ s.ct.queue.length → ∃ v, runs v ∧ event .trackFull base v)
        ∧ (s.ct.queue.length < 24 → 1 ≤ id →
          (s.registered id = true →
            let joined (mark : Bool) (q : List Cabin) (up : List UpEntry) (down : List DownEntry) : State :=
              setFlag .cabinEntry (setLocation id .terminal { base with ct := { s.ct with
                queue := q ++ [fresh .registered mark], uphill := up, downhill := down } })
            (∀ y rest, s.ct.downhill = y :: rest → y.id = id →
              let d := (((s.ra.p : Int) - y.pos) % s.params.loopLen).toNat
              let t := joined false s.ct.queue s.ct.uphill rest
              (s.params.downhillSpan ≤ d + s.params.tolerance → d ≤ s.params.downhillSpan + s.params.tolerance → runs t)
              ∧ (d + s.params.tolerance < s.params.downhillSpan ∨ s.params.downhillSpan + s.params.tolerance < d →
                ∃ v, runs v ∧ event .arrivalPosition t v))
            ∧ (∀ y rest, s.ct.downhill = y :: rest → y.id ≠ id → (∃ z ∈ rest, z.id = id) → ∃ v, runs v
              ∧ event .order (setFlag .cabinOrder
                  (joined true s.ct.queue s.ct.uphill (s.ct.downhill.filter fun z => z.id ≠ id))) v)
            ∧ ((∀ z ∈ s.ct.downhill, z.id ≠ id) → ∀ q, leaves (fun y => y.id = id) q →
              ∃ v, runs (updateRelease v) ∧ event .unknownCabin
                (joined false q (s.ct.uphill.filter fun z => z.id ≠ id) s.ct.downhill) v))
          ∧ (s.registered id = false → ∀ q, leaves (fun y => y.identity = .foreign ∧ y.id = id) q →
            ∃ v, runs (updateRelease v) ∧ event .unknownCabin
              (setFlag .cabinEntry { base with ct := { s.ct with queue := q ++ [fresh .foreign false] } }) v))))
    ∧ ∀ k, s.dr.capture = some k → Sampled s.ownAddress bytes x t c { s with dr := { s.dr with capture := none } } →
      e.kind = .passage → rt.counterBase = none ∨ rt.counterBase = some x →
      let based : State := credited c x { rt with counterBase := some x } s
      (k.channel ≠ c ∨ k.remaining = 0 ∨ k.written = true → runs based)
      ∧ (k.channel = c → k.remaining ≠ 0 → k.written = false →
        (16 ≤ k.buffer.length → runs { based with dr := { s.dr with capture := some { k with gap := true } } })
        ∧ (k.buffer.length < 16 → runs { based with dr := { s.dr with capture := some { k with
            buffer := k.buffer ++ [{ reading := x, stamp := t, gap := k.gap, subst := k.subst }]
            gap := false, subst := false, remaining := k.remaining - 1 } } }))

/-- Parts of R30: the first reading of a TRACK_MARK channel re-bases silently, a step of 2 or more raises MARK_SKIP and
gives no passage event, and a step of 1 reports MARK_SKIP gone and gives one. Parts of R75, R76: a passage event for a
boundary 1..B+1 moves the oldest record of the zone before it, with the exit check on the berth left and the notices to
both berths, or raises PHANTOM when that zone is empty or the next one full. Parts of R83, R84: one for boundary B+2
launches the oldest LAUNCH record: it is good on GO for that cabin, LATE_HOLD for 300 ms after, else a LAUNCH_VIOLATION,
which the launch of a record that is not REGISTERED always is (log entry 64); in each case Q is set, the record leaves
and CABIN_LAUNCH is set, and a registered cabin joins the uphill list, or is UNPLACED when that is full, and is
announced to the summit. (Launches are stated with fewer than 15 messages queued for the summit, and for a record that
has not failed its grip test.) -/
def Obligations.TrackMarksMoveAndLaunchCabins : Prop :=
  ∀ (bytes : List Byte) (x t : Word16) (c : Nat) (s : State), Sampled s.ownAddress bytes x t c s → Settled s →
    DemandKept s → (s.chan c).entry.kind = .trackMark →
    let e := (s.chan c).entry
    let rt := (s.chan c).rt
    let runs (v : State) : Prop := exec (.loopFrameReceived bytes) s = .next v
    let based : State := credited c x { rt with counterBase := some x } s
    let phantom (id : Nat) : Raise :=
      { source := .cabin id, code := .phantom, cls := .stop, latched := true, present := false }
    (rt.counterBase = none ∨ rt.counterBase = some x → runs based)
    ∧ ∀ base, rt.counterBase = some base →
      (2 ≤ (x - base).toNat → ∃ v, runs v ∧ Raised
        { source := .channel c, code := .markSkip, cls := .stop, latched := true, present := true } based v)
      ∧ (x = base + 1 → ∃ w, Withdrawn (.channel c) .markSkip based w
        ∧ ((∀ y ∈ s.ls.faults, ¬ (y.source = .channel c ∧ y.code = .markSkip)) → w = based)
        -- zone moves
        ∧ (1 ≤ e.boundary → e.boundary ≤ s.berthCount + 1 →
          let k := e.boundary
          ((∀ r ∈ s.ct.queue, r.zone ≠ k - 1) → ∃ v, runs v ∧ Raised (phantom 0) w v)
          ∧ ∀ r before after, s.ct.queue = before ++ r :: after → r.zone = k - 1 → (∀ y ∈ before, y.zone ≠ k - 1) →
            let moved (locked : Bool) : State :=
              { w with ct := { w.ct with queue := before ++ { r with zone := k, locked := locked } :: after } }
            let vacated (v : State) : State :=
              if k = 1 then v
              else setDoor (k - 1)
                { v.door (k - 1) with cabin := none, openDelay := none, waitingOpen := false } v
            let entered (v : State) : State :=
              let b := (v.berth k).entry
              let d := { v.door k with cabin := some r.id }
              if k = s.berthCount + 1 then updateRelease v
              else if b.mode = .openMode ∧ b.doorNode ≠ 0 ∧ v.cycling then
                if b.openDelay = 0 then openDelayOut k (setDoor k d v)
                else setDoor k { d with openDelay := some (s.now + b.openDelay * 100) } v
              else setDoor k d v
            ((k ≤ s.berthCount ∧ 1 ≤ inZone k s) ∨ 2 ≤ inZone k s → ∃ v, runs v ∧ Raised (phantom r.id) w v)
            ∧ ((k ≤ s.berthCount → inZone k s = 0) → inZone k s ≤ 1 →
              (k = 1 ∨ (s.door (k - 1)).state = .closed → runs (entered (vacated (moved r.locked))))
              ∧ (2 ≤ k → (s.door (k - 1)).state ≠ .closed → ∃ v, runs (entered (vacated v))
                ∧ Raised { source := .berth (k - 1), code := .doorNotLocked, cls := .stop, latched := true,
                           present := false } (moved false) v)))
        -- launches
        ∧ (e.boundary = s.berthCount + 2 → s.sl.txQueue.length < 15 →
          ((∀ r ∈ s.ct.queue, r.zone ≠ s.launchZone) → ∃ v, runs v ∧ Raised (phantom 0) w v)
          ∧ ∀ r before after, s.ct.queue = before ++ r :: after → r.zone = s.launchZone →
            (∀ y ∈ before, y.zone ≠ s.launchZone) → r.grip ≠ .fail →
            let departed (v : State) : State := { v with
              ra := { v.ra with q := v.ra.p, qValid := true }
              ct := { v.ct with queue := before ++ after, launchCount := v.ct.launchCount + 1 } }
            let listed (v : State) : State :=
              if s.ct.uphill.length < 64 then
                setLocation r.id .uphill { v with ct := { v.ct with uphill := v.ct.uphill ++
                  [{ id := r.id, pos := s.ra.p, order := s.ct.launchCount + 1, overdue := false }] } }
              else setLocation r.id .unplaced v
            let announced (v : State) : State := { v with sl := { v.sl with
              txQueue := v.sl.txQueue ++ [{ msg := { type := 1, payload := enc2 r.id }, seq := s.sl.nextSend
                                            sent := false, age := 0 }]
              nextSend := s.sl.nextSend + 1 } }
            let launched (v : State) : State :=
              setFlag .cabinLaunch (updateRelease (announced (listed (departed v))))
            let good := w.ct.release = .go ∧ w.ct.releaseCabin = r.id
            let late := w.ct.release = .hold ∧ ∃ g, w.ct.lastGo = some g ∧ g.id = r.id ∧ s.now - g.leftAt < 300
            let violation : Raise :=
              { source := .cabin r.id, code := .launchViolation, cls := .trip, latched := true, present := false }
            (r.identity = .registered →
              (good → runs (launched w))
              ∧ (late → ∃ v, runs (launched v)
                ∧ Raised { source := .cabin r.id, code := .lateHold, cls := .note, latched := true,
                           present := false } w v)
              ∧ (¬ good → ¬ late → ∃ v, runs (launched v) ∧ Raised violation w v))
            ∧ (r.identity ≠ .registered → ∃ v, runs (updateRelease (setFlag .cabinLaunch (departed v)))
              ∧ Raised violation w v)))

/-- Parts of R24, R34 to R37, R1: STALE_TIME_EXPIRY. Unless a sound standby takes its place, the channel becomes FAILED,
its condition STALE, STALE is raised in its class, latched for STOP and TRIP, and an entry of the substitution list that
names it standby leaves: such a standby, whatever its own field names, is never substituted. A standby is sound that is
STANDBY and of the kind; with 8 pairs listed SUBST_FULL is set instead. A sound one becomes ACTIVE with its runtime
record reset, the pair joins the list, SUBST is set, and no fault is raised. The encoder channel clears speed-valid, v
and vf when it fails, but not when it is substituted; the lowest ACTIVE ENCODER channel then takes its role, base-valid
clear. (So far with no other fault of the channel, its wind band CALM, no capture.) R29: a WIND channel that alone holds
the band above CALM withdraws its band's fault, raises STALE, and the band returns to CALM, with WIND_BAND and the
profile request. R45: a write that only makes the stale time shorter is DONE, and fails the channel at once when the
interval since its last accepted time is as long already (in range by log entry 9). -/
def Obligations.StaleChannelFails : Prop :=
  let stale (c : Nat) (s : State) : State → State → Prop := Raised
    { source := .channel c, code := .stale, cls := (s.chan c).entry.cls
      latched := (s.chan c).entry.cls == .stop || (s.chan c).entry.cls == .trip, present := true }
  let failed (c : Nat) (raised : Bool) (s t : State) : State := setChan c { s.chan c with
    entry := { (s.chan c).entry with state := .failed }
    rt := { (s.chan c).rt with condition := .stale, staleRaised := (s.chan c).rt.staleRaised || raised } } t
  (∀ (c : Nat) (s : State), s.resetHeld = false → c < 48 → (s.chan c).entry.state = .active → Settled s →
    DemandKept s → ChannelsFormed s → s.dr.capture = none →
    let e := (s.chan c).entry
    let rt := (s.chan c).rt
    let u : State := { s with now := max s.now (rt.lastAccepted + e.staleTime * 10) }
    let runs (t : State) : Prop := exec (.staleTimeExpiry c) s = .next t
    let sound (b : Nat) : Prop := e.standby = some b ∧ (s.chan b).entry.state = .standby
      ∧ (s.chan b).entry.kind = e.kind ∧ ∀ x ∈ s.cm.subst, x.standby ≠ c
    ((∀ x ∈ s.ls.faults, x.source ≠ .channel c) → e.kind ≠ .wind ∨ rt.band = .calm →
      (∀ ra : Rope, (s.ra.encoder ≠ some c ∧ ra = s.ra)
          ∨ (s.ra.encoder = some c ∧ ∃ o, Lowest (fun i => ActiveOf .encoder s i ∧ i ≠ c) o
            ∧ ra = { s.ra with encoder := o, baseValid := false, speedValid := false, v := 0, vf := 0 }) →
        let left : State :=
          let t := failed c true s u
          { t with ra := ra, cm := { t.cm with subst := s.cm.subst.filter fun x => x.standby ≠ c } }
        ((∀ b, ¬ sound b) → ∃ t, runs t ∧ stale c s left t)
        ∧ ∀ b, sound b → 8 ≤ s.cm.subst.length → ∃ t, runs t ∧ stale c s (setFlag .substFull left) t)
      ∧ ∀ (b : Nat) (ra : Rope), sound b → s.cm.subst.length < 8 → (∀ x ∈ s.ls.faults, x.source ≠ .channel b) →
        (e.kind ≠ .encoder ∧ ra = s.ra)
          ∨ (s.ra.encoder = some c ∧ ∃ o, Lowest (fun i => (ActiveOf .encoder s i ∧ i ≠ c) ∨ i = b) o
            ∧ ra = { s.ra with encoder := o, baseValid := false }) →
        let sb := s.chan b
        let v : State := failed c false s (setChan b { sb with
          entry := { sb.entry with
            state := .active, boundary := if e.kind = .trackMark then e.boundary else sb.entry.boundary }
          rt := { sb.rt with
            lastAccepted := u.now, runCount := 0, returnCount := 0, windyCount := 0, stormCount := 0, windy := false
            storm := false, counterBase := none, condition := .normal } } u)
        runs (setFlag .subst { v with
          ra := ra
          cm := { v.cm with
            subst := s.cm.subst ++ [{ primary := c, standby := b, order := s.cm.nextOrder }]
            nextOrder := s.cm.nextOrder + 1 } }))
    ∧ ∀ code : FaultCode, e.kind = .wind → e.standby = none → (∀ x ∈ s.cm.subst, x.standby ≠ c) →
      (rt.band = .windy ∧ code = .windWindy) ∨ (rt.band = .storm ∧ code = .windStorm) →
      (∀ x ∈ s.ls.faults, x.source = .channel c → x.code = code) →
      (∀ i, ActiveOf .wind s i → i ≠ c → (s.chan i).rt.band = .calm) →
      ∃ v w, Withdrawn (.channel c) code (failed c false s u) v ∧ stale c s (failed c true s v) w
        ∧ let calm := setFlag .windBand { w with cm := { w.cm with windBand := .calm } }
          (s.cl.load = .ready → s.cl.profile = .idle → s.cl.pointers = none → runs calm)
          ∧ (s.cl.load = .loading ∨ s.cl.profile ≠ .idle →
            runs { calm with cl := { calm.cl with pending := some .calm } }))
  ∧ ∀ (c n : Nat) (bs : List Byte) (r : Request) (rest : List Request) (s : State), c < 48 → bs.length = 21 →
    let o := (s.chan c).entry
    let rt := (s.chan c).rt
    let k := keyless (taken rest s)
    let entry := { o with staleTime := n }
    ChanEntry.ofBytes bs = some entry → Asked r rest ([0x03, 0] ++ enc2 c ++ bs) s → ChanAllowed s c entry →
    o.state = .active → n < o.staleTime → (s.chan c).bypass = none → s.dr.capture = none →
    let answers := fun (t : State) => exec .writeEntryChannel s = .next (replied r [0x03, 0, 0] t)
    (s.now - rt.lastAccepted < n * 10 → answers (setChan c { s.chan c with entry := entry } k))
    ∧ (n * 10 ≤ s.now - rt.lastAccepted → o.standby = none → (∀ x ∈ s.cm.subst, x.standby ≠ c) → Settled s →
      DemandKept s → ChannelsFormed s → o.kind ≠ .encoder → o.kind ≠ .wind →
      (∀ x ∈ s.ls.faults, x.source ≠ .channel c) → ∃ t, answers t ∧ stale c s (setChan c { s.chan c with
        entry := { entry with state := .failed }, rt := { rt with condition := .stale, staleRaised := true } } k) t)

/-- Parts of R41: BYPASS_MINUTE_TICK lowers the remaining minutes by 1; with the last minute the bypass ends:
BYPASS_ACTIVE is reported gone and BYPASS_END set. -/
def Obligations.BypassCountsDown : Prop :=
  ∀ (c : Nat) (b : Bypass) (s : State), s.resetHeld = false → (s.chan c).bypass = some b →
    let u : State := { s with now := max s.now b.minuteEnd }
    (2 ≤ b.minutes → exec (.bypassMinuteTick c) s = .next (setChan c { s.chan c with
      bypass := some { minutes := b.minutes - 1, minuteEnd := b.minuteEnd + 60000 } } u))
    ∧ (b.minutes ≤ 1 → Settled s → ∃ t, exec (.bypassMinuteTick c) s = .next (setFlag .bypassEnd t)
      ∧ Withdrawn (.channel c) .bypassActive (setChan c { s.chan c with bypass := none } u) t)

/-! ## LS and LR: timers that raise a fault -/

/-- Parts of R57, R59, R50: START_TIME_LIMIT_EXPIRY raises START_TIMEOUT, a latched STOP, and STOP_TIME_LIMIT_EXPIRY
raises STOP_TIMEOUT, a latched TRIP, each with its condition gone; a limit that is not running has no effect. Parts of
R178, R50: RETURN_DEADLINE_EXPIRY removes the oldest outstanding entry and opens the loop; a loop that was not open
raises LOOP_OPEN, a live STOP. Parts of R64, R50, R58: AUTO_SLOW_EXPIRY in RUNNING or SLOWED raises AUTO_SLOW, a live
fault of class SLOW, at the tail of the fault list while that has room, stops the timer, and the line is SLOWED. -/
def Obligations.TimersRaiseFaults : Prop :=
  (∀ s : State, s.resetHeld = false →
      (∀ t0, s.ls.startTimer = some t0 → Settled s → ∃ t, exec .startTimeLimitExpiry s = .next t
        ∧ Raised { source := .line, code := .startTimeout, cls := .stop, latched := true, present := false }
            { s with now := max s.now (t0 + s.params.startTime * 1000) } t)
      ∧ (∀ t0, s.ls.stopTimer = some t0 → Settled s → ∃ t, exec .stopTimeLimitExpiry s = .next t
        ∧ Raised { source := .line, code := .stopTimeout, cls := .trip, latched := true, present := false }
            { s with now := max s.now (t0 + s.params.stopTime * 1000) } t)
      ∧ (s.ls.startTimer = none → exec .startTimeLimitExpiry s = .next s)
      ∧ (s.ls.stopTimer = none → exec .stopTimeLimitExpiry s = .next s))
  ∧ (∀ (e : OutEntry) (rest : List OutEntry) (s : State), s.resetHeld = false → s.lr.outstanding = e :: rest →
      let u : State := { s with
        now := max s.now e.deadline, lr := { s.lr with outstanding := rest, loop := .opened } }
      (s.lr.loop = .opened → exec .returnDeadlineExpiry s = .next u)
      ∧ (s.lr.loop ≠ .opened → Settled s → ∃ t, exec .returnDeadlineExpiry s = .next t
        ∧ Raised { source := .loop, code := .loopOpen, cls := .stop, latched := false, present := true } u t))
  ∧ (∀ (t0 : Nat) (s : State), s.resetHeld = false → Settled s → DemandKept s → s.ls.autoSlow = some t0 →
      s.params.idleSlow ≠ 0 → s.ls.line = .running ∨ s.ls.line = .slowed → s.ls.faults.length < 32 →
      (∀ x ∈ s.ls.faults, ¬ (x.source = .line ∧ x.code = .autoSlow)) →
      let period := if s.params.idleSlow ≤ 11 then 60000 else s.params.idleSlow * 5000
      ∃ t, exec .autoSlowExpiry s = .next t
        ∧ t.ls.line = .slowed ∧ t.ls.effDemand = .slow ∧ t.ls.autoSlow = none
        ∧ t.ls.faults = s.ls.faults ++ [{ order := s.ls.nextFault, source := .line, code := .autoSlow, cls := .slow,
                                          latched := false, present := true }]
        ∧ t.flag .faultNew = true
        ∧ LineOnly { s with now := max s.now (t0 + period) } t)

/-! ## LS: what a line state change brings -/

/-- Parts of R55, R56, R60, R62 to R64, R101, R133: what the line's entry into a state brings: LINE_CHANGE; the start
time limit with STARTING, the stop time limit with STOPPING, each else stopped; the desk demand STOP on STOPPING and
TRIPPED; the auto-slow timer started on leaving STARTING for RUNNING or SLOWED, kept between these, and else stopped,
with AUTO_SLOW reported gone on STOPPING and TRIPPED; the effective demand formed again; a drive request for the new
state, recorded and, with a drive node address, sent in place of one still queued; on STOPPED and TRIPPED the running
open delays and waiting opens cancelled; on TRIPPED the break pending mark set. R47: on STOPPED the deferred list is
applied (at the report that stops the line: log entry 75): here, START_TIME_LIMIT_EXPIRY of a line at rest. One valid
entry that changes no field R44 gives an effect of its own takes effect, an invalid one is skipped; the list is empty,
PROFILE_APPLIED set, the commissioned mark as it was. R55, R60: the trip that SUMMIT_BREAK_DETECT brings. -/
def Obligations.LineStateChangesBring : Prop :=
  (∀ (st : LineState) (s : State),
    let t := enterLine st s
    let ends : Prop := st = .stopping ∨ st = .tripped
    let f : QFrame :=
      { dest := s.params.driveNode, kind := .driveReq, tag := 0, restart := false,
        payload := enc1 t.ls.drive.level.code ++ enc2 t.ls.drive.setpoint ++ enc1 t.ls.drive.line.code }
    t.ls.line = st ∧ t.flag .lineChange = true
    ∧ t.ls.startTimer = (if st = .starting then some s.now else none)
    ∧ t.ls.stopTimer = (if st = .stopping then some s.now else none)
    ∧ t.ls.deskDemand = (if st = .stopping ∨ st = .tripped then .stop else s.ls.deskDemand)
    ∧ (st = .running ∨ st = .slowed →
      (s.ls.line = .starting → t.ls.autoSlow = if s.params.idleSlow = 0 then none else some s.now)
      ∧ (s.ls.line ≠ .starting → t.ls.autoSlow = s.ls.autoSlow))
    ∧ (st ≠ .running → st ≠ .slowed → t.ls.autoSlow = none)
    ∧ (¬ ends → t.ls.faults = s.ls.faults)
    ∧ (ends → (∀ e ∈ t.ls.faults, IsAutoSlow e → e.latched = true) ∧ (∀ e ∈ s.ls.faults, ¬ IsAutoSlow e → e ∈ t.ls.faults)
      ∧ ∀ e ∈ t.ls.faults, e ∈ s.ls.faults ∨ IsAutoSlow e)
    ∧ MostSevere t t.ls.effDemand ∧ DriveAnswers t ∧ t.ls.refreshAt = s.now + 40
    ∧ (s.params.driveNode = 0 → t.lr = s.lr)
    ∧ (s.params.driveNode ≠ 0 → (∀ g ∈ s.lr.safety, g.kind ≠ .driveReq) →
      t.lr = { s.lr with safety := s.lr.safety ++ [f] })
    ∧ (∀ before g after, s.params.driveNode ≠ 0 → s.lr.safety = before ++ g :: after → g.kind = .driveReq →
      (∀ h ∈ before ++ after, h.kind ≠ .driveReq) → t.lr = { s.lr with safety := before ++ f :: after })
    ∧ (∀ j, s.isBerth j = true → t.door j =
      if st = .stopped ∨ st = .tripped then { s.door j with openDelay := none, waitingOpen := false } else s.door j)
    ∧ t.sl = { s.sl with breakPending := s.sl.breakPending || decide (st = .tripped) }
    ∧ LineOnly s t)
  ∧ (∀ (t0 : Nat) (r : MemRecord) (s : State), s.resetHeld = false → s.ls.line = .starting → s.ls.startTimer = some t0 →
      s.atRest = true → DemandKept s → s.ls.faults.length < 32 → s.cm.deferred = [r] → r.tableId = 0 →
      (∀ x ∈ s.ls.faults, ¬ (x.source = .line ∧ x.code = .startTimeout)) →
      s.ct.backlogWaiting = none → s.ct.backlogLaunched = [] → s.sl.txQueue.length < 16 →
      let i := r.index.toNat
      let o := s.chan i
      let applied (t : State) : Prop := exec .startTimeLimitExpiry s = .next t
        ∧ t.ls.line = .stopped ∧ t.cm.deferred = [] ∧ t.flag .profileApplied = true
        ∧ t.ls.commissioned = s.ls.commissioned
        ∧ (∀ j, s.isBerth j = true → (t.door j).openDelay = none ∧ (t.door j).waitingOpen = false)
      (∀ why, validChan i r.contents s = .error why → ∃ t, applied t ∧ ∀ c, t.chan c = s.chan c)
      ∧ ∀ e, validChan i r.contents s = .ok e → ¬ ChanStructural o.entry e → o.entry.cls = e.cls →
        o.entry.staleTime = e.staleTime → o.bypass = none → s.dr.capture = none →
        ∃ t, applied t ∧ t.chan i = { o with entry := e } ∧ ∀ c, c ≠ i → t.chan c = s.chan c)
  ∧ ∀ s : State, s.resetHeld = false → Settled s → DemandKept s → s.sl.tx = .quiet → s.ls.line ≠ .tripped →
    ∃ t, exec .summitBreakDetect s = .next t ∧ t.ls.line = .tripped ∧ t.ls.deskDemand = .stop ∧ t.ls.effDemand = .trip
      ∧ t.ls.startTimer = none ∧ t.ls.stopTimer = none ∧ t.ls.autoSlow = none
      ∧ t.ls.drive = { level := .trip, setpoint := 0, line := .tripped } ∧ t.ls.refreshAt = s.now + 40
      ∧ t.sl.breakPending = true ∧ t.flag .lineChange = true
      ∧ ∀ j, s.isBerth j = true → t.door j = { s.door j with openDelay := none, waitingOpen := false }

/-! ## CT: the launch release -/

/-- Parts of R80, R81, R18, R209: an evaluation of the launch release. For the oldest record of LAUNCH it is GO exactly
while the line is RUNNING or SLOWED, the record is REGISTERED with its doors locked and grip PASS, the spacing condition
holds, and the uphill list and the transmit queue have room; else HOLD for that record, and HOLD with cabin 0 with
LAUNCH empty. A release or cabin that is new is recorded, last GO takes the cabin that had GO with the present time, and
with a conveyor address a LAUNCH_REL frame takes the place of one still queued or joins the SAFETY queue; else nothing
changes. R82: with the transmit queue full and a record in LAUNCH, LINK_BACKLOG is raised for the oldest, the waiting
source; one that waited for another record, or with LAUNCH empty, is let go. With room, the waiting source and a
launched one are let go. A source let go is withdrawn unless it is kept in the other role. (Several launched sources are
not stated; the raising is, in a state that obeys its demand.) -/
def Obligations.LaunchReleaseFollowsItsConditions : Prop :=
  (∀ s : State,
    let given (r : Release) (id : Nat) : Prop :=
      (s.ct.release = r → s.ct.releaseCabin = id → updateRelease s = s)
      ∧ (s.ct.release ≠ r ∨ s.ct.releaseCabin ≠ id →
        let last : Option LastGo :=
          if s.ct.release = .go then some { id := s.ct.releaseCabin, leftAt := s.now } else s.ct.lastGo
        let t : State := { s with ct := { s.ct with release := r, releaseCabin := id, lastGo := last } }
        let f : QFrame :=
          { dest := s.params.conveyorNode, kind := .launchRel, tag := 0, restart := false,
            payload := enc1 (if r = .go then 1 else 0) ++ enc2 id }
        (s.params.conveyorNode = 0 → updateRelease s = t)
        ∧ (s.params.conveyorNode ≠ 0 → (∀ g ∈ s.lr.safety, g.kind ≠ .launchRel) →
          updateRelease s = { t with lr := { s.lr with safety := s.lr.safety ++ [f] } })
        ∧ ∀ before g after, s.params.conveyorNode ≠ 0 → s.lr.safety = before ++ g :: after → g.kind = .launchRel →
          (∀ h ∈ before ++ after, h.kind ≠ .launchRel) →
          updateRelease s = { t with lr := { s.lr with safety := before ++ f :: after } })
    ((∀ c ∈ s.ct.queue, c.zone ≠ s.launchZone) → given .hold 0)
    ∧ ∀ c before after, s.ct.queue = before ++ c :: after → c.zone = s.launchZone →
      (∀ x ∈ before, x.zone ≠ s.launchZone) →
      let go : Prop := (s.ls.line = .running ∨ s.ls.line = .slowed) ∧ c.identity = .registered ∧ c.locked = true
        ∧ c.grip = .pass
        ∧ (s.ra.qValid = true → s.params.minSpacing ≤ (((s.ra.p : Int) - s.ra.q) % s.params.loopLen).toNat)
        ∧ s.ct.uphill.length < 64 ∧ s.sl.txQueue.length < 16
      (go → given .go c.id) ∧ (¬ go → given .hold c.id))
  ∧ ∀ s : State,
    let u := updateRelease s
    let waits (w : Option Nat) (v : State) : State := { v with ct := { v.ct with backlogWaiting := w } }
    let raised (id : Nat) : State → State → Prop :=
      Raised { source := .cabin id, code := .linkBacklog, cls := .slow, latched := false, present := true }
    let gone (id : Nat) : State → State → Prop := Withdrawn (.cabin id) .linkBacklog
    (s.sl.txQueue.length < 16 →
      let idle : State := { u with ct := { u.ct with backlogWaiting := none, backlogLaunched := [] } }
      (s.ct.backlogWaiting = none → s.ct.backlogLaunched = [] → evalRelease s = u)
      ∧ ∀ w, (s.ct.backlogWaiting = some w ∧ s.ct.backlogLaunched = [])
          ∨ (s.ct.backlogWaiting = some w ∧ s.ct.backlogLaunched = [w])
          ∨ (s.ct.backlogWaiting = none ∧ s.ct.backlogLaunched = [w]) →
        ∃ v, evalRelease s = updateRelease v ∧ gone w idle v)
    ∧ (16 ≤ s.sl.txQueue.length →
      ((∀ c ∈ s.ct.queue, c.zone ≠ s.launchZone) →
        (s.ct.backlogWaiting = none → evalRelease s = u)
        ∧ ∀ w, s.ct.backlogWaiting = some w →
          (w ∈ s.ct.backlogLaunched → evalRelease s = waits none u)
          ∧ (w ∉ s.ct.backlogLaunched → gone w (waits none u) (evalRelease s)))
      ∧ ∀ c before after, s.ct.queue = before ++ c :: after → c.zone = s.launchZone →
        (∀ x ∈ before, x.zone ≠ s.launchZone) → DemandKept s →
        (s.ct.backlogWaiting = none ∨ s.ct.backlogWaiting = some c.id →
          raised c.id (waits (some c.id) u) (evalRelease s))
        ∧ ∀ w, s.ct.backlogWaiting = some w → w ≠ c.id →
          (w ∈ s.ct.backlogLaunched → raised c.id (waits (some c.id) u) (evalRelease s))
          ∧ (w ∉ s.ct.backlogLaunched → ∃ v, gone w (waits none u) v
            ∧ raised c.id (waits (some c.id) v) (evalRelease s)))

/-! ## LS: the drive refresh -/

/-- Parts of R63, R170, R209: DRIVE_REFRESH_EXPIRY issues the drive request record again: the next interval ends 40 ms
later, and, with a drive node address, a DRIVE_REQ frame of the record takes the place of one still queued, or joins the
SAFETY queue. -/
def Obligations.DriveRefreshIssuesTheRecord : Prop :=
  ∀ s : State, s.resetHeld = false →
    let at' := max s.now s.ls.refreshAt
    let u : State := { s with now := at', ls := { s.ls with refreshAt := at' + 40 } }
    let d := s.ls.drive
    let f : QFrame :=
      { dest := s.params.driveNode, kind := .driveReq, tag := 0, restart := false,
        payload := enc1 d.level.code ++ enc2 d.setpoint ++ enc1 d.line.code }
    (s.params.driveNode = 0 → exec .driveRefreshExpiry s = .next u)
    ∧ (s.params.driveNode ≠ 0 → (∀ g ∈ s.lr.safety, g.kind ≠ .driveReq) →
      exec .driveRefreshExpiry s = .next { u with lr := { s.lr with safety := s.lr.safety ++ [f] } })
    ∧ ∀ before g after, s.params.driveNode ≠ 0 → s.lr.safety = before ++ g :: after → g.kind = .driveReq →
      (∀ h ∈ before ++ after, h.kind ≠ .driveReq) →
      exec .driveRefreshExpiry s = .next { u with lr := { s.lr with safety := before ++ f :: after } }

/-! ## DS: the doors' timers and frames -/

/-- Parts of R102, R97, R77, R104, R106: OPEN_DELAY_EXPIRY, by the record's state. A CLOSED or CLOSING door is commanded
to open: the OPEN command is placed in the DOOR queue and the ack and motion timers start, or it waits while the queue
is full; a CLOSING one leaves the warning set, whose frame is offered after the command (log entry 28, the model's
choice). In OPENING and REOPENING a held CLOSE is cleared. An OPEN door's full dwell starts anew, or is what remains
under a staff hold. A PENDING one leaves the gather, which ends with its last record, and is OPEN with a full dwell. In
each the cabin's doors are no longer locked, and the launch release is evaluated when that is news. In FAULT the open
waits. (A CLOSED or CLOSING record is stated where no command of the berth waits.) -/
def Obligations.OpenDelayOpensTheDoor : Prop :=
  ∀ (j t : Nat) (s : State), s.resetHeld = false → s.isBerth j = true → (s.door j).openDelay = some t →
    let e := (s.berth j).entry
    let d := s.door j
    let u : State := { s with now := max s.now t }
    let opening := fun (c : DoorCmd × Sending) (ack move : Option Nat) => { d with
      openDelay := none, state := .opening, command := some c, ackTimer := ack, motionTimer := move
      dwellTimer := .stopped, dwellKind := .full }
    let running := { d with openDelay := none, state := .open, dwellTimer := .running (u.now + e.dwell * 500) }
    let opened := fun (f : State → State) (t : State) =>
      ((∀ c ∈ s.ct.queue, c.zone = j → c.locked = false) → exec (.openDelayExpiry j) s = .next (f t))
      ∧ (Settled s → (∃ c ∈ s.ct.queue, c.zone = j ∧ c.locked = true) →
        exec (.openDelayExpiry j) s = .next (f (updateRelease { t with ct := { s.ct with
          queue := s.ct.queue.map (fun c => if c.zone = j then { c with locked := false } else c) } })))
    (d.state = .closed ∨ d.state = .closing → DoorWait.command j ∉ s.ds.waiting →
      let warned := if d.state = .closing then updateWarning s.closingSet else id
      (s.lr.door.length < 8 → opened warned (setDoor j
        (opening (.open, .placedOnce) (some (u.now + 300)) (some (u.now + e.motionLimit * 100)))
        { u with lr := { u.lr with door := s.lr.door ++
          [{ dest := e.doorNode, kind := .doorCmd, payload := [0], tag := 0, restart := false }] } }))
      ∧ (8 ≤ s.lr.door.length → opened warned (setDoor j (opening (.open, .waiting) none none)
        { u with ds := { u.ds with waiting := s.ds.waiting ++ [.command j] } })))
    ∧ (d.state = .opening ∨ d.state = .reopening →
      opened id (setDoor j { d with openDelay := none, heldClose := false } u))
    ∧ (d.state = .open → d.hold = .no → opened id (setDoor j running u))
    ∧ (d.state = .open → d.hold ≠ .no →
      opened id (setDoor j { d with openDelay := none, hold := .yes (e.dwell * 500) } u))
    ∧ (d.state = .pending → (∃ i, s.isBerth i = true ∧ i ≠ j ∧ (s.door i).state = .pending) →
      opened id (setDoor j running u))
    ∧ (d.state = .pending → (∀ i, s.isBerth i = true → i ≠ j → (s.door i).state ≠ .pending) →
      opened id (setDoor j running { u with ds := { u.ds with windowTimer := none, capTimer := none } }))
    ∧ (d.state = .fault →
      exec (.openDelayExpiry j) s = .next (setDoor j { d with openDelay := none, waitingOpen := true } u))

/-- Parts of R104: DWELL_EXPIRY makes the record PENDING: the gather's window timer starts anew with the berth's window,
and its cap timer starts with four windows when the gather was idle. A dwell that does not run has no effect. Parts of
R105, R106, R97: GATHER_WINDOW_EXPIRY and GATHER_CAP_EXPIRY. Every PENDING record becomes CLOSING with a CLOSE command
and every other keeps its state; both timers stop; with room in the DOOR queue the WARN frame of the closing berths
joins it first, the CLOSE commands after it in berth order, and each starts its ack and motion timers. -/
def Obligations.GatherFillsAndCloses : Prop :=
  (∀ (j : Nat) (s : State), s.resetHeld = false → s.isBerth j = true →
      (∀ t, (s.door j).dwellTimer = .running t →
        let u : State := { s with now := max s.now t }
        let w := (s.berth j).entry.gatherWindow * 100
        let v := setDoor j { s.door j with state := .pending, dwellTimer := .stopped } u
        ((∀ i, 1 ≤ i → i ≤ s.berthCount → (s.door i).state ≠ .pending) →
          exec (.dwellExpiry j) s = .next { v with ds := { v.ds with
            windowTimer := some (u.now + w), capTimer := some (u.now + 4 * w) } })
        ∧ ∀ i, 1 ≤ i → i ≤ s.berthCount → (s.door i).state = .pending →
          exec (.dwellExpiry j) s = .next { v with ds := { v.ds with
            windowTimer := some (u.now + w), capTimer := s.ds.capTimer } })
      ∧ ((s.door j).dwellTimer = .stopped ∨ (s.door j).dwellTimer = .suspended →
        exec (.dwellExpiry j) s = .next s))
  ∧ (∀ (c : Instr) (t : Nat) (s : State), s.resetHeld = false →
      (c = .gatherWindowExpiry ∧ s.ds.windowTimer = some t) ∨ (c = .gatherCapExpiry ∧ s.ds.capTimer = some t) →
      s.ds.waiting = [] → s.params.warnNode ≠ 0 → s.ds.warnLast = s.closingSet →
      let pending := s.berthList.filter fun j => (s.door j).state == .pending
      pending ≠ [] → s.lr.door.length + 1 + pending.length ≤ 8 →
      let at' := max s.now t
      ∃ u, exec c s = .next u
        ∧ OnlyChanges [.now, .ds, .lr] s u
        ∧ u.now = at' ∧ u.ds.windowTimer = none ∧ u.ds.capTimer = none ∧ u.ds.waiting = [] ∧ u.ds.notices = s.ds.notices
        ∧ u.ds.warnLast = u.closingSet
        ∧ (∀ j, (u.berth j).entry = (s.berth j).entry)
        ∧ (∀ j ∈ pending, u.door j = { s.door j with
            state := .closing, command := some (.close, .placedOnce), ackTimer := some (at' + 300)
            motionTimer := some (at' + (s.berth j).entry.motionLimit * 100), dwellTimer := .stopped })
        ∧ (∀ j ∈ s.berthList, j ∉ pending → u.door j = s.door j)
        ∧ u.lr = { s.lr with
            door := s.lr.door
              ++ [{ dest := s.params.warnNode, kind := .warn, payload := [1, u.closingSet], tag := 0, restart := false }]
              ++ pending.map (fun j =>
                { dest := (s.berth j).entry.doorNode, kind := .doorCmd, payload := [1], tag := 0, restart := false }) })

/-- Parts of R98, R100, R112: ACK_TIMER_EXPIRY and MOTION_TIMER_EXPIRY. A command placed once is placed again, its ack
timer started anew; one placed twice, and a motion not ended in time, put the record in FAULT: its command, holds, marks
and timers are cleared, DOOR_FAULT is raised, a latched STOP, and its flag set. (The fault is stated for an OPENING
record, the gather idle and no command of the berth waiting.) Parts of R111: HOLD_TIMER_EXPIRY releases the hold: an
OPEN door's remaining dwell runs on, and with none remaining the record becomes PENDING; the hold of a door not yet OPEN
is dropped. -/
def Obligations.DoorTimersAndHoldsRunOut : Prop :=
  (∀ (j t : Nat) (s : State), s.resetHeld = false → s.isBerth j = true →
      let d := s.door j
      let u : State := { s with now := max s.now t }
      (∀ cmd, d.ackTimer = some t → d.command = some (cmd, .placedOnce) → s.lr.door.length < 8 →
        exec (.ackTimerExpiry j) s = .next (setDoor j { d with
            command := some (cmd, .placedTwice), ackTimer := some (u.now + 300) }
          { u with lr := { u.lr with door := s.lr.door ++
            [{ dest := (s.berth j).entry.doorNode, kind := .doorCmd, payload := enc1 cmd.code, tag := 0,
               restart := false }] } }))
      ∧ ∀ c, (c = .ackTimerExpiry j ∧ d.ackTimer = some t ∧ ∃ cmd, d.command = some (cmd, .placedTwice))
          ∨ (c = .motionTimerExpiry j ∧ d.motionTimer = some t) →
        Settled s → d.state = .opening → DoorWait.command j ∉ s.ds.waiting → s.ds.windowTimer = none →
        s.ds.capTimer = none →
        ∃ v, exec c s = .next (setFlag .doorFault v)
          ∧ Raised { source := .berth j, code := .doorFault, cls := .stop, latched := true, present := true }
              (setDoor j { d with
                state := .fault, command := none, ackTimer := none, motionTimer := none, dwellTimer := .stopped
                holdTimer := none, openDelay := none, heldClose := false, hold := .no, waitingOpen := false
                deskMark := none } u) v)
  ∧ (∀ (j t : Nat) (s : State), s.resetHeld = false → s.isBerth j = true → (s.door j).holdTimer = some t →
      let d := s.door j
      let u : State := { s with now := max s.now t }
      (∀ n, d.state = .open → d.hold = .yes (n + 1) →
        exec (.holdTimerExpiry j) s = .next (setDoor j { d with
          hold := .no, holdTimer := none, dwellTimer := .running (u.now + (n + 1)) } u))
      ∧ (d.state = .open → d.hold = .yes 0 →
        (∀ i, 1 ≤ i → i ≤ s.berthCount → (s.door i).state ≠ .pending) →
        let w := (s.berth j).entry.gatherWindow * 100
        let v := setDoor j { d with
          hold := .no, holdTimer := none, deskMark := some .closed, state := .pending, dwellTimer := .stopped } u
        exec (.holdTimerExpiry j) s = .next { v with ds := { v.ds with
          windowTimer := some (u.now + w), capTimer := some (u.now + 4 * w) } })
      ∧ (d.state = .opening ∨ d.state = .reopening → d.hold = .beforeOpen →
        exec (.holdTimerExpiry j) s = .next (setDoor j { d with hold := .no, holdTimer := none } u)))

/-- Parts of R97, R106, R171: DOOR_QUEUE_PLACE. A notice is used to place the longest-waiting frame: a command, which
starts its ack and motion timers, or the warning, whose set becomes the set last sent. With no notice there is no
effect. -/
def Obligations.DoorQueuePlaceFilled : Prop :=
  ∀ s : State, s.resetHeld = false →
    (s.ds.notices = 0 → exec .doorQueuePlace s = .next s)
    ∧ ∀ k rest, s.ds.notices = k + 1 → s.lr.door.length < 8 →
      (∀ j cmd, s.ds.waiting = .command j :: rest → s.isBerth j = true → (s.door j).command = some (cmd, .waiting) →
        exec .doorQueuePlace s = .next (setDoor j { s.door j with
            command := some (cmd, .placedOnce), ackTimer := some (s.now + 300)
            motionTimer := some (s.now + (s.berth j).entry.motionLimit * 100) }
          { s with
            ds := { s.ds with notices := k, waiting := rest }
            lr := { s.lr with door := s.lr.door ++
              [{ dest := (s.berth j).entry.doorNode, kind := .doorCmd, payload := enc1 cmd.code, tag := 0,
                 restart := false }] } }))
      ∧ (∀ dest set, s.ds.waiting = .warning dest set :: rest →
        exec .doorQueuePlace s = .next { s with
          ds := { s.ds with notices := k, waiting := rest, warnLast := set }
          lr := { s.lr with door := s.lr.door ++
            [{ dest := dest, kind := .warn, payload := [if set = 0 then 0 else 1, set], tag := 0, restart := false }] } })

/-! ## DS and CS: frames from the doors' drives and the phones -/

/-- Parts of R95, R96, R97, R99, R103, R107, R108, R112, R209: a DOOR_STAT frame. One from a node that no berth names,
or without a status, is not used. Else the status becomes the record's last one, which awaits none, and a motion status
that repeats the last toggle is counted. A first status gives a CLOSED record with no command the state it shows. In
OPENING and REOPENING, OPENING stops the ack timer and OPEN opens the record: with its dwell, under a staff hold, or
PENDING for a held CLOSE. In CLOSING, CLOSING stops the ack timer, LOCKED closes the record, and OBSTRUCTED within the
retries reopens it with an OPEN command. Any other status in motion, or in FAULT, is recorded alone. FAILED, a status
that contradicts a record at rest, an obstruction beyond the retries, and a third repeated toggle put the record in
FAULT and raise DOOR_FAULT, a latched STOP. (No command of the berth waits; an OPEN command has room.) The model's
choices: a first status tells CT nothing (log entry 67); the reopening offers DOOR_CMD before the warning (28). Parts of
R150, R153 to R155, R158, R161, R209: CALL and VOICE frames of a phone. OFF_HOOK of the call's phone, or a waiting one,
is answered with its standing. In IDLE with the link running it calls; an INCOMING call it answers; an EMERGENCY phone
takes the line from a SERVICE call, which sets CALL_CHANGE (log entry 40, the model's choice); any other waits by its
priority, displacing the newest SERVICE request of a full list, or is BUSY. ON_HOOK of the call's phone clears the call,
or withdraws the unseen CALL_RING, and serves the list; a waiting phone leaves it. Voice of a CONNECTED call's phone
joins the link voice queue, whose oldest block is dropped at 3. (With room for every frame and message.) The model's: a
cleared call keeps its priority (41); standings carry NORMAL (81); RING OFF in the set's order (79). -/
def Obligations.DoorAndPhoneFramesJudged : Prop :=
  ∀ (bytes : List Byte) (f : Frame) (s : State), s.resetHeld = false → parseFrame bytes = some f →
    f.source ≠ s.ownAddress → f.dest = s.ownAddress →
    let runs := fun t : State => exec (.loopFrameReceived bytes) s = .next t
    (f.kind = 0x21 →
      ((∀ j, s.isBerth j = true → (s.berth j).entry.doorNode ≠ f.source.toNat) → runs s)
      ∧ (f.payload.length ≠ 2 ∨ 5 < u8 f.payload 0 → runs s)
      ∧ ∀ (j : Nat) (st : DoorStatus) (g : Bool), s.isBerth j = true → (s.berth j).entry.doorNode = f.source.toNat →
        (∀ i, s.isBerth i = true → i ≠ j → (s.berth i).entry.doorNode ≠ f.source.toNat) →
        f.payload = enc1 st.code ++ encMark g → DoorWait.command j ∉ s.ds.waiting →
        let e := (s.berth j).entry
        let d := s.door j
        let moving := fun x : DoorStatus => x == .opening || x == .closing
        let count := match d.lastStatus with
          | some (p, q) => if moving st && moving p && q == g then d.stallCount + 1 else 0
          | none => 0
        let first := d.awaiting = true ∧ d.state = .closed ∧ d.command = none
        let inMotion := d.state = .opening ∨ d.state = .reopening
        let heard := fun (x : Door) (t : State) =>
          setDoor j { x with awaiting := false, lastStatus := some (st, g), stallCount := count } t
        let moves := some (s.now + e.motionLimit * 100)
        let opening := fun (kind : DwellKind) (x : DoorState) (y : Door) => heard { y with
            state := x, command := some (DoorCmd.open, .placedOnce), ackTimer := some (s.now + 300)
            motionTimer := moves, dwellTimer := .stopped, dwellKind := kind }
          { s with lr := { s.lr with door := s.lr.door ++
            [{ dest := e.doorNode, kind := .doorCmd, payload := [0], tag := 0, restart := false }] } }
        let gathered := fun cap : Option Nat => { s with ds := { s.ds with
          windowTimer := some (s.now + e.gatherWindow * 100), capTimer := cap } }
        let capOf := fun cap : Option Nat =>
          ((∀ i, s.isBerth i = true → (s.door i).state ≠ .pending) ∧ cap = some (s.now + 4 * (e.gatherWindow * 100)))
            ∨ ((∃ i, s.isBerth i = true ∧ (s.door i).state = .pending) ∧ cap = s.ds.capTimer)
        let warned := fun t : State => runs (updateWarning s.closingSet t)
        let told := fun (b : Bool) (t : State) => updateRelease { t with ct := { s.ct with
          queue := s.ct.queue.map fun c => if c.zone = j then { c with locked := b } else c } }
        let broken := fun x : Door => { x with
          state := .fault, command := none, ackTimer := none, motionTimer := none, dwellTimer := .stopped
          holdTimer := none, openDelay := none, heldClose := false, hold := .no, waitingOpen := false, deskMark := none
          awaiting := false, lastStatus := some (st, g) }
        let faults := fun x : Door => ∃ v, warned (setFlag .doorFault v)
          ∧ Raised { source := .berth j, code := .doorFault, cls := .stop, latched := true, present := true }
              (setDoor j (broken x) s) v
        (d.state = .fault → runs (setDoor j { d with awaiting := false, lastStatus := some (st, g) } s))
        ∧ (count < 3 →
          (first →
            (st = .locked → runs (heard d s))
            ∧ (st = .open → d.cabin.isSome = true → (∃ i, s.isBerth i = true ∧ (s.door i).state = .pending) →
              runs (heard { d with state := .open, dwellTimer := .running (s.now + e.dwell * 500) } s))
            ∧ (∀ cap, st = .open → d.cabin = none → capOf cap →
              runs (heard { d with state := .pending, dwellTimer := .stopped } (gathered cap)))
            ∧ (st = .opening → runs (heard { d with state := .opening, motionTimer := moves } s))
            ∧ (st = .closing → warned (heard { d with state := .closing, motionTimer := moves } s))
            ∧ (st = .obstructed → s.lr.door.length < 8 → runs (opening .full .opening d)))
          ∧ ((d.state = .closed ∧ st = .locked) ∨ ((d.state = .open ∨ d.state = .pending) ∧ st = .open)
              ∨ (inMotion ∧ (st = .locked ∨ st = .closing ∨ st = .obstructed))
              ∨ (d.state = .closing ∧ (st = .opening ∨ st = .open)) → runs (heard d s))
          ∧ ((inMotion ∧ st = .opening) ∨ (d.state = .closing ∧ st = .closing) →
            runs (heard { d with ackTimer := none } s))
          ∧ (inMotion → st = .open →
            let x := { d with
              command := none, ackTimer := none, motionTimer := none, dwellKind := .full
              deskMark := if d.deskMark = some DeskTarget.open then none else d.deskMark }
            let done := fun t : State => runs (if d.deskMark = some DeskTarget.open then setFlag .doorDone t else t)
            let dwell := match d.dwellKind with
              | .full => e.dwell * 500
              | .reopen => e.reopenDwell * 500
            (∀ cap, d.heldClose = true → capOf cap →
              done (heard { x with heldClose := false, state := .pending, dwellTimer := .stopped } (gathered cap)))
            ∧ (d.heldClose = false → d.hold ≠ .no →
              done (heard { x with state := .open, hold := .yes dwell, dwellTimer := .suspended } s))
            ∧ (d.heldClose = false → d.hold = .no →
              done (heard { x with state := .open, dwellTimer := .running (s.now + dwell) } s)))
          ∧ (d.state = .closing → st = .locked →
            let x := heard { d with
              state := .closed, command := none, ackTimer := none, motionTimer := none, retryCount := 0
              deskMark := if d.deskMark = some DeskTarget.closed then none else d.deskMark } s
            let y := if d.deskMark = some DeskTarget.closed then setFlag .doorDone x else x
            let served := d.cabin.isSome = true ∧ d.openDelay = none ∧ d.waitingOpen = false
            (¬ served ∨ (∀ c ∈ s.ct.queue, c.zone = j → c.locked = true) → warned y)
            ∧ (served → Settled s → (∃ c ∈ s.ct.queue, c.zone = j ∧ c.locked = false) → warned (told true y)))
          ∧ (d.state = .closing → st = .obstructed → d.retryCount + 1 ≤ e.retries → s.lr.door.length < 8 →
            let y := opening .reopen .reopening { d with retryCount := d.retryCount + 1 }
            (d.cabin = none ∨ (∀ c ∈ s.ct.queue, c.zone = j → c.locked = false) → warned y)
            ∧ (d.cabin.isSome = true → Settled s → (∃ c ∈ s.ct.queue, c.zone = j ∧ c.locked = true) →
              warned (told false y))))
        ∧ (Settled s → d.state ≠ .fault →
          (s.ds.windowTimer = none ∧ s.ds.capTimer = none)
            ∨ (∃ i, s.isBerth i = true ∧ i ≠ j ∧ (s.door i).state = .pending) →
          (st = .failed ∨ (d.state = .closed ∧ ¬ first ∧ st ≠ .locked)
            ∨ ((d.state = .open ∨ d.state = .pending) ∧ st ≠ .open) → faults d)
          ∧ (d.state = .closing → st = .obstructed → e.retries < d.retryCount + 1 →
            faults { d with retryCount := d.retryCount + 1 })
          ∧ (3 ≤ count → inMotion ∨ d.state = .closing → faults { d with stallCount := count })))
    ∧ (f.kind = 0x40 ∨ f.kind = 0x41 → (∀ h, h < 8 → (s.phoneEntry h).node ≠ f.source.toNat) → runs s)
    ∧ ∀ h, h < 8 → (s.phoneEntry h).node = f.source.toNat →
      (∀ i, i < 8 → i ≠ h → (s.phoneEntry i).node ≠ f.source.toNat) →
      (f.kind = 0x41 →
        (f.payload.length = 40 → s.cs.call = .connected → s.cs.phone = some h →
          runs { s with cs := { s.cs with
            voice := (if s.cs.voice.length < 3 then s.cs.voice else s.cs.voice.drop 1) ++ [f.payload] } })
        ∧ (f.payload.length ≠ 40 ∨ s.cs.call ≠ .connected ∨ s.cs.phone ≠ some h → runs s))
      ∧ (f.kind = 0x40 →
        let p := (s.phoneEntry h).priority
        let running := s.sl.link = .up ∨ s.sl.link = .degraded
        let tells := fun (l : List (Nat × List Byte)) (t : State) => { t with lr := { t.lr with
          voice := s.lr.voice ++ l.map fun x =>
            { dest := (s.phoneEntry x.1).node, kind := .call, payload := x.2, tag := 0, restart := false } } }
        let offer := fun (type : Nat) (bytes : List Byte) (t : State) => updateRelease { t with sl := { t.sl with
          txQueue := t.sl.txQueue ++
            [{ msg := { type := type, payload := bytes }, seq := t.sl.nextSend, sent := false, age := 0 }]
          nextSend := t.sl.nextSend + 1 } }
        let called := fun (cs : CallSwitch) (t : State) => setFlag .callChange { t with cs := cs }
        let outgoing := fun (i : Nat) (q : Priority) => { s.cs with
          call := .outgoing, phone := some i, priority := q, ringTimer := some (s.now + 30000), repeatTimer := none
          rung := [], voice := if s.cs.call = .connected then [] else s.cs.voice }
        let calling := s.cs.call = .outgoing ∨ s.cs.call = .connected
        let waits := s.cs.phone ≠ some h ∧ (∀ w ∈ s.cs.waiting, w.phone ≠ h)
          ∧ ((s.cs.call = .idle ∧ ¬ running) ∨ (calling ∧ ¬ (p = .emergency ∧ s.cs.priority = .service)))
        let emergency := s.cs.waiting.filter fun w => w.priority == .emergency
        let service := s.cs.waiting.filter fun w => w.priority == .service
        let sorted := s.cs.waiting = emergency ++ service
        (f.payload ≠ [0] → f.payload ≠ [1] → runs s)
        ∧ (f.payload = [0] → s.lr.voice.length < 3 →
          (s.cs.phone = some h → s.cs.call = .outgoing → runs (tells [(h, [4, 1, 0])] s))
          ∧ (s.cs.phone = some h → s.cs.call = .connected → runs (tells [(h, [4, 4, 0])] s))
          ∧ (s.cs.phone ≠ some h → (∃ w ∈ s.cs.waiting, w.phone = h) → runs (tells [(h, [4, 2, 0])] s))
          ∧ (waits → s.cs.waiting.length < 4 → sorted →
            let r : WaitReq := { phone := h, priority := p }
            let list := if p = .emergency then emergency ++ [r] ++ service else emergency ++ service ++ [r]
            runs (tells [(h, [4, 2, 0])] { s with cs := { s.cs with waiting := list } }))
          ∧ (waits → s.cs.waiting.length = 4 → p = .service ∨ service = [] → sorted → runs (tells [(h, [4, 3, 0])] s))
          ∧ (∀ older w, waits → s.cs.waiting.length = 4 → p = .emergency → service = older ++ [w] → sorted →
            (s.phoneEntry w.phone).node ≠ 0 → runs (tells [(w.phone, [4, 3, 0]), (h, [4, 2, 0])] { s with cs := { s.cs with
              waiting := emergency ++ [{ phone := h, priority := p }] ++ older } }))
          ∧ (Settled s → s.cs.backlog = [] → s.sl.txQueue.length < 14 → s.cs.phone ≠ some h →
            (∀ w ∈ s.cs.waiting, w.phone ≠ h) →
            (s.cs.call = .idle → running →
              runs (tells [(h, [4, 1, 0])] (called (outgoing h p) (offer 3 (enc1 p.code) s))))
            ∧ (s.cs.call = .incoming → s.lr.voice.length + s.cs.rung.length < 4 →
              (∀ i ∈ s.cs.rung, (s.phoneEntry i).node ≠ 0) →
              runs (tells (s.cs.rung.map (fun i => (i, [3, 0, 0])) ++ [(h, [4, 4, 0])]) (called { s.cs with
                call := .connected, phone := some h, ringTimer := none, repeatTimer := none, rung := []
                priority := if s.cs.priority = .emergency then .emergency else p } (offer 4 [] s))))
            ∧ (∀ i, calling → s.cs.phone = some i → (s.phoneEntry i).node ≠ 0 → p = .emergency →
              s.cs.priority = .service → runs (tells [(i, [4, 0, 1]), (h, [4, 1, 0])]
                (called (outgoing h p) (offer 3 [0] (offer 5 [1] s)))))))
        ∧ (f.payload = [1] → s.lr.voice.length < 3 →
          (s.cs.phone ≠ some h → (∀ w ∈ s.cs.waiting, w.phone ≠ h) → runs s)
          ∧ (s.cs.phone ≠ some h → (∃ w ∈ s.cs.waiting, w.phone = h) →
            runs (tells [(h, [4, 0, 0])] { s with cs := { s.cs with
              waiting := s.cs.waiting.filter fun w => w.phone ≠ h } }))
          ∧ (Settled s → s.sl.txQueue.length < 14 → s.cs.phone = some h → calling →
            let idle := { s.cs with
              call := .idle, phone := none, ringTimer := none, repeatTimer := none, rung := [], backlog := []
              voice := if s.cs.call = .connected then [] else s.cs.voice }
            (s.cs.waiting = [] ∨ ¬ running →
              (s.cs.backlog = [] → runs (tells [(h, [4, 0, 0])] (called idle (offer 5 [0] s))))
              ∧ ∀ b, s.cs.call = .outgoing → s.cs.backlog = [{ type := 3, payload := b }] →
                runs (tells [(h, [4, 0, 0])] (called idle s)))
            ∧ ∀ w rest, s.cs.waiting = w :: rest → (s.phoneEntry w.phone).node ≠ 0 → running → s.cs.backlog = [] →
              runs (tells [(h, [4, 0, 0]), (w.phone, [4, 1, 0])]
                (called { outgoing w.phone w.priority with waiting := rest }
                  (offer 3 (enc1 w.priority.code) (offer 5 [0] s)))))))

/-! ## DR and DS: desk door requests -/

/-- Parts of R109, R110, R97, R106, R77: DOOR_OPEN and DOOR_CLOSE of a berth with a drive, by the record's state. An
accepted request is answered ACCEPTED. An OPEN of a CLOSED or CLOSING door cancels the cabin's open delay and waiting
open, forms and offers an OPEN command (R97), and tells CT that the doors are opened (R77); one of a CLOSING door moves
the warning (R106), which is offered after the command (log entry 28). A CLOSE of an OPEN record joins the gather, whose
window starts anew; its cap starts with the first record. The desk mark that an OPEN sets in OPENING and REOPENING is
log entry 25, and the hold timer that a CLOSE stops with the hold is log entry 30. -/
def Obligations.DeskOpensAndCloses : Prop :=
  ∀ (j : Nat) (r : Request) (rest : List Request) (s : State), s.isBerth j = true →
    (s.berth j).entry.doorNode ≠ 0 →
    let d := s.door j
    let k := keyless (taken rest s)
    (Asked r rest [0x05, BitVec.ofNat 8 j, 0] s →
      let answers := fun (bytes : List Byte) (t : State) => exec .doorOpen s = .next (replied r (0x05 :: bytes) t)
      let full := s.now + (s.berth j).entry.dwell * 500
      let opened := setDoor j { d with
        openDelay := none, waitingOpen := false, state := .opening, command := some (.open, .waiting)
        ackTimer := none, motionTimer := none, dwellTimer := .stopped, dwellKind := .full } k
      (d.cabin = none → answers [2, 4] k)
      ∧ (d.cabin.isSome = true →
        (DoorWait.command j ∉ s.ds.waiting →
          let v := offerCommand j opened
          let told := noticeLocked j false (setDoor j { v.door j with deskMark := some .open } v)
          (d.state = .closed → answers [1, 0] told)
          ∧ (d.state = .closing → answers [1, 0] (updateWarning s.closingSet told)))
        ∧ (d.state = .opening ∨ d.state = .reopening →
          answers [1, 0] (setDoor j { d with heldClose := false, deskMark := some .open } k))
        ∧ (d.state = .open → d.hold = .no → answers [1, 0] (setDoor j { d with dwellTimer := .running full } k))
        ∧ (d.state = .open → d.hold ≠ .no →
          answers [1, 0] (setDoor j { d with hold := .yes ((s.berth j).entry.dwell * 500) } k))
        ∧ (d.state = .pending → (∃ i, s.isBerth i = true ∧ i ≠ j ∧ (s.door i).state = .pending) →
          answers [1, 0] (setDoor j { d with state := .open, dwellTimer := .running full } k))
        ∧ (d.state = .pending → (∀ i, s.isBerth i = true → i ≠ j → (s.door i).state ≠ .pending) →
          answers [1, 0] (setDoor j { d with state := .open, dwellTimer := .running full }
            { k with ds := { k.ds with windowTimer := none, capTimer := none } }))))
    ∧ (Asked r rest [0x05, BitVec.ofNat 8 j, 1] s →
      let answers := fun t : State => exec .doorClose s = .next (replied r [0x05, 1, 0] t)
      let w := (s.berth j).entry.gatherWindow * 100
      (d.state = .closed ∨ d.state = .pending ∨ d.state = .closing → answers k)
      ∧ (d.state = .opening ∨ d.state = .reopening →
        answers (setDoor j { d with
          heldClose := true, hold := .no, holdTimer := none, deskMark := some .closed } k))
      ∧ (∀ cap, d.state = .open →
        ((∀ i, s.isBerth i = true → (s.door i).state ≠ .pending) ∧ cap = some (s.now + 4 * w))
          ∨ ((∃ i, s.isBerth i = true ∧ (s.door i).state = .pending) ∧ cap = s.ds.capTimer) →
        answers (setDoor j { d with
            state := .pending, hold := .no, holdTimer := none, deskMark := some .closed, dwellTimer := .stopped }
          { k with ds := { k.ds with windowTimer := some (s.now + w), capTimer := cap } })))

/-- Parts of R109, R111, R97, R106: DOOR_HOLD and DOOR_RELEASE of a berth with a drive, by the record's state. An
accepted HOLD starts the hold timer; in CLOSING it forms and offers an OPEN command (R97) and tells CT, when the berth
holds a cabin; the command is offered before the warning (log entry 28). A HOLD in OPENING and REOPENING leaves the desk
mark as it was (log entry 69). (HOLD of the only PENDING record is not stated.) -/
def Obligations.DeskHoldsAndReleases : Prop :=
  ∀ (j : Nat) (r : Request) (rest : List Request) (s : State), s.isBerth j = true →
    (s.berth j).entry.doorNode ≠ 0 →
    let d := s.door j
    let k := keyless (taken rest s)
    (Asked r rest [0x05, BitVec.ofNat 8 j, 2] s →
      let answers := fun (bytes : List Byte) (t : State) => exec .doorHold s = .next (replied r (0x05 :: bytes) t)
      let h := { d with holdTimer := some (s.now + (s.berth j).entry.holdLimit * 1000) }
      (d.state = .closed → answers [2, 4] k)
      ∧ (d.state = .opening ∨ d.state = .reopening →
        answers [1, 0] (setDoor j { h with hold := .beforeOpen, heldClose := false } k))
      ∧ (∀ t, d.state = .open → d.dwellTimer = .running t →
        answers [1, 0] (setDoor j { h with hold := .yes (t - s.now), dwellTimer := .suspended } k))
      ∧ (d.state = .open → d.dwellTimer = .suspended → answers [1, 0] (setDoor j h k))
      ∧ (d.state = .pending → (∃ i, s.isBerth i = true ∧ i ≠ j ∧ (s.door i).state = .pending) →
        answers [1, 0] (setDoor j { h with state := .open, hold := .yes 0, dwellTimer := .suspended } k))
      ∧ (d.state = .closing → DoorWait.command j ∉ s.ds.waiting →
        let opened := setDoor j { h with
          hold := .beforeOpen, state := .opening, command := some (.open, .waiting), ackTimer := none
          motionTimer := none, dwellTimer := .stopped, dwellKind := .full } k
        let v := offerCommand j opened
        let m := setDoor j { v.door j with deskMark := some .open } v
        answers [1, 0] (updateWarning s.closingSet (if d.cabin.isSome then noticeLocked j false m else m))))
    ∧ (Asked r rest [0x05, BitVec.ofNat 8 j, 3] s →
      let answers := fun (bytes : List Byte) (t : State) => exec .doorRelease s = .next (replied r (0x05 :: bytes) t)
      let w := (s.berth j).entry.gatherWindow * 100
      (d.hold = .no ∨ d.state = .closed ∨ d.state = .pending ∨ d.state = .closing → answers [2, 4] k)
      ∧ (d.state = .opening ∨ d.state = .reopening → d.hold ≠ .no →
        answers [1, 0] (setDoor j { d with hold := .no, holdTimer := none } k))
      ∧ (∀ n, d.state = .open → d.hold = .yes (n + 1) →
        answers [1, 0] (setDoor j { d with
          hold := .no, holdTimer := none, dwellTimer := .running (s.now + (n + 1)) } k))
      ∧ (d.state = .open → d.hold = .yes 0 → (∀ i, s.isBerth i = true → (s.door i).state ≠ .pending) →
        answers [1, 0] (setDoor j { d with
            hold := .no, holdTimer := none, deskMark := some .closed, state := .pending, dwellTimer := .stopped }
          { k with ds := { k.ds with windowTimer := some (s.now + w), capTimer := some (s.now + 4 * w) } })))

/-- Parts of R109: a DOOR request is refused with RANGE when its berth is not one of 1..B, and with STATE when the berth
has no drive or its record is in FAULT; the refusal changes nothing but the key sequence (R187). -/
def Obligations.DoorRequestsChecked : Prop :=
  ∀ (c : Instr) (op : Byte) (j : Nat) (r : Request) (rest : List Request) (s : State), j < 256 →
    (c, op) ∈ [(Instr.doorOpen, 0), (.doorClose, 1), (.doorHold, 2), (.doorRelease, 3)] →
    Asked r rest [0x05, BitVec.ofNat 8 j, op] s →
    (s.isBerth j = false → exec c s = .next (replied r [0x05, 2, 3] (keyless (taken rest s))))
    ∧ (s.isBerth j = true → (s.berth j).entry.doorNode = 0 ∨ (s.door j).state = .fault →
      exec c s = .next (replied r [0x05, 2, 4] (keyless (taken rest s))))

/-- Parts of R113, R102, R104, R106, R107: DOOR_RESET is refused with RANGE for a berth not in 1..B, and with STATE
unless the record is in FAULT with a last status that is not FAILED. Otherwise its counts return to 0, DOOR_FAULT is
reported gone, and the REPLY is DONE. The record takes the state shown: LOCKED makes it CLOSED, with the notice locked
by the test of R107; OPEN makes it OPEN with a full dwell when the berth holds a cabin, and PENDING, in the gather, when
it does not; OPENING and CLOSING start the motion timer with no command, and a CLOSING one joins the warning set;
OBSTRUCTED forms an OPEN command, placed or waiting, with the notice opened for a cabin. A found motion or opening sends
CT no notice (log entry 29, the model's inference). A waiting open that the line state has not cancelled is then made as
R102 makes it. (OBSTRUCTED is stated where no command of the berth waits.) -/
def Obligations.DoorResetTakesTheStateShown : Prop :=
  ∀ (j : Nat) (r : Request) (rest : List Request) (s : State), j < 256 → Asked r rest [0x06, BitVec.ofNat 8 j] s →
    let d := s.door j
    let k := keyless (taken rest s)
    (s.isBerth j = false → exec .doorReset s = .next (replied r [0x06, 2, 3] k))
    ∧ (s.isBerth j = true → d.state ≠ .fault ∨ d.lastStatus = none ∨ (∃ g, d.lastStatus = some (.failed, g)) →
      exec .doorReset s = .next (replied r [0x06, 2, 4] k))
    ∧ ∀ st g, s.isBerth j = true → Settled s → d.state = .fault → d.lastStatus = some (st, g) → st ≠ .failed →
      ∃ v, Withdrawn (.berth j) .doorFault (setDoor j { d with retryCount := 0, stallCount := 0 } k) v ∧
        let x := v.door j
        let e := (s.berth j).entry
        let moves := some (s.now + e.motionLimit * 100)
        let opens := x.waitingOpen = true ∧ d.cabin.isSome = true
          ∧ (v.ls.line = .starting ∨ v.ls.line = .running ∨ v.ls.line = .slowed ∨ v.ls.line = .stopping)
        let shows := fun (f : State → State) (t : State) =>
          (¬ opens → exec .doorReset s = .next (replied r [0x06, 0, 0] (f t)))
          ∧ (opens → exec .doorReset s = .next (replied r [0x06, 0, 0] (updateWarning s.closingSet
              (openForCabin j (setDoor j { t.door j with waitingOpen := false } t)))))
        let running := { x with state := .open, dwellTimer := .running (s.now + e.dwell * 500) }
        let opening := fun (c : DoorCmd × Sending) (ack move : Option Nat) => { x with
          state := .opening, command := some c, ackTimer := ack, motionTimer := move, dwellTimer := .stopped
          dwellKind := .full }
        let told := fun t : State => if d.cabin.isSome then noticeLocked j false t else t
        (st = .locked → shows id (
          let t := setDoor j { x with state := .closed } v
          if d.cabin.isSome ∧ x.openDelay = none ∧ x.waitingOpen = false then noticeLocked j true t else t))
        ∧ (st = .opening → shows id (setDoor j { x with state := .opening, motionTimer := moves } v))
        ∧ (st = .closing →
          shows (updateWarning s.closingSet) (setDoor j { x with state := .closing, motionTimer := moves } v))
        ∧ (st = .open → d.cabin.isSome = true →
          ((∃ i, s.isBerth i = true ∧ i ≠ j ∧ (s.door i).state = .pending) → shows id (setDoor j running v))
          ∧ ((∀ i, s.isBerth i = true → i ≠ j → (s.door i).state ≠ .pending) →
            shows id (setDoor j running { v with ds := { v.ds with windowTimer := none, capTimer := none } })))
        ∧ (∀ cap, st = .open → d.cabin = none →
          ((∀ i, s.isBerth i = true → (s.door i).state ≠ .pending) ∧ cap = some (s.now + 4 * (e.gatherWindow * 100)))
            ∨ ((∃ i, s.isBerth i = true ∧ (s.door i).state = .pending) ∧ cap = s.ds.capTimer) →
          shows id (setDoor j { x with state := .pending, dwellTimer := .stopped }
            { v with ds := { v.ds with windowTimer := some (s.now + e.gatherWindow * 100), capTimer := cap } }))
        ∧ (st = .obstructed → DoorWait.command j ∉ s.ds.waiting →
          (s.lr.door.length < 8 → shows id (told (setDoor j (opening (.open, .placedOnce) (some (s.now + 300)) moves)
            { v with lr := { v.lr with door := s.lr.door ++
              [{ dest := e.doorNode, kind := .doorCmd, payload := [0], tag := 0, restart := false }] } })))
          ∧ (8 ≤ s.lr.door.length → shows id (told (setDoor j (opening (.open, .waiting) none none)
            { v with ds := { v.ds with waiting := s.ds.waiting ++ [.command j] } }))))

/-! ## CS: the ring timer and cadence -/

/-- Parts of R159, R152, R151: RING_TIMER_EXPIRY clears the call with cause NO_ANSWER: the record becomes IDLE with
phone none and CALL_CHANGE is set; its priority stands (log entry 41). An OUTGOING call's phone is sent IDLE; an
INCOMING call's rung set is sent RING OFF. A CALL_CLEAR goes to the summit, unless the call's CALL_RING still waits in
the backlog, which is then withdrawn. (Stated with no waiting request, and room for every frame.) Parts of R159:
RING_REPEAT sends RING ON to every phone of the ring group with a node address (log entry 43), each of which joins the
rung set, and runs again 1 s after it ran out. -/
def Obligations.RingTimersRunOut : Prop :=
  (∀ (t : Nat) (s : State), s.resetHeld = false → s.cs.ringTimer = some t → s.cs.waiting = [] → Settled s →
      s.sl.txQueue.length < 15 →
      let u : State := { s with now := max s.now t }
      let told := updateRelease { u with sl := { u.sl with
        txQueue := s.sl.txQueue ++
          [{ msg := { type := 5, payload := [2] }, seq := s.sl.nextSend, sent := false, age := 0 }]
        nextSend := s.sl.nextSend + 1 } }
      let cleared := fun (v : State) (frames : List QFrame) => setFlag .callChange { v with
        cs := { s.cs with call := .idle, phone := none, ringTimer := none, repeatTimer := none, rung := [], backlog := [] }
        lr := { v.lr with voice := s.lr.voice ++ frames } }
      (∀ h, s.cs.call = .outgoing → s.cs.phone = some h → (s.phoneEntry h).node ≠ 0 → s.lr.voice.length < 4 →
        let frames : List QFrame :=
          [{ dest := (s.phoneEntry h).node, kind := .call, payload := [4, 0, 2], tag := 0, restart := false }]
        (s.cs.backlog = [] → exec .ringTimerExpiry s = .next (cleared told frames))
        ∧ ∀ p, s.cs.backlog = [{ type := 3, payload := p }] → exec .ringTimerExpiry s = .next (cleared u frames))
      ∧ (s.cs.call = .incoming → s.cs.phone = none → s.cs.backlog = [] → (∀ h ∈ s.cs.rung, (s.phoneEntry h).node ≠ 0) →
        s.lr.voice.length + s.cs.rung.length ≤ 4 →
        exec .ringTimerExpiry s = .next (cleared told (s.cs.rung.map fun h =>
          { dest := (s.phoneEntry h).node, kind := .call, payload := [3, 0, 0], tag := 0, restart := false }))))
  ∧ (∀ (t : Nat) (s : State), s.resetHeld = false → s.cs.repeatTimer = some t →
      let group := (List.range 8).filter fun h => (s.phoneEntry h).ringGroup && (s.phoneEntry h).node != 0
      s.lr.voice.length + group.length ≤ 4 →
      exec .ringRepeat s = .next { s with
        now := max s.now t
        cs := { s.cs with
          repeatTimer := some (t + 1000), rung := s.cs.rung ++ group.filter (fun h => !s.cs.rung.contains h) }
        lr := { s.lr with voice := s.lr.voice ++ group.map (fun h =>
          { dest := (s.phoneEntry h).node, kind := .call, payload := [2, 0, 0], tag := 0, restart := false }) } })

/-! ## SL: turns -/

/-- Parts of R118, R124, R125, R133, R137, R139: TURN_START while the valley is not sending, no turn is still open and
the link is not LOST. The turn timer restarts, the turn number advances (0 first after a resynchronisation), and every
sent entry ages. With the break pending mark set the turn carries a break; else the burst of R124 is begun, with the
oldest block of voice that the summit's answer may share with the messages, and the unsent messages, here those of a
queue with none sent. The burst's content is taken from the state at this command, since TURN_START is the step that
95_what_each_step_holds gives the forming, though R124 forms it at the end of the lead guard 96 bit times later: the
model's choice (log entry 72). Parts of R137: a turn start that finds the oldest entry sent with its age reaching 10
returns every sent entry to unsent. Parts of R118, R119, R130, R131, R133: VALLEY_BURST_SENT lowers DE and opens the
reply window of 1 ms for the turn of the burst, and for none when a resynchronisation has ended that turn; BREAK_SENT
lowers DE and clears the break pending mark, and its turn ends without outcome. ATTENTION_SENT lowers DE. -/
def Obligations.TurnsStartAndSendingEnds : Prop :=
  (∀ (t : Nat) (s : State), s.resetHeld = false → s.sl.turnTimer = some t → s.sl.tx = .quiet →
      s.sl.turn = .none ∨ s.sl.turn = .sending → s.sl.link ≠ .lost →
      let number : Byte := if s.sl.firstTurn then 0 else s.sl.turnNumber + 1
      let u : State := { s with
        now := max s.now t
        sl := { s.sl with turnTimer := some (t + 20), turnNumber := number, firstTurn := false, turn := .none } }
      let aged := s.sl.txQueue.map fun e => if e.sent then { e with age := e.age + 1 } else e
      (s.sl.breakPending = true → (∀ e ∈ s.sl.txQueue, e.sent = true → e.age < 9) →
        exec .turnStart s = .next { u with sl := { u.sl with txQueue := aged, tx := .breaking } })
      ∧ (s.sl.breakPending = false → (∀ e ∈ s.sl.txQueue, e.sent = false) →
        let yields := s.straps.rate = 0 ∧ 8 ≤ s.sl.txQueue.length
        let voice := if yields then none else s.cs.voice.head?
        let limit := if s.sl.summitHold then 0 else if s.straps.rate = 0 ∧ voice.isSome = true then 1 else 3
        let taken := s.sl.txQueue.take limit
        let word : SafetyWord :=
          { demand := s.ls.effDemand, line := s.ls.line
            tripLatched := s.ls.faults.any (fun e => e.latched && e.cls == .trip) || s.ls.overflow == .trip }
        exec .turnStart s = .next { u with
          cs := { s.cs with voice := s.cs.voice.drop 1 }
          sl := { u.sl with
            txQueue := taken.map (fun e => { e with sent := true, age := 0 }) ++ s.sl.txQueue.drop limit
            tx := .burst (burstBytes number word s.sl.nextExpected s.sl.holdFlag voice (taken.map fun e => (e.msg, e.seq)))
            turn := .sending } }))
  ∧ (∀ (t : Nat) (e : TxEntry) (es : List TxEntry) (s : State), s.resetHeld = false → s.sl.turnTimer = some t →
      s.sl.tx = .quiet → s.sl.turn = .none → s.sl.link = .up → s.sl.breakPending = true →
      s.sl.txQueue = e :: es → e.sent = true → e.age = 9 →
      exec .turnStart s = .next { s with
        now := max s.now t
        sl := { s.sl with
          turnTimer := some (t + 20), turnNumber := if s.sl.firstTurn then 0 else s.sl.turnNumber + 1, firstTurn := false
          tx := .breaking
          txQueue := s.sl.txQueue.map fun x => { x with sent := false, age := 0 } } })
  ∧ ∀ s : State, s.resetHeld = false →
    (∀ bytes, s.sl.tx = .burst bytes →
      (s.sl.turn = .sending → exec .valleyBurstSent s = .next { s with sl := { s.sl with
        tx := .quiet, turn := .window (s.now + 1) } })
      ∧ (s.sl.turn ≠ .sending → exec .valleyBurstSent s = .next { s with sl := { s.sl with tx := .quiet } }))
    ∧ (s.sl.tx = .breaking → exec .breakSent s = .next { s with sl := { s.sl with tx := .quiet, breakPending := false } })
    ∧ (∀ bytes, s.sl.tx = .attention bytes → exec .attentionSent s = .next { s with sl := { s.sl with tx := .quiet } })

/-- Parts of R119, R121, R122, R123, R160: REPLY_WINDOW_CLOSE makes the turn MISSED, and so does a CLASH during a burst,
which also lowers DE and sets CLASH. A MISSED turn raises the missed count by 1; 3 in UP makes the link DEGRADED, with
LINK_CHANGE; at 10 the link enters LOST until the next turn would have started, LINK_LOST is raised, SUMMIT_DEMAND
reported gone, and the summit's safety word forgotten. In LOST the message backlog is dropped, and a call in progress
ends with cause LINK and CALL_CHANGE, no CALL_CLEAR sent: the phone of an OUTGOING or CONNECTED call is told IDLE, LINK,
the rung set of an INCOMING one hears RING OFF, and the link voice queue of a CONNECTED one is emptied. The call keeps
its priority (log entry 41), and RING OFF goes in the order of the rung set (log entry 79), which are the model's
choices. The waiting list is kept. (A call is stated with room in the VOICE queue for its frames.) -/
def Obligations.MissedTurnsLoseTheLink : Prop :=
  ∀ (c : Instr) (s base : State), s.resetHeld = false →
    (∃ t, c = .replyWindowClose ∧ s.sl.turn = .window t ∧ base = { s with now := max s.now t })
      ∨ (∃ bytes, c = .clash ∧ s.sl.tx = .burst bytes ∧ s.sl.turn = .sending
        ∧ base = setFlag .clash { s with sl := { s.sl with tx := .quiet } }) →
    (s.sl.missed + 1 < 3 ∨ (s.sl.link ≠ .up ∧ s.sl.missed + 1 < 10) →
      exec c s = .next { base with sl := { base.sl with missed := s.sl.missed + 1, turn := .none } })
    ∧ (3 ≤ s.sl.missed + 1 → s.sl.missed + 1 < 10 → s.sl.link = .up →
      exec c s = .next (setFlag .linkChange
        { base with sl := { base.sl with missed := s.sl.missed + 1, turn := .none, link := .degraded } }))
    ∧ (∀ next, s.sl.turnTimer = some next → 10 ≤ s.sl.missed + 1 → s.sl.link ≠ .lost → Settled s →
      ∃ u v,
        (let told (h : Nat) (bytes : List Byte) : QFrame :=
          { dest := (s.phoneEntry h).node, kind := .call, payload := bytes, tag := 0, restart := false }
        let ended (voice : List (List Byte)) (frames : List QFrame) : State := setFlag .callChange { v with
          lr := { v.lr with voice := v.lr.voice ++ frames }
          cs := { v.cs with
            call := .idle, phone := none, ringTimer := none, repeatTimer := none, rung := [], voice := voice
            backlog := [] } }
        (s.cs.call = .idle → exec c s = .next { v with cs := { v.cs with backlog := [] } })
        ∧ (∀ h, s.cs.call = .outgoing ∨ s.cs.call = .connected → s.cs.phone = some h → (s.phoneEntry h).node ≠ 0 →
          s.lr.voice.length < 4 →
          exec c s = .next (ended (if s.cs.call = .connected then [] else s.cs.voice) [told h [4, 0, 3]]))
        ∧ (s.cs.call = .incoming → s.cs.phone = none → (∀ h ∈ s.cs.rung, (s.phoneEntry h).node ≠ 0) →
          s.lr.voice.length + s.cs.rung.length ≤ 4 →
          exec c s = .next (ended s.cs.voice (s.cs.rung.map fun h => told h [3, 0, 0]))))
        ∧ Raised { source := .link, code := .linkLost, cls := .stop, latched := true, present := true }
            (setFlag .linkChange { base with sl := { base.sl with
              missed := s.sl.missed + 1, link := .lost, turnTimer := none, turn := .none
              lostUntil := some next, summitWord := none, summitHeld := none } }) u
        ∧ Withdrawn .link .summitDemand u v)

/-- Parts of R123, R130, R133, R129, R119. LOST_PERIOD_END enters SYNCING with LINK_CHANGE and the first attention
instant 10 ms later. An ATTENTION_INSTANT restarts the timer with 200 ms; with DE high it sends nothing (log entry 38);
with DE low it sends the break that is pending, else the attention sequence, or lets it wait for 10 ms of idle line;
ATTENTION_SEND_AFTER_IDLE sends the waiting sequence, which a break sent meanwhile does not take away (log entry 39).
The attention detector's stages, in every link state but DOWN: ATTENTION_IDLE_TIMEOUT starts the sequence once 10 ms
have passed with no character since detection began, or began anew (after a detection, from the detection: log entry
65); a gap before a character that the sequence expects starts detection anew from that instant.
SUMMIT_CHARACTER_RECEIVED with DE low takes 5Ah three times, the status character and the next-expected character, and
anything else breaks the sequence off; the 10 ms run from the character. A character in the reply window opens the
reception of the summit burst, and one in reception joins it. -/
def Obligations.AttentionSequencesAndDetector : Prop :=
  (∀ s : State, s.resetHeld = false →
      let bytes : List Byte := [0x5A, 0x5A, 0x5A, if s.sl.restartFlag then 0x41 else 0x40, s.sl.nextExpected]
      (∀ t, s.sl.link = .lost → s.sl.lostUntil = some t →
        exec .lostPeriodEnd s = .next { setFlag .linkChange { s with now := max s.now t } with sl := { s.sl with
          link := .syncing, lostUntil := none, attnTimer := some (max s.now t + 10), attnWaiting := false } })
      ∧ (∀ t, s.sl.link = .syncing → s.sl.attnTimer = some t →
        let u : State := { s with now := max s.now t, sl := { s.sl with attnTimer := some (t + 200) } }
        (s.sl.tx ≠ .quiet → exec .attentionInstant s = .next u)
        ∧ (s.sl.tx = .quiet → s.sl.breakPending = true →
          exec .attentionInstant s = .next { u with sl := { u.sl with tx := .breaking } })
        ∧ (s.sl.tx = .quiet → s.sl.breakPending = false → s.sl.attnWaiting = true → exec .attentionInstant s = .next u)
        ∧ (s.sl.tx = .quiet → s.sl.breakPending = false → s.sl.attnWaiting = false →
          (∀ c, s.sl.lastChar = some c → u.now < c + 10 →
            exec .attentionInstant s = .next { u with sl := { u.sl with attnWaiting := true } })
          ∧ ((∀ c, s.sl.lastChar = some c → c + 10 ≤ u.now) →
            exec .attentionInstant s = .next { u with sl := { u.sl with tx := .attention bytes } })))
      ∧ (∀ c, s.sl.link = .syncing → s.sl.attnWaiting = true → s.sl.tx = .quiet → s.sl.lastChar = some c →
        exec .attentionSendAfterIdle s = .next { s with
          now := max s.now (c + 10), sl := { s.sl with attnWaiting := false, tx := .attention bytes } }))
  ∧ ∀ (x : Byte) (framing : Bool) (s : State), s.resetHeld = false → s.sl.link ≠ .down →
    (s.sl.detector = .idle → exec .attentionIdleTimeout s = .next { s with
      now := max s.now (s.sl.idleFrom + 10), sl := { s.sl with detector := .first } })
    ∧ (s.sl.detector = .second ∨ s.sl.detector = .third ∨ s.sl.detector = .status
        ∨ (∃ r, s.sl.detector = .sequence r) →
      exec .attentionIdleTimeout s = .next { s with sl := { s.sl with detector := .idle, idleFrom := s.now } })
    ∧ (s.sl.tx = .quiet →
      let next : Detector :=
        if framing = true then .idle
        else if s.sl.detector = .first ∧ x = 0x5A then .second
        else if s.sl.detector = .second ∧ x = 0x5A then .third
        else if s.sl.detector = .third ∧ x = 0x5A then .status
        else if s.sl.detector = .status ∧ x = 0x40 then .sequence false
        else if s.sl.detector = .status ∧ x = 0x41 then .sequence true
        else if s.sl.detector = .sequence false then .trail false x
        else if s.sl.detector = .sequence true then .trail true x
        else .idle
      let heard : State := { s with sl := { s.sl with
        detector := next, lastChar := some s.now, idleFrom := s.now } }
      (s.sl.turn = .none → exec (.summitCharacterReceived x framing) s = .next heard)
      ∧ (∀ t, s.sl.turn = .window t → exec (.summitCharacterReceived x framing) s =
          .next { heard with sl := { heard.sl with turn := .receiving [x] framing } })
      ∧ (∀ cs f, s.sl.turn = .receiving cs f → exec (.summitCharacterReceived x framing) s =
          .next { heard with sl := { heard.sl with turn := .receiving (cs ++ [x]) (f || framing) } }))

/-- Parts of R131, R129, R140: ATTENTION_DETECTED resynchronises, once 10 ms have passed since the last character; that
the detector then waits for 10 ms anew, the idle time counted from the detection, is the model's choice (log entry 65).
The link enters UP, the missed count and the restart flag clear, the turn in progress ends, and turn 0 starts 20 ms
later. With the summit's restart flag the queue is unsent and numbered anew from its next-expected value, and the
valley's next-expected value becomes 0; without it, an unconfirmed queue becomes unsent. An entry into UP from another
state reports LINK_LOST gone and sets LINK_CHANGE. (Stated with no waiting request.) -/
def Obligations.DetectionResynchronises : Prop :=
  ∀ (restart : Bool) (next : Byte) (s : State), s.resetHeld = false →
    s.sl.detector = .trail restart next → s.sl.link ≠ .down → s.cs.waiting = [] →
    (restart = false → ∀ e es, s.sl.txQueue = e :: es → next = e.seq) →
    let at' := max s.now (s.sl.idleFrom + 10)
    let queue := if restart then renumber next (s.sl.txQueue.map TxEntry.unsent) else s.sl.txQueue.map TxEntry.unsent
    let synced : State := { s with
      now := at'
      sl := { s.sl with
        detector := .idle, idleFrom := at', link := .up, missed := 0, restartFlag := false, attnTimer := none
        attnWaiting := false, lostUntil := none, txQueue := queue
        nextSend := if restart then next + BitVec.ofNat 8 s.sl.txQueue.length else s.sl.nextSend
        nextExpected := if restart then 0 else s.sl.nextExpected } }
    let turned := fun u : State => { u with sl := { u.sl with
      turn := .none, turnTimer := some (at' + 20), firstTurn := true } }
    (s.sl.link = .up → exec .attentionDetected s = .next (turned synced))
    ∧ (s.sl.link ≠ .up → Settled s →
      ∃ u, exec .attentionDetected s = .next (turned u) ∧ Withdrawn .link .linkLost (setFlag .linkChange synced) u)

/-- Parts of R120, R122, R126 to R128, R138, R141, R143: SUMMIT_BURST_END. A good burst, one without a framing error
that parses for the rate and carries the turn's number, clears the missed count; its safety word is kept, the entries
that its next-expected value names are removed, its hold flag stored, and its notes received, or refused at 8. A bad one
makes the turn MISSED. (Stated in UP, its demand held, with no voice and at most one message, a DESK_NOTE.) A first or
more severe demand raises SUMMIT_DEMAND live at its level's class (with nothing else to hand on). Parts of R141, R142,
R145, R146, R156, R157, R162: a good burst of one message, or of voice. A message beyond the expected one sets GAP.
CABIN_ARRIVED takes an uphill cabin to SUMMIT, raising ORDER with CABIN_ORDER for one not the oldest and
ARRIVAL_POSITION for one outside its window; a cabin not in the list raises UNKNOWN_ARRIVAL. CABIN_LAUNCHED takes a
registered cabin to the tail of the downhill list, not taken with DOWNHILL_FULL when the list is full; from elsewhere
than SUMMIT it raises UNKNOWN_CABIN, its records leave, GRIP_FAIL is reported gone, and a berth left is checked (R89)
and vacated; one not registered raises UNKNOWN_CABIN alone. CALL_RING rings an IDLE part's ring group, changes nothing
in INCOMING, connects an OUTGOING call by glare, and in CONNECTED clears the call and then is taken as in OUTGOING, a
waiting phone served first, or as in IDLE. CALL_ANSWER connects an OUTGOING call; CALL_CLEAR ends one in any state;
voice goes to the phone of a CONNECTED call. The model's choices: the ring group is its phones with a node address (log
entry 43), rung by index and silenced in the rung set's order (79); a cleared call keeps its priority (41); standings
carry NORMAL (81). -/
def Obligations.SummitBurstsJudged : Prop :=
  (∀ (chars : List Byte) (framing : Bool) (s : State), s.resetHeld = false → s.sl.turn = .receiving chars framing →
      (∀ b, framing = false → parseSummitBurst s.straps.rate chars = some b → b.turn = s.sl.turnNumber →
        s.sl.summitHeld = some b.word.demand → b.voice = none → s.sl.link = .up →
        let good : State := { s with sl := { s.sl with missed := 0, turn := .none, summitWord := some b.word } }
        let u : State := { good with sl := { good.sl with summitHold := b.hold } }
        ((∀ e es, s.sl.txQueue = e :: es → (b.next - e.seq).toNat = 0 ∨ s.sl.txQueue.length < (b.next - e.seq).toNat) →
          (b.msgs = [] → exec .summitBurstEnd s = .next u)
          ∧ ∀ note, b.msgs = [({ type := 6, payload := note }, s.sl.nextExpected)] →
            (s.sl.rxQueue.length < 8 → exec .summitBurstEnd s = .next (
              let v := setFlag .summitNote { u with sl := { u.sl with
                rxQueue := s.sl.rxQueue ++ [note], holdFlag := s.sl.holdFlag || decide (6 ≤ s.sl.rxQueue.length + 1) } }
              { v with sl := { v.sl with nextExpected := s.sl.nextExpected + 1 } }))
            ∧ (8 ≤ s.sl.rxQueue.length → exec .summitBurstEnd s = .next u))
        ∧ ∀ e es, s.sl.txQueue = e :: es → 1 ≤ (b.next - e.seq).toNat → (b.next - e.seq).toNat ≤ s.sl.txQueue.length →
          Settled s → s.cs.backlog = [] → b.msgs = [] → exec .summitBurstEnd s = .next (
            let v := updateRelease { good with sl := { good.sl with txQueue := s.sl.txQueue.drop (b.next - e.seq).toNat } }
            { v with sl := { v.sl with summitHold := b.hold } }))
      ∧ (framing = true ∨ parseSummitBurst s.straps.rate chars = none
          ∨ (∃ b, parseSummitBurst s.straps.rate chars = some b ∧ b.turn ≠ s.sl.turnNumber) →
        s.sl.missed + 1 < 3 →
        exec .summitBurstEnd s = .next { s with sl := { s.sl with missed := s.sl.missed + 1, turn := .none } }))
  ∧ (∀ (chars : List Byte) (b : SummitBurst) (s : State), s.resetHeld = false → s.sl.turn = .receiving chars false →
      parseSummitBurst s.straps.rate chars = some b → b.turn = s.sl.turnNumber → s.sl.txQueue = [] → b.voice = none →
      b.msgs = [] → s.sl.link = .up → Settled s →
      (s.sl.summitHeld = none ∨ ∃ h, s.sl.summitHeld = some h ∧ h.code < b.word.demand.code) →
      ∃ t, exec .summitBurstEnd s = .next { t with sl := { t.sl with summitHold := b.hold } }
        ∧ Raised { source := .link, code := .summitDemand, cls := b.word.demand.faultClass, latched := false, present := true }
            { s with sl := { s.sl with
              missed := 0, turn := .none, summitWord := some b.word, summitHeld := some b.word.demand } } t)
  ∧ (∀ (chars : List Byte) (b : SummitBurst) (s : State), s.resetHeld = false → s.sl.turn = .receiving chars false →
      parseSummitBurst s.straps.rate chars = some b → b.turn = s.sl.turnNumber → s.sl.txQueue = [] →
      s.sl.summitHeld = some b.word.demand → s.sl.link = .up →
      let u : State := { s with sl := { s.sl with
        missed := 0, turn := .none, summitWord := some b.word, summitHold := b.hold } }
      let took := fun (t : State) => exec .summitBurstEnd s = .next { t with sl := { t.sl with
        nextExpected := s.sl.nextExpected + 1 } }
      let called := fun (t : State) (cs : CallSwitch) (frames : List QFrame) =>
        setFlag .callChange { t with cs := cs, lr := { t.lr with voice := t.lr.voice ++ frames } }
      let event (source : Source) (code : FaultCode) : Raise :=
        { source := source, code := code, cls := .stop, latched := true, present := false }
      let told := fun (h : Nat) (bytes : List Byte) =>
        ({ dest := (s.phoneEntry h).node, kind := .call, payload := bytes, tag := 0, restart := false } : QFrame)
      (∀ m q, b.voice = none → b.msgs = [(m, q)] → 1 ≤ (q - s.sl.nextExpected).toNat →
        (q - s.sl.nextExpected).toNat ≤ 127 → exec .summitBurstEnd s = .next (setFlag .gap u))
      ∧ (∀ m, b.voice = none → b.msgs = [(m, s.sl.nextExpected)] →
        (∀ x : Nat, 1 ≤ x → x ≤ 999 → m = { type := 0x02, payload := enc2 x } → Settled s →
          ((∀ e ∈ s.ct.uphill, e.id ≠ x) → ∃ t, took t
            ∧ Raised (event (.cabin x) .unknownArrival) u t)
          ∧ ∀ before e after, s.ct.uphill = before ++ e :: after → e.id = x → (∀ y ∈ before, y.id ≠ x) →
            let d := (((s.ra.p : Int) - e.pos) % s.params.loopLen).toNat
            let inside := s.params.uphillSpan ≤ d + s.params.tolerance ∧ d ≤ s.params.uphillSpan + s.params.tolerance
            let moved := setLocation x .summit { u with ct := { s.ct with uphill := before ++ after } }
            ∃ v w, (before = [] → v = moved) ∧ (before ≠ [] → Raised (event (.cabin x) .order) (setFlag .cabinOrder moved) v)
              ∧ (inside → w = v) ∧ (¬ inside → Raised (event (.cabin x) .arrivalPosition) v w) ∧ took (updateRelease w))
        ∧ (∀ x : Nat, 1 ≤ x → x ≤ 999 → m = { type := 0x01, payload := enc2 x } →
          (s.location x = some .summit → s.ct.downhill.length < 64 → (∀ c ∈ s.ct.queue, c.id ≠ x) →
            (∀ e ∈ s.ct.uphill, e.id ≠ x) → (∀ e ∈ s.ct.downhill, e.id ≠ x) →
            took (setLocation x .downhill { u with ct := { s.ct with
              downhill := s.ct.downhill ++ [{ id := x, pos := s.ra.p, overdue := false }] } }))
          ∧ (Settled s →
            (s.location x = none → ∃ t, took t
              ∧ Raised (event (.cabin x) .unknownCabin) u t)
            ∧ (s.registered x = true → (∀ e ∈ s.ct.downhill, e.id ≠ x) → 64 ≤ s.ct.downhill.length →
              ∃ t, exec .summitBurstEnd s = .next t ∧ Raised (event (.cabin x) .downhillFull) u t)
            ∧ ∀ loc, s.location x = some loc → loc ≠ .summit →
              (∃ e ∈ s.ct.downhill, e.id = x) ∨ s.ct.downhill.length < 64 →
              let moved (q : List Cabin) : State := setLocation x .downhill { u with ct := { s.ct with
                queue := q
                uphill := s.ct.uphill.filter fun e => e.id ≠ x
                downhill := s.ct.downhill.filter (fun e => e.id ≠ x) ++ [{ id := x, pos := s.ra.p, overdue := false }] } }
              let told (q : List Cabin) : State → Prop := Raised (event (.cabin x) .unknownCabin) (moved q)
              ((∀ c ∈ s.ct.queue, c.id ≠ x) → ∃ v, told s.ct.queue v ∧ took (updateRelease v))
              ∧ ∀ before c after, s.ct.queue = before ++ c :: after → c.id = x → (∀ y ∈ before ++ after, y.id ≠ x) →
                ∃ v w, told (before ++ after) v ∧ (c.grip ≠ .fail → w = v)
                  ∧ (c.grip = .fail → Withdrawn (.cabin x) .gripFail v w)
                  ∧ (s.isBerth c.zone = false → took (updateRelease w))
                  ∧ (s.isBerth c.zone = true → ∃ y, ((s.door c.zone).state = .closed → y = w)
                    ∧ ((s.door c.zone).state ≠ .closed → Raised (event (.berth c.zone) .doorNotLocked) w y)
                    ∧ took (updateRelease (setDoor c.zone
                      { y.door c.zone with cabin := none, openDelay := none, waitingOpen := false } y)))))
        ∧ (∀ p : Priority, m = { type := 0x03, payload := enc1 p.code } →
          let group := (List.range 8).filter fun h => (s.phoneEntry h).ringGroup && (s.phoneEntry h).node != 0
          let rings := group.map fun h => told h [2, 0, 0]
          let worse (a b : Priority) : Priority := if a = .emergency ∨ b = .emergency then .emergency else .service
          let incoming : CallSwitch := { s.cs with
            call := .incoming, phone := none, priority := p, ringTimer := some (s.now + 30000)
            repeatTimer := some (s.now + 1000), rung := group }
          let connected (a : Priority) : CallSwitch := { s.cs with
            call := .connected, priority := worse a p, ringTimer := none, repeatTimer := none, rung := [] }
          (s.cs.call = .idle → s.lr.voice.length + group.length ≤ 4 → took (called u incoming rings))
          ∧ (s.cs.call = .incoming → took u)
          ∧ ∀ h, s.cs.phone = some h → (s.phoneEntry h).node ≠ 0 → s.lr.voice.length < 4 →
            (s.cs.call = .outgoing → took (called u (connected s.cs.priority) [told h [4, 4, 0]]))
            ∧ (s.cs.call = .connected → s.cs.backlog = [] →
              (s.cs.waiting = [] → s.lr.voice.length + group.length < 4 →
                took (called u { incoming with voice := [] } (told h [4, 0, 0] :: rings)))
              ∧ ∀ y ys, s.cs.waiting = y :: ys → (s.phoneEntry y.phone).node ≠ 0 → s.lr.voice.length < 2 → Settled s →
                let v := updateRelease { u with sl := { u.sl with
                  txQueue := [{
                    msg := { type := 0x03, payload := enc1 y.priority.code }, seq := s.sl.nextSend, sent := false, age := 0 }]
                  nextSend := s.sl.nextSend + 1 } }
                took (called v { connected y.priority with phone := some y.phone, waiting := ys, voice := [] }
                  [told h [4, 0, 0], told y.phone [4, 1, 0], told y.phone [4, 4, 0]])))
        ∧ (m = { type := 0x04, payload := [] } →
          (s.cs.call ≠ .outgoing → took u)
          ∧ ∀ h, s.cs.call = .outgoing → s.cs.phone = some h → (s.phoneEntry h).node ≠ 0 → s.lr.voice.length < 4 →
            took (called u { s.cs with call := .connected, ringTimer := none, repeatTimer := none, rung := [] }
              [told h [4, 4, 0]]))
        ∧ (∀ c : Cause, c ≠ .link → m = { type := 0x05, payload := enc1 c.code } →
          (s.cs.call = .idle → took u)
          ∧ (s.cs.call ≠ .idle → s.cs.waiting = [] → s.cs.backlog = [] →
            let ended (v : List (List Byte)) : CallSwitch := { s.cs with
              call := .idle, phone := none, ringTimer := none, repeatTimer := none, rung := [], voice := v }
            (∀ h, s.cs.call ≠ .incoming → s.cs.phone = some h → (s.phoneEntry h).node ≠ 0 → s.lr.voice.length < 4 →
              took (called u (ended (if s.cs.call = .connected then [] else s.cs.voice)) [told h ([4, 0] ++ enc1 c.code)]))
            ∧ (s.cs.call = .incoming → s.cs.phone = none → (∀ h ∈ s.cs.rung, (s.phoneEntry h).node ≠ 0) →
              s.lr.voice.length + s.cs.rung.length ≤ 4 →
              took (called u (ended s.cs.voice) (s.cs.rung.map fun h => told h [3, 0, 0]))))))
      ∧ (∀ block, b.voice = some block → b.msgs = [] →
        (s.cs.call ≠ .connected → exec .summitBurstEnd s = .next u)
        ∧ ∀ h, s.cs.call = .connected → s.cs.phone = some h → (s.phoneEntry h).node ≠ 0 → s.lr.voice.length < 4 →
          exec .summitBurstEnd s = .next { u with lr := { s.lr with voice := s.lr.voice ++
            [{ dest := (s.phoneEntry h).node, kind := .voice, payload := block, tag := 0, restart := false }] } }))

/-- Parts of R132: SUMMIT_BREAK_DETECT, in every link state with DE low, raises SUMMIT_BREAK, a latched TRIP, restarts
the attention detector, and spoils a burst in reception; SUMMIT_BREAK_END reports it gone. -/
def Obligations.SummitBreakTrips : Prop :=
  ∀ s : State, s.resetHeld = false → Settled s →
    (s.sl.tx = .quiet →
      let spoilt : TurnPhase := match s.sl.turn with
        | .receiving cs _ => .receiving cs true
        | p => p
      ∃ t, exec .summitBreakDetect s = .next t
        ∧ Raised { source := .link, code := .summitBreak, cls := .trip, latched := true, present := true }
            { s with sl := { s.sl with turn := spoilt, summitBreak := true, detector := .idle, idleFrom := s.now } } t)
    ∧ (s.sl.summitBreak = true → ∃ t, exec .summitBreakEnd s = .next t
      ∧ Withdrawn .link .summitBreak { s with sl := { s.sl with summitBreak := false } } t)

/-! ## DR: the key sequence -/

/-- R182, with a part of R187: the checks that every request meets before its block judges it. From a source that is not
the desk address as it stands it is SOURCE; during the start-up load NOT_READY; both leave the key state. One whose
payload length does not suit its code, or with a field outside its range as coded, is RANGE, and the key state becomes
NONE. Each answer is the REPLY to its source, with its tag, and nothing else changes. A row takes the requests of its
code; where a byte selects among rows of one code, those whose byte selects it, and any whose byte is missing or selects
none (log entry 5). -/
def Obligations.RequestsAreChecked : Prop :=
  ∀ (r : Request) (rest : List Request) (s : State), s.resetHeld = false → s.lr.requests = r :: rest →
    s.lr.report.length < 8 → s.dr.restartWait = false → r.payload ≠ [] →
    let p := r.payload
    let code := p.headD 0
    let desk := r.source.toNat = s.params.deskNode
    let checked (c : Instr) : Prop :=
      (¬ desk → exec c s = .next (replied r [code, 2, 1] (taken rest s)))
      ∧ (desk → s.cl.load = .loading → exec c s = .next (replied r [code, 2, 2] (taken rest s)))
    (code = 0 ∨ 0x12 < code.toNat → checked .unknownRequest)
    ∧ ∀ (c : Instr) (id : Byte) (select : Option (Nat × Nat × Nat)) (suits : Prop), (c, id, select, suits) ∈
        [(.status, 0x01, none, p.length = 1),
         (.readEntry, 0x02, none, p.length = 5 ∧ u8 p 1 ≤ 9 ∧ 1 ≤ u8 p 4 ∧ u8 p 4 ≤ 4),
         (.writeEntryChannel, 0x03, some (1, 0, 4), p.length = 25 ∧ u8 p 1 = 0),
         (.writeEntryBerth, 0x03, some (1, 1, 4), p.length = 14 ∧ u8 p 1 = 1),
         (.writeEntryFleet, 0x03, some (1, 2, 4), p.length = 6 ∧ u8 p 1 = 2),
         (.writeEntryPhone, 0x03, some (1, 3, 4), p.length = 7 ∧ u8 p 1 = 3),
         (.writeEntryLineParams, 0x03, some (1, 4, 4), p.length = 50 ∧ u8 p 1 = 4),
         (.lineRun, 0x04, some (1, 0, 2), p.length = 2 ∧ u8 p 1 = 0),
         (.lineSlow, 0x04, some (1, 1, 2), p.length = 2 ∧ u8 p 1 = 1),
         (.lineStop, 0x04, some (1, 2, 2), p.length = 2 ∧ u8 p 1 = 2),
         (.doorOpen, 0x05, some (2, 0, 3), p.length = 3 ∧ u8 p 2 = 0),
         (.doorClose, 0x05, some (2, 1, 3), p.length = 3 ∧ u8 p 2 = 1),
         (.doorHold, 0x05, some (2, 2, 3), p.length = 3 ∧ u8 p 2 = 2),
         (.doorRelease, 0x05, some (2, 3, 3), p.length = 3 ∧ u8 p 2 = 3),
         (.doorReset, 0x06, none, p.length = 2),
         (.cabinInsert, 0x07, some (1, 0, 4), p.length = 4 ∧ u8 p 1 = 0),
         (.cabinWithdraw, 0x07, some (1, 1, 4), p.length = 4 ∧ u8 p 1 = 1),
         (.cabinAssign, 0x07, some (1, 2, 4), p.length = 4 ∧ u8 p 1 = 2),
         (.cabinRetest, 0x07, some (1, 3, 4), p.length = 4 ∧ u8 p 1 = 3),
         (.cabinPlace, 0x07, some (1, 4, 4), p.length = 9 ∧ u8 p 1 = 4 ∧ u8 p 4 ≤ 5),
         (.clearFault, 0x08, none, p.length = 3),
         (.flags, 0x09, none, p.length = 7),
         (.capture, 0x0A, none, p.length = 5 ∧ u8 p 1 ≤ 47 ∧ 1 ≤ u16 p 2 ∧ u16 p 2 ≤ 1024 ∧ 1 ≤ u8 p 4 ∧ u8 p 4 ≤ 8),
         (.summitNote, 0x0B, none, p.length ≤ 13),
         (.keyA, 0x0C, none, p.length = 1),
         (.keyB, 0x0D, none, p.length = 1),
         (.tripReset, 0x0E, none, p.length = 1),
         (.bypass, 0x0F, none, p.length = 3 ∧ u8 p 1 ≤ 47 ∧ u8 p 2 ≤ 120),
         (.reinstate, 0x10, none, p.length = 2 ∧ u8 p 1 ≤ 47),
         (.commission, 0x11, none, p.length = 1),
         (.restart, 0x12, none, p.length = 1)] →
      code = id → (∀ off val last, select = some (off, val, last) → p.length ≤ off ∨ last < u8 p off ∨ u8 p off = val) →
      checked c
      ∧ (desk → s.cl.load = .ready → ¬ suits → exec c s = .next (replied r [code, 2, 3] (keyless (taken rest s))))

/-- Parts of R187, R188, R182: KEY_A is answered DONE and starts the key timer of 2,000 ms in state A; KEY_B leads from
A to B, and is refused with KEY from any other state; a keyed request is refused with KEY unless the state is B; a
refusal leaves NONE. The timer's expiry leaves NONE. -/
def Obligations.KeySequence : Prop :=
  ∀ (r : Request) (rest : List Request) (s : State),
    let k := keyless (taken rest s)
    (Asked r rest [0x0C] s → exec .keyA s = .next (replied r [0x0C, 0, 0]
      { k with dr := { k.dr with key := .a, keyTimer := some (s.now + 2000) } }))
    ∧ (Asked r rest [0x0D] s →
      (s.dr.key = .a → exec .keyB s = .next (replied r [0x0D, 0, 0]
        { k with dr := { k.dr with key := .b, keyTimer := some (s.now + 2000) } }))
      ∧ (s.dr.key ≠ .a → exec .keyB s = .next (replied r [0x0D, 2, 6] k)))
    ∧ (∀ (c : Instr) (code : Byte) (operands : List Byte),
      (c, code, operands.length) ∈
        [(Instr.tripReset, 0x0E, 0), (.bypass, 0x0F, 2), (.reinstate, 0x10, 1), (.commission, 0x11, 0), (.restart, 0x12, 0)] →
      u8 operands 0 ≤ 47 → u8 operands 1 ≤ 120 → Asked r rest (code :: operands) s → s.dr.key ≠ .b →
      exec c s = .next (replied r [code, 2, 6] k))
    ∧ ∀ t, s.resetHeld = false → s.dr.keyTimer = some t →
      exec .keyTimerExpiry s = .next { s with now := max s.now t, dr := { s.dr with key := .none, keyTimer := none } }

/-! ## DR: reading -/

/-- R186, R210: STATUS returns a record of 49 bytes (log entry 55), its groups in the order of R186: line, rope, cabins,
channels, summit, calls, loop, loader and flags. It changes nothing. -/
def Obligations.StatusReturnsTheRecord : Prop :=
  ∀ (r : Request) (rest : List Request) (s : State), Asked r rest [0x01] s →
    let k := keyless (taken rest s)
    let line := enc1 s.ls.line.code ++ enc1 s.ls.effDemand.code ++ enc1 s.ls.deskDemand.code
      ++ encMark s.ls.commissioned ++ enc1 s.ls.faults.length
    let rope := enc4 s.ra.p ++ enc2 ((if s.ra.speedValid then s.ra.vf else 0) % 65536).toNat ++ encMark s.ra.speedValid
    let cabins := enc1 (cabins s).length ++ enc1 s.ct.queue.length ++ enc1 s.ct.uphill.length
      ++ enc1 s.ct.downhill.length
    let channels := enc1 s.cm.subst.length
    let summit := enc1 s.sl.link.code
      ++ (match s.sl.summitWord with
        | some w => [0x01] ++ w.bytes
        | none => [0, 0, 0])
      ++ enc1 s.sl.txQueue.length ++ enc1 s.sl.rxQueue.length
    let calls := enc1 s.cs.call.code
      ++ (match s.cs.phone with
        | some h => [0x01] ++ enc1 h
        | none => [0, 0])
      ++ enc1 s.cs.priority.code ++ enc1 s.cs.waiting.length
    let loop := enc1 s.lr.loop.code ++ enc1 s.lr.relay.length ++ enc1 rest.length ++ enc1 s.lr.safety.length
      ++ enc1 s.lr.door.length ++ enc1 s.lr.voice.length ++ enc1 s.lr.report.length ++ enc1 s.lr.outstanding.length
    let profile : Option Profile → Byte := fun q => match q with
      | some .windy => 1
      | some .calm => 2
      | none => 0
    let loader := enc1 s.cl.load.code ++ enc1 s.cl.outcome.code ++ enc2 s.cl.skip
      ++ (match s.cl.profile with
        | .idle => [0, 0]
        | .reading q _ => [1, profile (some q)]
        | .applying q => [2, profile (some q)])
      ++ [profile s.cl.pending] ++ enc1 s.cl.lastOutcome.code ++ enc2 s.cl.lastSkip
    let record := line ++ rope ++ cabins ++ channels ++ summit ++ calls ++ loop ++ loader ++ enc3 s.dr.flags.toNat
    record.length = 49 ∧ exec .status s = .next (replied r ([0x01, 0, 0] ++ record) k)

/-- Parts of R184, R209, R210, R48, R68, R92, R115, R149, R163: READ_ENTRY returns the entries of a table from the first
index on, up to the count or the table's last, as many as fit whole: one of CHANNEL, BERTH and LINE_PARAMS, three of
TERMINAL_QUEUE, four of the others. Each has the bytes that R210 lists (the band and counter base of a channel of
another kind by log entry 66). A first index outside the table or list, a count outside 1..4 and an unknown table are
RANGE. The model's choices: the sending-state byte 0 with no command (log entry 50), the remaining dwell 0 with no hold
and no running dwell (51), the location byte 00h of an empty slot (52). The remaining dwell of a berth held before its
doors reached OPEN is a free value, and the read of a berth advances the model's count of those (log entry 7). -/
def Obligations.ReadEntryReturnsEntries : Prop :=
  ∀ (table : Byte) (first count : Nat) (r : Request) (rest : List Request) (s : State), first < 65536 → count < 256 →
    Asked r rest ([0x02, table] ++ enc2 first ++ enc1 count) s →
    let k := keyless (taken rest s)
    let opt (v : Option Nat) : List Byte := match v with
      | some n => [0x01] ++ enc2 n
      | none => [0, 0, 0]
    let beyond : Nat := match table.toNat with
      | 0 => 48
      | 1 => s.berthCount + 1
      | 2 => 160
      | 3 => 8
      | 4 => 1
      | 5 => s.ls.faults.length
      | 6 => s.ct.queue.length
      | 7 => s.ct.uphill.length
      | 8 => s.ct.downhill.length
      | 9 => s.cm.subst.length
      | _ => 0
    let fits : Nat := match table.toNat with
      | 0 => 1
      | 4 => 1
      | 6 => 3
      | _ => 4
    let entry (i : Nat) : List Byte := match table.toNat with
      | 0 =>
        let rt := (s.chan i).rt
        (s.chan i).entry.bytes ++ enc1 (((s.chan i).bypass.map (·.minutes)).getD 0) ++ enc2 rt.lastReading.toNat
          ++ enc1 rt.condition.code ++ enc1 rt.runCount ++ enc1 rt.runSide.code ++ enc1 rt.returnCount
          ++ enc1 rt.band.code ++ opt (rt.counterBase.map (·.toNat))
      | 2 => match s.ct.fleet[i]?.getD none with
        | some c => enc2 c.id ++ enc1 c.location.code
        | none => [0, 0, 0]
      | 3 => (s.phoneEntry i).bytes ++
        (if s.cs.phone = some i then ([1, 0] : List Byte)
          else match s.cs.waiting.findIdx? (fun w => w.phone == i) with
            | some place => [2] ++ enc1 place
            | none => [0, 0])
      | 4 => s.params.bytes
      | 5 => match s.ls.faults[i]? with
        | some e => enc2 e.order.toNat ++ e.source.bytes ++ enc1 e.code.code ++ enc1 e.cls.code ++ encMark e.latched
          ++ encMark e.present
        | none => []
      | 6 => match s.ct.queue[i]? with
        | some c => enc2 c.id ++ enc1 c.identity.code ++ enc1 c.zone ++ enc4 c.entryPos ++ enc1 c.grip.code
          ++ opt (c.force.map (·.toNat)) ++ encMark c.locked ++ encMark c.orderMark
        | none => []
      | 7 => match s.ct.uphill[i]? with
        | some e => enc2 e.id ++ enc4 e.pos ++ enc2 e.order.toNat ++ encMark e.overdue
        | none => []
      | 8 => match s.ct.downhill[i]? with
        | some e => enc2 e.id ++ enc4 e.pos ++ encMark e.overdue
        | none => []
      | 9 => match s.cm.subst[i]? with
        | some e => enc1 e.primary ++ enc1 e.standby ++ enc2 e.order.toNat
        | none => []
      | _ => []
    (9 < table.toNat ∨ count = 0 ∨ 4 < count ∨ beyond ≤ first ∨ (table = 1 ∧ first = 0) →
      exec .readEntry s = .next (replied r [0x02, 2, 3] k))
    ∧ (table.toNat ≤ 9 → 1 ≤ count → count ≤ 4 → first < beyond →
      (table ≠ 1 →
        let n := min (min count (beyond - first)) fits
        exec .readEntry s = .next (replied r
          ([0x02, 0, 0, table] ++ enc1 n ++ (List.range n).flatMap fun i => entry (first + i)) k))
      ∧ (table = 1 → 1 ≤ first →
        let d := s.door first
        let status : List Byte := match d.lastStatus with
          | some (st, toggle) => [1] ++ enc1 st.code ++ encMark toggle
          | none => [0, 0, 0]
        let command : List Byte := match d.command with
          | some (cmd, sending) => enc1 (cmd.code + 1) ++ enc1 sending.code
          | none => [0, 0]
        let mark : Byte := match d.deskMark with
          | none => 0
          | some .open => 1
          | some .closed => 2
        ∃ dwell : List Byte, dwell.length = 2 ∧ (∀ n, d.hold = .yes n → dwell = enc2 n)
          ∧ (d.hold = .no → dwell = match d.dwellTimer with
            | .running t => enc2 (t - s.now)
            | .stopped => [0, 0]
            | .suspended => [0, 0])
          ∧ exec .readEntry s = .next (replied r ([0x02, 0, 0, 1, 1] ++ (s.berth first).entry.bytes
              ++ enc1 d.state.code ++ encMark d.awaiting ++ encMark d.heldClose ++ encMark d.held ++ dwell
              ++ enc1 d.retryCount ++ status ++ enc1 d.stallCount ++ command ++ opt d.cabin
              ++ encMark d.waitingOpen ++ [mark])
            { k with freeCount := s.freeCount + 1 })))

/-! ## DS, CT, CS: desk writes -/

/-- Parts of R94, R70, R150, R185, R93: WRITE_ENTRY of a berth, a fleet slot and a phone. A berth's mode or door node
changes only in STOPPED with its record CLOSED or FAULT, its other fields in any line state. A change from OPEN to PASS
cancels the open delay and the waiting open; a new door node makes the record CLOSED, awaiting its first status, with
its counts, held request, hold and desk mark cleared and DOOR_FAULT reported gone (that the last status becomes absent
is log entry 24, the model's inference). An id not registered and not in the terminal takes an empty fleet slot with
location GARAGE; 0 empties the slot of a cabin in the GARAGE or UNPLACED; 0 for an empty slot and a slot's own id change
nothing. A phone's entry changes unless the phone has a call or waits. A node of another berth or phone is RANGE. The
rest is refused, and nothing changes. -/
def Obligations.TableWritesJudged : Prop :=
  ∀ (r : Request) (rest : List Request) (bs : List Byte) (s : State),
    let k := keyless (taken rest s)
    let answers := fun (c : Instr) (bytes : List Byte) (t : State) => exec c s = .next (replied r (0x03 :: bytes) t)
    (∀ (j : Nat) (e : BerthEntry), j < 65536 → bs.length = 10 → BerthEntry.ofBytes bs = some e →
      Asked r rest ([0x03, 1] ++ enc2 j ++ bs) s →
      let write := Instr.writeEntryBerth
      let o := (s.berth j).entry
      let used := e.doorNode ≠ 0 ∧ ∃ i, s.isBerth i = true ∧ i ≠ j ∧ (s.berth i).entry.doorNode = e.doorNode
      (s.isBerth j = false ∨ ¬ BerthAllowed e ∨ used → answers write [2, 3] k)
      ∧ (s.isBerth j = true → BerthAllowed e → ¬ used →
        (o.mode ≠ e.mode ∨ o.doorNode ≠ e.doorNode →
          s.ls.line ≠ .stopped ∨ ((s.door j).state ≠ .closed ∧ (s.door j).state ≠ .fault) → answers write [2, 4] k)
        ∧ (o.mode = e.mode → o.doorNode = e.doorNode → answers write [0, 0] (setBerth j { s.berth j with entry := e } k))
        ∧ (s.ls.line = .stopped → (s.door j).state = .closed ∨ (s.door j).state = .fault →
          let d := if o.mode = .openMode ∧ e.mode = .passMode then { s.door j with openDelay := none, waitingOpen := false }
            else s.door j
          (o.mode ≠ e.mode → o.doorNode = e.doorNode → answers write [0, 0] (setBerth j { entry := e, door := d } k))
          ∧ (o.doorNode ≠ e.doorNode → Settled s → ∃ v, answers write [0, 0] v
            ∧ Withdrawn (.berth j) .doorFault (setBerth j { entry := e, door := { d with
                state := .closed, awaiting := true, retryCount := 0, stallCount := 0, heldClose := false, hold := .no
                holdTimer := none, deskMark := none, lastStatus := none } } k) v))))
    ∧ (∀ slot id : Nat, slot < 65536 → id < 65536 → bs = enc2 id → Asked r rest ([0x03, 2] ++ enc2 slot ++ bs) s →
      let write := Instr.writeEntryFleet
      let fill := fun c : Option FleetCabin => { k with ct := { s.ct with fleet := s.ct.fleet.setIfInBounds slot c } }
      (160 ≤ slot ∨ 999 < id → answers write [2, 3] k)
      ∧ (slot < 160 → id ≤ 999 →
        (s.ct.fleet[slot]?.getD none = none → id = 0 → answers write [0, 0] k)
        ∧ (∀ x, s.ct.fleet[slot]?.getD none = some x → id = x.id → answers write [0, 0] k)
        ∧ (s.ct.fleet[slot]?.getD none = none → id ≠ 0 →
          (s.registered id = false → (∀ c ∈ s.ct.queue, c.id ≠ id) →
            answers write [0, 0] (fill (some { id := id, location := .garage })))
          ∧ (s.registered id = true ∨ (∃ c ∈ s.ct.queue, c.id = id) → answers write [2, 4] k))
        ∧ ∀ x, s.ct.fleet[slot]?.getD none = some x → id ≠ x.id →
          (id = 0 → x.location = .garage ∨ x.location = .unplaced → answers write [0, 0] (fill none))
          ∧ (id ≠ 0 ∨ (x.location ≠ .garage ∧ x.location ≠ .unplaced) → answers write [2, 4] k)))
    ∧ (∀ (h : Nat) (e : Phone), h < 65536 → bs.length = 3 → Phone.ofBytes bs = some e →
      Asked r rest ([0x03, 3] ++ enc2 h ++ bs) s →
      let write := Instr.writeEntryPhone
      let used := e.node ≠ 0 ∧ ∃ i, i < 8 ∧ i ≠ h ∧ (s.phoneEntry i).node = e.node
      (8 ≤ h ∨ 126 < e.node ∨ used → answers write [2, 3] k)
      ∧ (h < 8 → e.node ≤ 126 → ¬ used →
        (s.cs.phone = some h ∨ (∃ w ∈ s.cs.waiting, w.phone = h) → answers write [2, 4] k)
        ∧ (s.cs.phone ≠ some h → (∀ w ∈ s.cs.waiting, w.phone ≠ h) →
          answers write [0, 0] { k with cs := { s.cs with phones := s.cs.phones.setIfInBounds h e } })))

/-! ## CM and LS: what the line state lets the desk do -/

/-- Parts of R42 to R45, R66: WRITE_ENTRY of a channel and of LINE_PARAMS. An invalid write is RANGE; one that would
change the place of a channel of the substitution list is STATE. Outside STOPPED one that changes a field of R43's
second list is STATE, and else one that loosens is WIDEN, with nothing changed. Any other is DONE and the entry is
replaced; in STOPPED one that loosens, or changes such a field, clears the commissioned mark, and no other write touches
it. Nothing but the entry changes for an unbypassed channel that keeps its state, place, class and stale time, no
capture running, and for a LINE_PARAMS write that tightens the tolerance alone. (The rest is stated with no line event
pending and no stale time made shorter.) Parts of R56, R54, R55, R58: LINE_RUN, LINE_SLOW and LINE_STOP. In STOPPED a
start is accepted when the commissioned mark is set, the link is UP, the loop closed, and nothing but the desk would
demand more than SLOW: the desk demand is the level named and the line is STARTING with its time limit running. In
STARTING, RUNNING and SLOWED the desk demand becomes the level named, or STOP where the line then stops, and the line
obeys the demand it gives. In STOPPING and TRIPPED, and when a check fails, RUN and SLOW are STATE; STOP is DONE. -/
def Obligations.LineStateJudgesWritesAndRequests : Prop :=
  ∀ (r : Request) (rest : List Request) (s : State),
    let k := keyless (taken rest s)
    (∀ (bs : List Byte) (c : Nat) (e : ChanEntry), c < 65536 → bs.length = 21 → ChanEntry.ofBytes bs = some e →
      Asked r rest ([0x03, 0] ++ enc2 c ++ bs) s →
      let o := (s.chan c).entry
      let answers := fun (bytes : List Byte) (t : State) =>
        exec .writeEntryChannel s = .next (replied r (0x03 :: bytes) t)
      (48 ≤ c ∨ ¬ ChanAllowed s c e → answers [2, 3] k)
      ∧ (c < 48 → ChanAllowed s c e →
        let bound := (∃ x ∈ s.cm.subst, x.primary = c ∨ x.standby = c) ∧ (o.state ≠ e.state ∨ o.node ≠ e.node
          ∨ o.slot ≠ e.slot ∨ o.kind ≠ e.kind ∨ o.standby ≠ e.standby ∨ o.boundary ≠ e.boundary)
        (bound → answers [2, 4] k)
        ∧ (¬ bound →
          (s.ls.line ≠ .stopped → ChanStructural o e → answers [2, 4] k)
          ∧ (s.ls.line ≠ .stopped → ¬ ChanStructural o e → ChanLoosens o e → answers [2, 5] k)
          ∧ (s.ls.line = .stopped ∨ (¬ ChanStructural o e ∧ ¬ ChanLoosens o e) → Settled s →
            e.state ≠ .active ∨ o.staleTime ≤ e.staleTime →
            ∃ t, answers [0, 0] t ∧ (t.chan c).entry = e
              ∧ (s.ls.line = .stopped → ChanStructural o e ∨ ChanLoosens o e → t.ls.commissioned = false)
              ∧ (s.ls.line ≠ .stopped ∨ (¬ ChanStructural o e ∧ ¬ ChanLoosens o e) →
                t.ls.commissioned = s.ls.commissioned))
          ∧ (¬ ChanStructural o e → o.cls = e.cls → o.staleTime = e.staleTime → s.bypassed c = false →
            s.dr.capture = none →
            (¬ ChanLoosens o e → answers [0, 0] (setChan c { s.chan c with entry := e } k))
            ∧ (s.ls.line = .stopped → ChanLoosens o e → answers [0, 0]
              { setChan c { s.chan c with entry := e } k with ls := { s.ls with commissioned := false } })))))
    ∧ (∀ (bs : List Byte) (i : Nat), i < 65536 → bs.length = 46 → Asked r rest ([0x03, 4] ++ enc2 i ++ bs) s →
      let p := LineParams.ofBytes bs
      let o := s.params
      let answers := fun (bytes : List Byte) (t : State) =>
        exec .writeEntryLineParams s = .next (replied r (0x03 :: bytes) t)
      (i ≠ 0 ∨ ¬ LineAllowed p → answers [2, 3] k)
      ∧ (i = 0 → LineAllowed p →
        (s.ls.line ≠ .stopped → LineStructural o p → answers [2, 4] k)
        ∧ (s.ls.line ≠ .stopped → ¬ LineStructural o p → LineLoosens o p → answers [2, 5] k)
        ∧ (s.ls.line = .stopped ∨ (¬ LineStructural o p ∧ ¬ LineLoosens o p) → Settled s →
          ∃ t, answers [0, 0] t ∧ t.params = p
            ∧ (s.ls.line = .stopped → LineStructural o p ∨ LineLoosens o p → t.ls.commissioned = false)
            ∧ (s.ls.line ≠ .stopped ∨ (¬ LineStructural o p ∧ ¬ LineLoosens o p) →
              t.ls.commissioned = s.ls.commissioned))
        ∧ (p = { o with tolerance := p.tolerance } → p.tolerance ≤ o.tolerance →
          answers [0, 0] { k with ls := { s.ls with params := p } })))
    ∧ ∀ (c : Instr) (level : Byte) (d : Demand),
      (c, level, d) ∈ [(Instr.lineRun, 0, Demand.run), (.lineSlow, 1, .slow), (.lineStop, 2, .stop)] →
      Asked r rest [0x04, level] s →
      let named : State := { k with ls := { s.ls with deskDemand := d } }
      let allowed := s.ls.commissioned = true ∧ s.sl.link = .up ∧ s.lr.loop = .closed
        ∧ ∃ e, MostSevere named e ∧ e.code ≤ 1
      let refused := exec c s = .next (replied r [0x04, 2, 4] k)
      (s.ls.line = .stopped ∨ s.ls.line = .stopping ∨ s.ls.line = .tripped →
        d = .stop → exec c s = .next (replied r [0x04, 0, 0] k))
      ∧ (s.ls.line = .stopping ∨ s.ls.line = .tripped ∨ (s.ls.line = .stopped ∧ ¬ allowed) → d ≠ .stop → refused)
      ∧ (s.ls.line = .stopped → allowed → d ≠ .stop → Settled s →
        ∃ t, exec c s = .next (replied r [0x04, 0, 0] t) ∧ t.ls.line = .starting ∧ t.ls.deskDemand = d
          ∧ t.ls.startTimer = some s.now ∧ MostSevere t t.ls.effDemand ∧ t.ls.faults = s.ls.faults ∧ LineOnly k t)
      ∧ (s.ls.line = .starting ∨ s.ls.line = .running ∨ s.ls.line = .slowed → Settled s →
        ∃ t, exec c s = .next (replied r [0x04, 0, 0] t)
          ∧ (∃ e, MostSevere named e ∧ t.ls.line = obeying s.ls.line e s.atRest)
          ∧ (t.ls.line = .stopped ∨ t.ls.line = .stopping ∨ t.ls.line = .tripped → t.ls.deskDemand = .stop)
          ∧ (t.ls.line = .starting ∨ t.ls.line = .running ∨ t.ls.line = .slowed → t.ls.deskDemand = d)
          ∧ MostSevere t t.ls.effDemand ∧ LineOnly k t)

/-- R66, with parts of R17, R57, R59, R62 to R64, R81, R91, R106, R148: what an accepted LINE_PARAMS write does when it
changes one field, in a state that is settled and obeys its demand, with one SAFETY frame of a kind. A new L (in
STOPPED) reduces P, a valid Q, and the positions of the terminal queue and of both cabin lists; the release is evaluated
next. A new setpoint that applies to the present state issues a drive request, recorded and, with a drive node, sent;
one that does not apply is only stored. A start or stop time limit no longer than the timer has run runs out at once. A
new N counts from the timer's last start, and AUTO_SLOW is raised when that time is as long already; N from 0 starts the
timer of a RUNNING or SLOWED line at the write, and N = 0 stops it and reports AUTO_SLOW gone. A new conveyor address
that is not 0 gets a LAUNCH_REL of the present release. A new warning address that is not 0 gets a WARN frame of the
present set, placed in the DOOR queue or waiting in place of one that waits. (A new conveyor or warning address 0 forms
no frame.) -/
def Obligations.LineParamsWriteTakesEffect : Prop :=
  ∀ (r : Request) (rest : List Request) (bs : List Byte) (s : State), bs.length = 46 →
    Asked r rest ([0x03, 4, 0, 0] ++ bs) s → Settled s → DemandKept s → AtMostOneEach s.lr.safety →
    let p := LineParams.ofBytes bs
    let o := s.params
    let k := keyless (taken rest s)
    let w : State := { k with ls := { s.ls with params := p } }
    let clear (t : State) : State := { t with ls := { t.ls with commissioned := false } }
    let answers (t : State) : Prop := exec .writeEntryLineParams s = .next (replied r [0x03, 0, 0] t)
    let sends (f : QFrame) (t : State) : Prop :=
      (f.dest = 0 → answers t)
      ∧ (f.dest ≠ 0 → ∃ l, Offered f s.lr.safety l ∧ answers { t with lr := { t.lr with safety := l } })
    let frame (dest : Nat) (kind : FrameKind) (payload : List Byte) : QFrame :=
      { dest := dest, kind := kind, payload := payload, tag := 0, restart := false }
    LineAllowed p →
    (p = { o with loopLen := p.loopLen } → p.loopLen ≠ o.loopLen → s.ls.line = .stopped →
      let u : State := { w with
        ra := { s.ra with p := s.ra.p % p.loopLen, q := if s.ra.qValid then s.ra.q % p.loopLen else s.ra.q }
        ct := { s.ct with
          queue := s.ct.queue.map fun c => { c with entryPos := c.entryPos % p.loopLen }
          uphill := s.ct.uphill.map fun x => { x with pos := x.pos % p.loopLen }
          downhill := s.ct.downhill.map fun x => { x with pos := x.pos % p.loopLen } } }
      answers (clear (updateRelease u)))
    ∧ (∀ (level : Demand) (old new : Nat), p = { o with runSetpoint := p.runSetpoint, slowSetpoint := p.slowSetpoint } →
      p.runSetpoint ≤ o.runSetpoint → p.slowSetpoint ≤ o.slowSetpoint →
      ((s.ls.line = .running ∨ (s.ls.line = .starting ∧ s.ls.effDemand = .run))
          ∧ level = .run ∧ old = o.runSetpoint ∧ new = p.runSetpoint)
        ∨ ((s.ls.line = .slowed ∨ (s.ls.line = .starting ∧ s.ls.effDemand = .slow))
          ∧ level = .slow ∧ old = o.slowSetpoint ∧ new = p.slowSetpoint)
        ∨ (s.ls.line ≠ .running ∧ s.ls.line ≠ .starting ∧ s.ls.line ≠ .slowed ∧ old = new) →
      (old = new → answers w)
      ∧ (old ≠ new → sends (frame o.driveNode .driveReq (enc1 level.code ++ enc2 new ++ enc1 s.ls.line.code))
        { w with ls := { w.ls with
            drive := { level := level, setpoint := new, line := s.ls.line }, refreshAt := s.now + 40 } }))
    ∧ (∀ t0, p = { o with startTime := p.startTime } → p.startTime ≤ o.startTime → s.ls.line = .starting →
      s.ls.startTimer = some t0 →
      (s.now - t0 < p.startTime * 1000 ∨ p.startTime = o.startTime → answers w)
      ∧ (p.startTime * 1000 ≤ s.now - t0 → p.startTime ≠ o.startTime → ∃ t, answers t
        ∧ Raised { source := .line, code := .startTimeout, cls := .stop, latched := true, present := false } w t))
    ∧ (∀ t0, p = { o with stopTime := p.stopTime } → p.stopTime ≤ o.stopTime → s.ls.line = .stopping →
      s.ls.stopTimer = some t0 →
      (s.now - t0 < p.stopTime * 1000 ∨ p.stopTime = o.stopTime → answers w)
      ∧ (p.stopTime * 1000 ≤ s.now - t0 → p.stopTime ≠ o.stopTime → ∃ t, answers t
        ∧ Raised { source := .line, code := .stopTimeout, cls := .trip, latched := true, present := false } w t))
    ∧ (p = { o with idleSlow := p.idleSlow } → p.idleSlow ≠ o.idleSlow →
      let period := max 12 p.idleSlow * 5000
      let auto (x : Option Nat) : State := { w with ls := { w.ls with autoSlow := x } }
      (s.ls.line = .running ∨ s.ls.line = .slowed → p.idleSlow ≠ 0 → o.idleSlow = 0 ∨ period ≤ max 12 o.idleSlow * 5000 →
        (∀ t0, s.ls.autoSlow = some t0 →
          (s.now - t0 < period → answers w)
          ∧ (period ≤ s.now - t0 → ∃ t, answers t
            ∧ Raised { source := .line, code := .autoSlow, cls := .slow, latched := false, present := true } (auto none) t))
        ∧ (s.ls.autoSlow = none → (o.idleSlow = 0 → answers (auto (some s.now))) ∧ (o.idleSlow ≠ 0 → answers w)))
      ∧ (s.ls.line = .stopped → p.idleSlow = 0 →
        ∃ t, answers (clear t) ∧ Withdrawn .line .autoSlow (auto none) t))
    ∧ (p = { o with conveyorNode := p.conveyorNode } → p.conveyorNode ≠ o.conveyorNode → s.ls.line = .stopped →
      sends (frame p.conveyorNode .launchRel (enc1 (if s.ct.release = .go then 1 else 0) ++ enc2 s.ct.releaseCabin))
        (clear w))
    ∧ ∀ set : Byte, (∀ i, set.getLsbD i = true ↔ ∃ j, s.isBerth j = true ∧ j = i + 1 ∧ (s.door j).state = .closing) →
      p = { o with warnNode := p.warnNode } → p.warnNode ≠ o.warnNode → s.ls.line = .stopped →
      let others := s.ds.waiting.filter fun x => !x.isWarning
      (p.warnNode = 0 → answers (clear w))
      ∧ (p.warnNode ≠ 0 → s.lr.door.length < 8 →
        answers { clear w with
          ds := { s.ds with waiting := others, warnLast := set }
          lr := { k.lr with door := s.lr.door ++ [frame p.warnNode .warn [if set = 0 then 0 else 1, set]] } })
      ∧ (p.warnNode ≠ 0 → 8 ≤ s.lr.door.length →
        answers { clear w with ds := { s.ds with waiting := others ++ [.warning p.warnNode set] } })

/-! ## LS: faults and their clearing by the desk -/

/-- Parts of R53, R61: CLEAR_FAULT removes the latched entry it names, unless it is of class TRIP or its condition is
present, and sets FAULT_GONE; TRIP_RESET, in TRIPPED at rest or in STOPPED with no TRIP condition present, removes the
latched TRIP entries, returns the overflow demand to RUN, and takes the line from TRIPPED to STOPPED. -/
def Obligations.FaultsAreClearedByTheDesk : Prop :=
  ∀ (r : Request) (rest : List Request) (s : State),
    let k := keyless (taken rest s)
    (∀ n : Nat, n < 65536 → Asked r rest ([0x08] ++ enc2 n) s →
      ((∀ e ∈ s.ls.faults, e.order.toNat ≠ n) → exec .clearFault s = .next (replied r [0x08, 2, 3] k))
      ∧ ∀ e before after, s.ls.faults = before ++ e :: after → e.order.toNat = n →
        (∀ x ∈ before, x.order.toNat ≠ n) →
        (e.latched = false ∨ e.cls = .trip ∨ e.present = true → exec .clearFault s = .next (replied r [0x08, 2, 4] k))
        ∧ (e.latched = true → e.cls ≠ .trip → e.present = false → Settled s →
          ∃ t, exec .clearFault s = .next (replied r [0x08, 0, 0] t) ∧ t.flag .faultGone = true
            ∧ (∀ x ∈ before ++ after, ¬ IsAutoSlow x → x ∈ t.ls.faults)
            ∧ (∀ x ∈ t.ls.faults, x ∈ before ++ after ∨ IsAutoSlow x)
            ∧ MostSevere t t.ls.effDemand ∧ LineOnly k t))
    ∧ (Asked r rest [0x0E] s → s.dr.key = .b →
      ((s.ls.line ≠ .tripped ∧ s.ls.line ≠ .stopped) ∨ (∃ e ∈ s.ls.faults, e.cls = .trip ∧ e.present = true)
          ∨ (s.ls.line ≠ .stopped ∧ s.atRest = false) → exec .tripReset s = .next (replied r [0x0E, 2, 4] k))
      ∧ ((∀ e ∈ s.ls.faults, e.cls = .trip → e.present = false) → Settled s →
        let cleared := fun e : FaultEntry => e.latched = true ∧ e.cls = .trip ∧ e.present = false
        (s.ls.line = .tripped → s.atRest = true →
          ∃ t, exec .tripReset s = .next (replied r [0x0E, 0, 0] t) ∧ t.ls.line = .stopped
            ∧ t.ls.faults = s.ls.faults.filter (fun e => ¬ (e.latched = true ∧ e.cls = .trip ∧ e.present = false))
            ∧ ((∃ e ∈ s.ls.faults, cleared e) → t.flag .faultGone = true)
            ∧ t.ls.overflow = .run ∧ MostSevere t t.ls.effDemand ∧ LineOnly k t)
        ∧ (s.ls.line = .stopped →
          ∃ t, exec .tripReset s = .next (replied r [0x0E, 0, 0] t)
            ∧ (∀ x ∈ s.ls.faults, ¬ cleared x → ¬ IsAutoSlow x → x ∈ t.ls.faults)
            ∧ (∀ x ∈ t.ls.faults, (x ∈ s.ls.faults ∧ ¬ cleared x) ∨ IsAutoSlow x)
            ∧ ((∃ e ∈ s.ls.faults, cleared e) → t.flag .faultGone = true)
            ∧ t.ls.overflow = .run ∧ MostSevere t t.ls.effDemand ∧ LineOnly k t)))

/-! ## CM: bypass and reinstatement -/

/-- Parts of R38, R39: BYPASS of a channel that is not UNUSED, nor of class TRIP, nor an encoder, with the line STOPPED
or SLOWED, starts the bypass with the minutes named, or the default for 0, and raises BYPASS_ACTIVE once. REINSTATE is
RANGE for a channel that is no primary of the substitution list and STATE outside STOPPED; else, here with no fault of
either channel and no capture, the pair leaves the list, the primary is ACTIVE with its runtime record reset, and the
standby is STANDBY with condition NORMAL and counts 0. The key is spent either way. -/
def Obligations.BypassAndReinstateJudged : Prop :=
  ∀ (c m : Nat) (r : Request) (rest : List Request) (s : State), c ≤ 47 → m ≤ 120 → s.dr.key = .b →
    let k := keyless (taken rest s)
    let ch := s.chan c
    let started := setChan c { ch with
      bypass := some { minutes := if m = 0 then s.params.bypassDefault else m, minuteEnd := s.now + 60000 } } k
    (Asked r rest [0x0F, BitVec.ofNat 8 c, BitVec.ofNat 8 m] s →
      (ch.entry.state = .unused → exec .bypass s = .next (replied r [0x0F, 2, 3] k))
      ∧ (ch.entry.state ≠ .unused → (s.ls.line ≠ .stopped ∧ s.ls.line ≠ .slowed) ∨ ch.entry.cls = .trip
          ∨ ch.entry.kind = .encoder → exec .bypass s = .next (replied r [0x0F, 2, 4] k))
      ∧ (ch.entry.state ≠ .unused → s.ls.line = .stopped ∨ s.ls.line = .slowed → ch.entry.cls ≠ .trip →
        ch.entry.kind ≠ .encoder →
        (ch.bypass.isSome = true → exec .bypass s = .next (replied r [0x0F, 0, 0] started))
        ∧ (ch.bypass = none → Settled s → ∃ t, exec .bypass s = .next (replied r [0x0F, 0, 0] t)
          ∧ Raised { source := .channel c, code := .bypassActive, cls := .slow, latched := false, present := true }
              started t)))
    ∧ (Asked r rest [0x10, BitVec.ofNat 8 c] s →
      ((∀ e ∈ s.cm.subst, e.primary ≠ c) → exec .reinstate s = .next (replied r [0x10, 2, 3] k))
      ∧ ((∃ e ∈ s.cm.subst, e.primary = c) → s.ls.line ≠ .stopped →
        exec .reinstate s = .next (replied r [0x10, 2, 4] k))
      ∧ ∀ e before after, s.cm.subst = before ++ e :: after → e.primary = c → (∀ x ∈ before, x.primary ≠ c) →
        s.ls.line = .stopped → e.standby ≤ 47 → e.standby ≠ c → DemandKept s → s.ra.encoder = s.encoderNow →
        s.cm.windBand = s.bandNow → s.dr.capture = none → ch.entry.kind ≠ .encoder → ch.entry.kind ≠ .wind →
        (s.chan e.standby).entry.kind = ch.entry.kind → ch.rt.staleRaised = false →
        (∀ x ∈ s.ls.faults, x.source ≠ .channel c ∧ x.source ≠ .channel e.standby) →
        let b := s.chan e.standby
        exec .reinstate s = .next (replied r [0x10, 0, 0]
          (setChan c { ch with
              entry := { ch.entry with state := .active }
              rt := { ch.rt with
                lastAccepted := s.now, runCount := 0, returnCount := 0, windyCount := 0, stormCount := 0, windy := false
                storm := false, counterBase := none, condition := .normal } }
            (setChan e.standby { b with
                entry := { b.entry with state := .standby }
                rt := { b.rt with condition := .normal, runCount := 0, returnCount := 0, windyCount := 0, stormCount := 0 } }
              { k with cm := { s.cm with subst := before ++ after } }))))

/-! ## DR: flags, capture, notes -/

/-- R191: a flag set while clear becomes set, and owed when its enable mark is set; setting a set flag changes nothing.
FLAGS clears the flags of the clear set with their owed marks, makes the enable marks those of the enable set, and takes
the owed mark from every flag no longer enabled; it makes no flag owed, and is answered DONE. Reset makes every flag
clear, every enable mark set and every owed mark clear. -/
def Obligations.FlagsFollowTheirMarks : Prop :=
  (∀ (f : Flag) (s : State),
    (s.flag f = true → setFlag f s = s)
    ∧ (s.flag f = false →
      ∃ flags owed, setFlag f s = { s with dr := { s.dr with flags := flags, owed := owed } }
        ∧ (∀ i, flags.getLsbD i = (s.dr.flags.getLsbD i || i == f.bit))
        ∧ (∀ i, owed.getLsbD i = (s.dr.owed.getLsbD i || (i == f.bit && s.dr.enable.getLsbD i)))))
  ∧ (∀ (clear enable : BitVec 24) (r : Request) (rest : List Request) (s : State),
    Asked r rest ([0x09] ++ enc3 clear.toNat ++ enc3 enable.toNat) s →
    let k := keyless (taken rest s)
    ∃ flags owed, exec .flags s = .next (replied r [0x09, 0, 0]
        { k with dr := { k.dr with flags := flags, enable := enable, owed := owed } })
      ∧ (∀ i, i < 24 → flags.getLsbD i = (s.dr.flags.getLsbD i && !clear.getLsbD i))
      ∧ (∀ i, i < 24 → owed.getLsbD i = (s.dr.owed.getLsbD i && !clear.getLsbD i && enable.getLsbD i)))
  ∧ (∀ i, i < 24 → State.reset.dr.flags.getLsbD i = false ∧ State.reset.dr.enable.getLsbD i = true
    ∧ State.reset.dr.owed.getLsbD i = false)

/-- R193: CAPTURE is RANGE for a channel outside 0..47 or UNUSED, or a count or block size outside its range, BUSY while
a capture runs, and else DONE: the capture record runs with the channel, count and block size, block number 0, no marks
and an empty buffer. -/
def Obligations.CaptureStarts : Prop :=
  ∀ (c n b : Nat) (r : Request) (rest : List Request) (s : State), c < 256 → n < 65536 → b < 256 →
    Asked r rest ([0x0A] ++ enc1 c ++ enc2 n ++ enc1 b) s →
    let k := keyless (taken rest s)
    let bad := 47 < c ∨ (s.chan c).entry.state = .unused ∨ n = 0 ∨ 1024 < n ∨ b = 0 ∨ 8 < b
    (bad → exec .capture s = .next (replied r [0x0A, 2, 3] k))
    ∧ (¬ bad → s.dr.capture.isSome = true → exec .capture s = .next (replied r [0x0A, 2, 7] k))
    ∧ (¬ bad → s.dr.capture = none → exec .capture s = .next (replied r [0x0A, 0, 0] { k with dr := { k.dr with
        capture := some { channel := c, remaining := n, block := b, nextBlock := 0, gap := false, subst := false
                          written := false, buffer := [] } } }))

/-- Parts of R192, R195, R143: the reports, each while the REPORT queue holds fewer than 7 frames and no restart is
awaited: FLAG_REPORT takes the owed flags; with none owed, CAPTURE_BLOCK_REPORT sends a block of the capture's block
size while samples are left behind it or still to come, and else the last block, COMPLETE or WRITTEN, which ends the
capture with CAPTURE_DONE, a WRITTEN one even with no samples left to store, its count at 0 included (log entry 22, the
model's choice); with no block ready, NOTE_REPORT sends the oldest note, the hold flag clearing at 2. With 7 frames none
is sent. -/
def Obligations.ReportsSentInOrder : Prop :=
  ∀ s : State, s.resetHeld = false → s.dr.restartWait = false → s.dr.placeNotice = false →
    let sent := fun (payload : List Byte) (t : State) => { t with lr := { s.lr with report := s.lr.report ++
      [{ dest := s.params.deskNode, kind := .report, payload := payload, tag := 0, restart := false }] } }
    (7 ≤ s.lr.report.length →
      exec .flagReport s = .next s ∧ exec .captureBlockReport s = .next s ∧ exec .noteReport s = .next s)
    ∧ (s.lr.report.length < 7 →
      (s.dr.owed ≠ 0 → exec .flagReport s = .next (sent ([1] ++ enc3 s.dr.owed.toNat ++ enc3 s.dr.flags.toNat)
          { s with dr := { s.dr with owed := 0 } })
        ∧ exec .captureBlockReport s = .next s ∧ exec .noteReport s = .next s)
      ∧ (s.dr.owed = 0 →
        exec .flagReport s = .next s
        ∧ (s.dr.capture = none → exec .captureBlockReport s = .next s)
        ∧ (∀ q, s.dr.capture = some q →
          let block (cause : Byte) (samples : List Sample) : List Byte :=
            [2] ++ enc1 q.channel ++ enc1 q.nextBlock ++ [cause] ++ enc1 samples.length
              ++ samples.flatMap Sample.bytes
          let ended (t : State) : State := setFlag .captureDone { t with dr := { t.dr with capture := none } }
          (q.block < q.buffer.length ∨ (q.block = q.buffer.length ∧ q.remaining ≠ 0 ∧ q.written = false) →
            exec .captureBlockReport s = .next (sent (block 0 (q.buffer.take q.block)) { s with dr := { s.dr with
              capture := some { q with buffer := q.buffer.drop q.block, nextBlock := (q.nextBlock + 1) % 128 } } }))
          ∧ (q.buffer.length ≤ q.block →
            (q.buffer ≠ [] → q.remaining = 0 → q.written = false →
              exec .captureBlockReport s = .next (ended (sent (block 1 q.buffer) s)))
            ∧ (q.written = true → exec .captureBlockReport s = .next (ended (sent (block 2 q.buffer) s))))
          ∧ (q.buffer.length < q.block → q.written = false → q.remaining ≠ 0 ∨ q.buffer = [] →
            exec .captureBlockReport s = .next s)
          ∧ (q.block ≤ q.buffer.length ∨ q.written = true ∨ (q.remaining = 0 ∧ q.buffer ≠ []) →
            exec .noteReport s = .next s))
        ∧ ∀ note rest, s.sl.rxQueue = note :: rest →
          (∀ q, s.dr.capture = some q →
            q.buffer.length < q.block ∧ q.written = false ∧ (q.remaining ≠ 0 ∨ q.buffer = [])) →
          exec .noteReport s = .next (sent ([3] ++ enc1 note.length ++ note)
            { s with sl := { s.sl with rxQueue := rest, holdFlag := s.sl.holdFlag && decide (2 < rest.length) } })))

/-- Parts of R136, R189, R190, R182: SUMMIT_NOTE queues a DESK_NOTE for the summit, or is BUSY at 16 messages;
COMMISSION with a key, in STOPPED or TRIPPED, sets the commissioned mark when its eight checks hold, and else is CONFIG
with the first that fails; RESTART with a key, in STOPPED, is answered DONE and awaits the reset; a code that names no
request is UNKNOWN. -/
def Obligations.NotesCommissioningAndRestart : Prop :=
  ∀ (r : Request) (rest : List Request) (s : State),
    let k := keyless (taken rest s)
    (∀ note : List Byte, note.length ≤ 12 → Asked r rest (0x0B :: note) s →
      (s.sl.txQueue.length < 16 → exec .summitNote s = .next (replied r [0x0B, 0, 0]
        (evalRelease { k with sl := { s.sl with
          txQueue := s.sl.txQueue ++ [{ msg := { type := 6, payload := note }, seq := s.sl.nextSend, sent := false, age := 0 }]
          nextSend := s.sl.nextSend + 1 } })))
      ∧ (16 ≤ s.sl.txQueue.length → exec .summitNote s = .next (replied r [0x0B, 2, 7] k)))
    ∧ (s.dr.key = .b → Asked r rest [0x11] s →
      (s.ls.line ≠ .stopped ∧ s.ls.line ≠ .tripped → exec .commission s = .next (replied r [0x11, 2, 4] k))
      ∧ (s.ls.line = .stopped ∨ s.ls.line = .tripped →
        ((∀ i, 1 ≤ i → i ≤ 8 → Commissionable s i) → exec .commission s = .next (replied r [0x11, 0, 0]
          { k with ls := { s.ls with commissioned := true } }))
        ∧ ∀ i, 1 ≤ i → i ≤ 8 → ¬ Commissionable s i → (∀ n, 1 ≤ n → n < i → Commissionable s n) →
          exec .commission s = .next (replied r ([0x11, 2, 8] ++ enc1 i) k)))
    ∧ (s.dr.key = .b → Asked r rest [0x12] s →
      (s.ls.line ≠ .stopped → exec .restart s = .next (replied r [0x12, 2, 4] k))
      ∧ (s.ls.line = .stopped → exec .restart s = .next { k with
          dr := { k.dr with restartWait := true }
          lr := { k.lr with report := s.lr.report ++ [{ replyFrame r [0x12, 0, 0] with restart := true }] } }))
    ∧ ∀ (code : Byte) (operands : List Byte), code = 0 ∨ 0x12 < code.toNat → Asked r rest (code :: operands) s →
      exec .unknownRequest s = .next (replied r [code, 2, 9] k)

/-! ## CT: cabin requests -/

/-- Parts of R85 to R88, for an id 1..999: INSERT of an id not registered is RANGE; with the line STOPPED or SLOWED, the
cabin in the GARAGE or UNPLACED, and room in the queue, its record joins in zone DETACH, and else it is STATE; RANGE is
tested before STATE (log entry 57). WITHDRAW of a registered cabin with no record is STATE, as it is in another line
state; else its record, here in no berth and not failed its grip test, leaves, and it goes to the GARAGE. ASSIGN gives
the oldest ANONYMOUS record, here not failed, the id of a cabin UNPLACED or DOWNHILL, which leaves the downhill list;
with no such record or location it is STATE. The door record of the berth that the ANONYMOUS record stands in keeps its
cabin id 0 (log entry 68, the model's choice). The release is evaluated after each. (WITHDRAW of an ANONYMOUS or FOREIGN
record, of one in a berth, and of one that has failed its test is not stated.) -/
def Obligations.CabinRequestsMoveTheFleet : Prop :=
  ∀ (id : Nat) (r : Request) (rest : List Request) (s : State), 1 ≤ id → id ≤ 999 → Settled s →
    let k := keyless (taken rest s)
    let working := s.ls.line = .stopped ∨ s.ls.line = .slowed
    (Asked r rest ([0x07, 0] ++ enc2 id) s →
      (s.registered id = false → exec .cabinInsert s = .next (replied r [0x07, 2, 3] k))
      ∧ (s.registered id = true → ¬ working ∨ (s.location id ≠ some .garage ∧ s.location id ≠ some .unplaced)
          ∨ 24 ≤ s.ct.queue.length → exec .cabinInsert s = .next (replied r [0x07, 2, 4] k))
      ∧ (s.registered id = true → working → s.location id = some .garage ∨ s.location id = some .unplaced →
        s.ct.queue.length < 24 → exec .cabinInsert s = .next (replied r [0x07, 0, 0] (updateRelease
          (setFlag .cabinEntry (setLocation id .terminal { k with ct := { s.ct with queue := s.ct.queue ++
            [{ id := id, identity := .registered, zone := 0, entryPos := s.ra.p, grip := .none, force := none
               locked := true, orderMark := false }] } }))))))
    ∧ (Asked r rest ([0x07, 1] ++ enc2 id) s → s.registered id = true →
      ((∀ c ∈ s.ct.queue, c.id ≠ id) → exec .cabinWithdraw s = .next (replied r [0x07, 2, 4] k))
      ∧ ∀ c before after, s.ct.queue = before ++ c :: after → c.id = id → (∀ x ∈ before, x.id ≠ id) →
        (¬ working → exec .cabinWithdraw s = .next (replied r [0x07, 2, 4] k))
        ∧ (working → c.identity = .registered → s.isBerth c.zone = false → c.grip ≠ .fail →
          exec .cabinWithdraw s = .next (replied r [0x07, 0, 0] (updateRelease
            (setLocation id .garage { k with ct := { s.ct with queue := before ++ after } })))))
    ∧ (Asked r rest ([0x07, 2] ++ enc2 id) s → s.registered id = true →
      ((∀ c ∈ s.ct.queue, c.identity ≠ .anonymous) → exec .cabinAssign s = .next (replied r [0x07, 2, 4] k))
      ∧ ∀ c before after, s.ct.queue = before ++ c :: after → c.identity = .anonymous →
        (∀ x ∈ before, x.identity ≠ .anonymous) →
        (s.location id ≠ some .unplaced → s.location id ≠ some .downhill →
          exec .cabinAssign s = .next (replied r [0x07, 2, 4] k))
        ∧ (s.location id = some .unplaced ∨ s.location id = some .downhill → c.grip ≠ .fail →
          exec .cabinAssign s = .next (replied r [0x07, 0, 0] (updateRelease
            (setLocation id .terminal { k with ct := { s.ct with
              queue := before ++ { c with id := id, identity := .registered } :: after
              downhill := s.ct.downhill.filter fun e => e.id ≠ id } })))))

/-- Parts of R89, R90: CABIN_PLACE puts an UNPLACED cabin, in STOPPED, at the end of the list of its location, at the
position that its offset gives on the loop; CABIN_RETEST returns the grip of a cabin in LAUNCH that failed its test to
NONE. RANGE is tested before STATE (log entry 57). -/
def Obligations.CabinPlacedAndRetested : Prop :=
  ∀ (id : Nat) (r : Request) (rest : List Request) (s : State), 1 ≤ id → id ≤ 999 → Settled s →
    let k := keyless (taken rest s)
    (∀ (loc : Location) (offset : Nat), offset < 4294967296 →
      Asked r rest ([0x07, 4] ++ enc2 id ++ enc1 loc.code ++ enc4 offset) s →
      (s.registered id = false ∨ loc = .terminal ∨ loc = .unplaced ∨ s.params.loopLen ≤ offset →
        exec .cabinPlace s = .next (replied r [0x07, 2, 3] k))
      ∧ (s.registered id = true → loc ≠ .terminal → loc ≠ .unplaced → offset < s.params.loopLen →
        (s.ls.line ≠ .stopped ∨ s.location id ≠ some .unplaced ∨ (loc = .uphill ∧ 64 ≤ s.ct.uphill.length)
            ∨ (loc = .downhill ∧ 64 ≤ s.ct.downhill.length) → exec .cabinPlace s = .next (replied r [0x07, 2, 4] k))
        ∧ (s.ls.line = .stopped → s.location id = some .unplaced → s.ra.p < s.params.loopLen →
          let pos := (s.ra.p + s.params.loopLen - offset) % s.params.loopLen
          (loc = .uphill → s.ct.uphill.length < 64 → exec .cabinPlace s = .next (replied r [0x07, 0, 0] (updateRelease
            (setLocation id .uphill { k with ct := { s.ct with
              uphill := s.ct.uphill ++ [{ id := id, pos := pos, order := s.ct.launchCount + 1, overdue := false }]
              launchCount := s.ct.launchCount + 1 } }))))
          ∧ (loc = .downhill → s.ct.downhill.length < 64 →
            exec .cabinPlace s = .next (replied r [0x07, 0, 0] (updateRelease
              (setLocation id .downhill { k with ct := { s.ct with
                downhill := s.ct.downhill ++ [{ id := id, pos := pos, overdue := false }] } }))))
          ∧ (loc = .garage ∨ loc = .summit →
            exec .cabinPlace s = .next (replied r [0x07, 0, 0] (updateRelease (setLocation id loc k)))))))
    ∧ (Asked r rest ([0x07, 3] ++ enc2 id) s →
      ((∀ c ∈ s.ct.queue, c.id ≠ id) → exec .cabinRetest s = .next (replied r [0x07, 2, 3] k))
      ∧ ∀ c before after, s.ct.queue = before ++ c :: after → c.id = id → (∀ x ∈ before, x.id ≠ id) →
        (∀ x ∈ after, x.id ≠ id) →
        (c.zone ≠ s.launchZone ∨ c.grip ≠ .fail → exec .cabinRetest s = .next (replied r [0x07, 2, 4] k))
        ∧ (c.zone = s.launchZone → c.grip = .fail → ∃ t,
          exec .cabinRetest s = .next (replied r [0x07, 0, 0] (updateRelease t))
          ∧ Withdrawn (.cabin id) .gripFail { k with ct := { s.ct with
              queue := before ++ { c with grip := .none, force := none } :: after } } t))
end

