-- ==== Sys2Proof/Laws/State.lean ====
section
/-! SUPPORT. One lemma per field of State for each of the machine's named updates: what the update leaves unchanged. A
proof about an update cites these and unfolds nothing. -/

namespace Sys2Proof.Machine

section reach_fields
variable (s : State) (t : Nat)
@[simp] theorem reach_straps : (reach t s).straps = s.straps := rfl
@[simp] theorem reach_resetHeld : (reach t s).resetHeld = s.resetHeld := rfl
@[simp] theorem reach_freeCount : (reach t s).freeCount = s.freeCount := rfl
@[simp] theorem reach_ra : (reach t s).ra = s.ra := rfl
@[simp] theorem reach_cm : (reach t s).cm = s.cm := rfl
@[simp] theorem reach_ls : (reach t s).ls = s.ls := rfl
@[simp] theorem reach_ct : (reach t s).ct = s.ct := rfl
@[simp] theorem reach_ds : (reach t s).ds = s.ds := rfl
@[simp] theorem reach_sl : (reach t s).sl = s.sl := rfl
@[simp] theorem reach_cs : (reach t s).cs = s.cs := rfl
@[simp] theorem reach_lr : (reach t s).lr = s.lr := rfl
@[simp] theorem reach_dr : (reach t s).dr = s.dr := rfl
@[simp] theorem reach_cl : (reach t s).cl = s.cl := rfl
@[simp] theorem reach_pending : (reach t s).pending = s.pending := rfl
end reach_fields

section tick_fields
variable (s : State)
@[simp] theorem tick_straps : (tick s).straps = s.straps := rfl
@[simp] theorem tick_resetHeld : (tick s).resetHeld = s.resetHeld := rfl
@[simp] theorem tick_freeCount : (tick s).freeCount = s.freeCount := rfl
@[simp] theorem tick_ra : (tick s).ra = s.ra := rfl
@[simp] theorem tick_cm : (tick s).cm = s.cm := rfl
@[simp] theorem tick_ls : (tick s).ls = s.ls := rfl
@[simp] theorem tick_ct : (tick s).ct = s.ct := rfl
@[simp] theorem tick_ds : (tick s).ds = s.ds := rfl
@[simp] theorem tick_sl : (tick s).sl = s.sl := rfl
@[simp] theorem tick_cs : (tick s).cs = s.cs := rfl
@[simp] theorem tick_lr : (tick s).lr = s.lr := rfl
@[simp] theorem tick_dr : (tick s).dr = s.dr := rfl
@[simp] theorem tick_cl : (tick s).cl = s.cl := rfl
@[simp] theorem tick_pending : (tick s).pending = s.pending := rfl
end tick_fields

section setChan_fields
variable (s : State) (c : Nat) (ch : Channel)
@[simp] theorem setChan_straps : (setChan c ch s).straps = s.straps := rfl
@[simp] theorem setChan_resetHeld : (setChan c ch s).resetHeld = s.resetHeld := rfl
@[simp] theorem setChan_now : (setChan c ch s).now = s.now := rfl
@[simp] theorem setChan_freeCount : (setChan c ch s).freeCount = s.freeCount := rfl
@[simp] theorem setChan_ra : (setChan c ch s).ra = s.ra := rfl
@[simp] theorem setChan_ls : (setChan c ch s).ls = s.ls := rfl
@[simp] theorem setChan_ct : (setChan c ch s).ct = s.ct := rfl
@[simp] theorem setChan_ds : (setChan c ch s).ds = s.ds := rfl
@[simp] theorem setChan_sl : (setChan c ch s).sl = s.sl := rfl
@[simp] theorem setChan_cs : (setChan c ch s).cs = s.cs := rfl
@[simp] theorem setChan_lr : (setChan c ch s).lr = s.lr := rfl
@[simp] theorem setChan_dr : (setChan c ch s).dr = s.dr := rfl
@[simp] theorem setChan_cl : (setChan c ch s).cl = s.cl := rfl
@[simp] theorem setChan_pending : (setChan c ch s).pending = s.pending := rfl
end setChan_fields

section setEntry_fields
variable (s : State) (c : Nat) (e : ChanEntry)
@[simp] theorem setEntry_straps : (setEntry c e s).straps = s.straps := rfl
@[simp] theorem setEntry_resetHeld : (setEntry c e s).resetHeld = s.resetHeld := rfl
@[simp] theorem setEntry_now : (setEntry c e s).now = s.now := rfl
@[simp] theorem setEntry_freeCount : (setEntry c e s).freeCount = s.freeCount := rfl
@[simp] theorem setEntry_ra : (setEntry c e s).ra = s.ra := rfl
@[simp] theorem setEntry_ls : (setEntry c e s).ls = s.ls := rfl
@[simp] theorem setEntry_ct : (setEntry c e s).ct = s.ct := rfl
@[simp] theorem setEntry_ds : (setEntry c e s).ds = s.ds := rfl
@[simp] theorem setEntry_sl : (setEntry c e s).sl = s.sl := rfl
@[simp] theorem setEntry_cs : (setEntry c e s).cs = s.cs := rfl
@[simp] theorem setEntry_lr : (setEntry c e s).lr = s.lr := rfl
@[simp] theorem setEntry_dr : (setEntry c e s).dr = s.dr := rfl
@[simp] theorem setEntry_cl : (setEntry c e s).cl = s.cl := rfl
@[simp] theorem setEntry_pending : (setEntry c e s).pending = s.pending := rfl
end setEntry_fields

section setRt_fields
variable (s : State) (c : Nat) (rt : Runtime)
@[simp] theorem setRt_straps : (setRt c rt s).straps = s.straps := rfl
@[simp] theorem setRt_resetHeld : (setRt c rt s).resetHeld = s.resetHeld := rfl
@[simp] theorem setRt_now : (setRt c rt s).now = s.now := rfl
@[simp] theorem setRt_freeCount : (setRt c rt s).freeCount = s.freeCount := rfl
@[simp] theorem setRt_ra : (setRt c rt s).ra = s.ra := rfl
@[simp] theorem setRt_ls : (setRt c rt s).ls = s.ls := rfl
@[simp] theorem setRt_ct : (setRt c rt s).ct = s.ct := rfl
@[simp] theorem setRt_ds : (setRt c rt s).ds = s.ds := rfl
@[simp] theorem setRt_sl : (setRt c rt s).sl = s.sl := rfl
@[simp] theorem setRt_cs : (setRt c rt s).cs = s.cs := rfl
@[simp] theorem setRt_lr : (setRt c rt s).lr = s.lr := rfl
@[simp] theorem setRt_dr : (setRt c rt s).dr = s.dr := rfl
@[simp] theorem setRt_cl : (setRt c rt s).cl = s.cl := rfl
@[simp] theorem setRt_pending : (setRt c rt s).pending = s.pending := rfl
end setRt_fields

section setDesk_fields
variable (s : State) (d : Demand)
@[simp] theorem setDesk_straps : (setDesk d s).straps = s.straps := rfl
@[simp] theorem setDesk_resetHeld : (setDesk d s).resetHeld = s.resetHeld := rfl
@[simp] theorem setDesk_now : (setDesk d s).now = s.now := rfl
@[simp] theorem setDesk_freeCount : (setDesk d s).freeCount = s.freeCount := rfl
@[simp] theorem setDesk_ra : (setDesk d s).ra = s.ra := rfl
@[simp] theorem setDesk_cm : (setDesk d s).cm = s.cm := rfl
@[simp] theorem setDesk_ct : (setDesk d s).ct = s.ct := rfl
@[simp] theorem setDesk_ds : (setDesk d s).ds = s.ds := rfl
@[simp] theorem setDesk_sl : (setDesk d s).sl = s.sl := rfl
@[simp] theorem setDesk_cs : (setDesk d s).cs = s.cs := rfl
@[simp] theorem setDesk_lr : (setDesk d s).lr = s.lr := rfl
@[simp] theorem setDesk_dr : (setDesk d s).dr = s.dr := rfl
@[simp] theorem setDesk_cl : (setDesk d s).cl = s.cl := rfl
@[simp] theorem setDesk_pending : (setDesk d s).pending = s.pending := rfl
end setDesk_fields

section setQueue_fields
variable (s : State) (q : List Cabin)
@[simp] theorem setQueue_straps : (setQueue q s).straps = s.straps := rfl
@[simp] theorem setQueue_resetHeld : (setQueue q s).resetHeld = s.resetHeld := rfl
@[simp] theorem setQueue_now : (setQueue q s).now = s.now := rfl
@[simp] theorem setQueue_freeCount : (setQueue q s).freeCount = s.freeCount := rfl
@[simp] theorem setQueue_ra : (setQueue q s).ra = s.ra := rfl
@[simp] theorem setQueue_cm : (setQueue q s).cm = s.cm := rfl
@[simp] theorem setQueue_ls : (setQueue q s).ls = s.ls := rfl
@[simp] theorem setQueue_ds : (setQueue q s).ds = s.ds := rfl
@[simp] theorem setQueue_sl : (setQueue q s).sl = s.sl := rfl
@[simp] theorem setQueue_cs : (setQueue q s).cs = s.cs := rfl
@[simp] theorem setQueue_lr : (setQueue q s).lr = s.lr := rfl
@[simp] theorem setQueue_dr : (setQueue q s).dr = s.dr := rfl
@[simp] theorem setQueue_cl : (setQueue q s).cl = s.cl := rfl
@[simp] theorem setQueue_pending : (setQueue q s).pending = s.pending := rfl
end setQueue_fields

section setLocation_fields
variable (s : State) (id : Nat) (loc : Location)
@[simp] theorem setLocation_straps : (setLocation id loc s).straps = s.straps := rfl
@[simp] theorem setLocation_resetHeld : (setLocation id loc s).resetHeld = s.resetHeld := rfl
@[simp] theorem setLocation_now : (setLocation id loc s).now = s.now := rfl
@[simp] theorem setLocation_freeCount : (setLocation id loc s).freeCount = s.freeCount := rfl
@[simp] theorem setLocation_ra : (setLocation id loc s).ra = s.ra := rfl
@[simp] theorem setLocation_cm : (setLocation id loc s).cm = s.cm := rfl
@[simp] theorem setLocation_ls : (setLocation id loc s).ls = s.ls := rfl
@[simp] theorem setLocation_ds : (setLocation id loc s).ds = s.ds := rfl
@[simp] theorem setLocation_sl : (setLocation id loc s).sl = s.sl := rfl
@[simp] theorem setLocation_cs : (setLocation id loc s).cs = s.cs := rfl
@[simp] theorem setLocation_lr : (setLocation id loc s).lr = s.lr := rfl
@[simp] theorem setLocation_dr : (setLocation id loc s).dr = s.dr := rfl
@[simp] theorem setLocation_cl : (setLocation id loc s).cl = s.cl := rfl
@[simp] theorem setLocation_pending : (setLocation id loc s).pending = s.pending := rfl
end setLocation_fields

section setSlot_fields
variable (s : State) (k : Nat) (c : Option FleetCabin)
@[simp] theorem setSlot_straps : (setSlot k c s).straps = s.straps := rfl
@[simp] theorem setSlot_resetHeld : (setSlot k c s).resetHeld = s.resetHeld := rfl
@[simp] theorem setSlot_now : (setSlot k c s).now = s.now := rfl
@[simp] theorem setSlot_freeCount : (setSlot k c s).freeCount = s.freeCount := rfl
@[simp] theorem setSlot_ra : (setSlot k c s).ra = s.ra := rfl
@[simp] theorem setSlot_cm : (setSlot k c s).cm = s.cm := rfl
@[simp] theorem setSlot_ls : (setSlot k c s).ls = s.ls := rfl
@[simp] theorem setSlot_ds : (setSlot k c s).ds = s.ds := rfl
@[simp] theorem setSlot_sl : (setSlot k c s).sl = s.sl := rfl
@[simp] theorem setSlot_cs : (setSlot k c s).cs = s.cs := rfl
@[simp] theorem setSlot_lr : (setSlot k c s).lr = s.lr := rfl
@[simp] theorem setSlot_dr : (setSlot k c s).dr = s.dr := rfl
@[simp] theorem setSlot_cl : (setSlot k c s).cl = s.cl := rfl
@[simp] theorem setSlot_pending : (setSlot k c s).pending = s.pending := rfl
end setSlot_fields

section setBerth_fields
variable (s : State) (j : Nat) (b : Berth)
@[simp] theorem setBerth_straps : (setBerth j b s).straps = s.straps := rfl
@[simp] theorem setBerth_resetHeld : (setBerth j b s).resetHeld = s.resetHeld := rfl
@[simp] theorem setBerth_now : (setBerth j b s).now = s.now := rfl
@[simp] theorem setBerth_freeCount : (setBerth j b s).freeCount = s.freeCount := rfl
@[simp] theorem setBerth_ra : (setBerth j b s).ra = s.ra := rfl
@[simp] theorem setBerth_cm : (setBerth j b s).cm = s.cm := rfl
@[simp] theorem setBerth_ls : (setBerth j b s).ls = s.ls := rfl
@[simp] theorem setBerth_ct : (setBerth j b s).ct = s.ct := rfl
@[simp] theorem setBerth_sl : (setBerth j b s).sl = s.sl := rfl
@[simp] theorem setBerth_cs : (setBerth j b s).cs = s.cs := rfl
@[simp] theorem setBerth_lr : (setBerth j b s).lr = s.lr := rfl
@[simp] theorem setBerth_dr : (setBerth j b s).dr = s.dr := rfl
@[simp] theorem setBerth_cl : (setBerth j b s).cl = s.cl := rfl
@[simp] theorem setBerth_pending : (setBerth j b s).pending = s.pending := rfl
end setBerth_fields

section setDoor_fields
variable (s : State) (j : Nat) (d : Door)
@[simp] theorem setDoor_straps : (setDoor j d s).straps = s.straps := rfl
@[simp] theorem setDoor_resetHeld : (setDoor j d s).resetHeld = s.resetHeld := rfl
@[simp] theorem setDoor_now : (setDoor j d s).now = s.now := rfl
@[simp] theorem setDoor_freeCount : (setDoor j d s).freeCount = s.freeCount := rfl
@[simp] theorem setDoor_ra : (setDoor j d s).ra = s.ra := rfl
@[simp] theorem setDoor_cm : (setDoor j d s).cm = s.cm := rfl
@[simp] theorem setDoor_ls : (setDoor j d s).ls = s.ls := rfl
@[simp] theorem setDoor_ct : (setDoor j d s).ct = s.ct := rfl
@[simp] theorem setDoor_sl : (setDoor j d s).sl = s.sl := rfl
@[simp] theorem setDoor_cs : (setDoor j d s).cs = s.cs := rfl
@[simp] theorem setDoor_lr : (setDoor j d s).lr = s.lr := rfl
@[simp] theorem setDoor_dr : (setDoor j d s).dr = s.dr := rfl
@[simp] theorem setDoor_cl : (setDoor j d s).cl = s.cl := rfl
@[simp] theorem setDoor_pending : (setDoor j d s).pending = s.pending := rfl
end setDoor_fields

section unwait_fields
variable (s : State) (j : Nat)
@[simp] theorem unwait_straps : (unwait j s).straps = s.straps := rfl
@[simp] theorem unwait_resetHeld : (unwait j s).resetHeld = s.resetHeld := rfl
@[simp] theorem unwait_now : (unwait j s).now = s.now := rfl
@[simp] theorem unwait_freeCount : (unwait j s).freeCount = s.freeCount := rfl
@[simp] theorem unwait_ra : (unwait j s).ra = s.ra := rfl
@[simp] theorem unwait_cm : (unwait j s).cm = s.cm := rfl
@[simp] theorem unwait_ls : (unwait j s).ls = s.ls := rfl
@[simp] theorem unwait_ct : (unwait j s).ct = s.ct := rfl
@[simp] theorem unwait_sl : (unwait j s).sl = s.sl := rfl
@[simp] theorem unwait_cs : (unwait j s).cs = s.cs := rfl
@[simp] theorem unwait_lr : (unwait j s).lr = s.lr := rfl
@[simp] theorem unwait_dr : (unwait j s).dr = s.dr := rfl
@[simp] theorem unwait_cl : (unwait j s).cl = s.cl := rfl
@[simp] theorem unwait_pending : (unwait j s).pending = s.pending := rfl
end unwait_fields

section dropWarning_fields
variable (s : State)
@[simp] theorem dropWarning_straps : (dropWarning s).straps = s.straps := rfl
@[simp] theorem dropWarning_resetHeld : (dropWarning s).resetHeld = s.resetHeld := rfl
@[simp] theorem dropWarning_now : (dropWarning s).now = s.now := rfl
@[simp] theorem dropWarning_freeCount : (dropWarning s).freeCount = s.freeCount := rfl
@[simp] theorem dropWarning_ra : (dropWarning s).ra = s.ra := rfl
@[simp] theorem dropWarning_cm : (dropWarning s).cm = s.cm := rfl
@[simp] theorem dropWarning_ls : (dropWarning s).ls = s.ls := rfl
@[simp] theorem dropWarning_ct : (dropWarning s).ct = s.ct := rfl
@[simp] theorem dropWarning_sl : (dropWarning s).sl = s.sl := rfl
@[simp] theorem dropWarning_cs : (dropWarning s).cs = s.cs := rfl
@[simp] theorem dropWarning_lr : (dropWarning s).lr = s.lr := rfl
@[simp] theorem dropWarning_dr : (dropWarning s).dr = s.dr := rfl
@[simp] theorem dropWarning_cl : (dropWarning s).cl = s.cl := rfl
@[simp] theorem dropWarning_pending : (dropWarning s).pending = s.pending := rfl
end dropWarning_fields

section cancelOpens_fields
variable (s : State)
@[simp] theorem cancelOpens_straps : (cancelOpens s).straps = s.straps := rfl
@[simp] theorem cancelOpens_resetHeld : (cancelOpens s).resetHeld = s.resetHeld := rfl
@[simp] theorem cancelOpens_now : (cancelOpens s).now = s.now := rfl
@[simp] theorem cancelOpens_freeCount : (cancelOpens s).freeCount = s.freeCount := rfl
@[simp] theorem cancelOpens_ra : (cancelOpens s).ra = s.ra := rfl
@[simp] theorem cancelOpens_cm : (cancelOpens s).cm = s.cm := rfl
@[simp] theorem cancelOpens_ls : (cancelOpens s).ls = s.ls := rfl
@[simp] theorem cancelOpens_ct : (cancelOpens s).ct = s.ct := rfl
@[simp] theorem cancelOpens_sl : (cancelOpens s).sl = s.sl := rfl
@[simp] theorem cancelOpens_cs : (cancelOpens s).cs = s.cs := rfl
@[simp] theorem cancelOpens_lr : (cancelOpens s).lr = s.lr := rfl
@[simp] theorem cancelOpens_dr : (cancelOpens s).dr = s.dr := rfl
@[simp] theorem cancelOpens_cl : (cancelOpens s).cl = s.cl := rfl
@[simp] theorem cancelOpens_pending : (cancelOpens s).pending = s.pending := rfl
end cancelOpens_fields

section restartDetection_fields
variable (s : State)
@[simp] theorem restartDetection_straps : (restartDetection s).straps = s.straps := rfl
@[simp] theorem restartDetection_resetHeld : (restartDetection s).resetHeld = s.resetHeld := rfl
@[simp] theorem restartDetection_now : (restartDetection s).now = s.now := rfl
@[simp] theorem restartDetection_freeCount : (restartDetection s).freeCount = s.freeCount := rfl
@[simp] theorem restartDetection_ra : (restartDetection s).ra = s.ra := rfl
@[simp] theorem restartDetection_cm : (restartDetection s).cm = s.cm := rfl
@[simp] theorem restartDetection_ls : (restartDetection s).ls = s.ls := rfl
@[simp] theorem restartDetection_ct : (restartDetection s).ct = s.ct := rfl
@[simp] theorem restartDetection_ds : (restartDetection s).ds = s.ds := rfl
@[simp] theorem restartDetection_cs : (restartDetection s).cs = s.cs := rfl
@[simp] theorem restartDetection_lr : (restartDetection s).lr = s.lr := rfl
@[simp] theorem restartDetection_dr : (restartDetection s).dr = s.dr := rfl
@[simp] theorem restartDetection_cl : (restartDetection s).cl = s.cl := rfl
@[simp] theorem restartDetection_pending : (restartDetection s).pending = s.pending := rfl
end restartDetection_fields

section setTx_fields
variable (s : State) (q : List TxEntry)
@[simp] theorem setTx_straps : (setTx q s).straps = s.straps := rfl
@[simp] theorem setTx_resetHeld : (setTx q s).resetHeld = s.resetHeld := rfl
@[simp] theorem setTx_now : (setTx q s).now = s.now := rfl
@[simp] theorem setTx_freeCount : (setTx q s).freeCount = s.freeCount := rfl
@[simp] theorem setTx_ra : (setTx q s).ra = s.ra := rfl
@[simp] theorem setTx_cm : (setTx q s).cm = s.cm := rfl
@[simp] theorem setTx_ls : (setTx q s).ls = s.ls := rfl
@[simp] theorem setTx_ct : (setTx q s).ct = s.ct := rfl
@[simp] theorem setTx_ds : (setTx q s).ds = s.ds := rfl
@[simp] theorem setTx_cs : (setTx q s).cs = s.cs := rfl
@[simp] theorem setTx_lr : (setTx q s).lr = s.lr := rfl
@[simp] theorem setTx_dr : (setTx q s).dr = s.dr := rfl
@[simp] theorem setTx_cl : (setTx q s).cl = s.cl := rfl
@[simp] theorem setTx_pending : (setTx q s).pending = s.pending := rfl
end setTx_fields

section setBacklog_fields
variable (s : State) (q : List Message)
@[simp] theorem setBacklog_straps : (setBacklog q s).straps = s.straps := rfl
@[simp] theorem setBacklog_resetHeld : (setBacklog q s).resetHeld = s.resetHeld := rfl
@[simp] theorem setBacklog_now : (setBacklog q s).now = s.now := rfl
@[simp] theorem setBacklog_freeCount : (setBacklog q s).freeCount = s.freeCount := rfl
@[simp] theorem setBacklog_ra : (setBacklog q s).ra = s.ra := rfl
@[simp] theorem setBacklog_cm : (setBacklog q s).cm = s.cm := rfl
@[simp] theorem setBacklog_ls : (setBacklog q s).ls = s.ls := rfl
@[simp] theorem setBacklog_ct : (setBacklog q s).ct = s.ct := rfl
@[simp] theorem setBacklog_ds : (setBacklog q s).ds = s.ds := rfl
@[simp] theorem setBacklog_sl : (setBacklog q s).sl = s.sl := rfl
@[simp] theorem setBacklog_lr : (setBacklog q s).lr = s.lr := rfl
@[simp] theorem setBacklog_dr : (setBacklog q s).dr = s.dr := rfl
@[simp] theorem setBacklog_cl : (setBacklog q s).cl = s.cl := rfl
@[simp] theorem setBacklog_pending : (setBacklog q s).pending = s.pending := rfl
end setBacklog_fields

section applyPhone_fields
variable (s : State) (h : Nat) (e : Phone)
@[simp] theorem applyPhone_straps : (applyPhone h e s).straps = s.straps := rfl
@[simp] theorem applyPhone_resetHeld : (applyPhone h e s).resetHeld = s.resetHeld := rfl
@[simp] theorem applyPhone_now : (applyPhone h e s).now = s.now := rfl
@[simp] theorem applyPhone_freeCount : (applyPhone h e s).freeCount = s.freeCount := rfl
@[simp] theorem applyPhone_ra : (applyPhone h e s).ra = s.ra := rfl
@[simp] theorem applyPhone_cm : (applyPhone h e s).cm = s.cm := rfl
@[simp] theorem applyPhone_ls : (applyPhone h e s).ls = s.ls := rfl
@[simp] theorem applyPhone_ct : (applyPhone h e s).ct = s.ct := rfl
@[simp] theorem applyPhone_ds : (applyPhone h e s).ds = s.ds := rfl
@[simp] theorem applyPhone_sl : (applyPhone h e s).sl = s.sl := rfl
@[simp] theorem applyPhone_lr : (applyPhone h e s).lr = s.lr := rfl
@[simp] theorem applyPhone_dr : (applyPhone h e s).dr = s.dr := rfl
@[simp] theorem applyPhone_cl : (applyPhone h e s).cl = s.cl := rfl
@[simp] theorem applyPhone_pending : (applyPhone h e s).pending = s.pending := rfl
end applyPhone_fields

section offerSafety_fields
variable (s : State) (f : QFrame)
@[simp] theorem offerSafety_straps : (offerSafety f s).straps = s.straps := rfl
@[simp] theorem offerSafety_resetHeld : (offerSafety f s).resetHeld = s.resetHeld := rfl
@[simp] theorem offerSafety_now : (offerSafety f s).now = s.now := rfl
@[simp] theorem offerSafety_freeCount : (offerSafety f s).freeCount = s.freeCount := rfl
@[simp] theorem offerSafety_ra : (offerSafety f s).ra = s.ra := rfl
@[simp] theorem offerSafety_cm : (offerSafety f s).cm = s.cm := rfl
@[simp] theorem offerSafety_ls : (offerSafety f s).ls = s.ls := rfl
@[simp] theorem offerSafety_ct : (offerSafety f s).ct = s.ct := rfl
@[simp] theorem offerSafety_ds : (offerSafety f s).ds = s.ds := rfl
@[simp] theorem offerSafety_sl : (offerSafety f s).sl = s.sl := rfl
@[simp] theorem offerSafety_cs : (offerSafety f s).cs = s.cs := rfl
@[simp] theorem offerSafety_dr : (offerSafety f s).dr = s.dr := rfl
@[simp] theorem offerSafety_cl : (offerSafety f s).cl = s.cl := rfl
@[simp] theorem offerSafety_pending : (offerSafety f s).pending = s.pending := rfl
end offerSafety_fields

section joinDoor_fields
variable (s : State) (f : QFrame)
@[simp] theorem joinDoor_straps : (joinDoor f s).straps = s.straps := rfl
@[simp] theorem joinDoor_resetHeld : (joinDoor f s).resetHeld = s.resetHeld := rfl
@[simp] theorem joinDoor_now : (joinDoor f s).now = s.now := rfl
@[simp] theorem joinDoor_freeCount : (joinDoor f s).freeCount = s.freeCount := rfl
@[simp] theorem joinDoor_ra : (joinDoor f s).ra = s.ra := rfl
@[simp] theorem joinDoor_cm : (joinDoor f s).cm = s.cm := rfl
@[simp] theorem joinDoor_ls : (joinDoor f s).ls = s.ls := rfl
@[simp] theorem joinDoor_ct : (joinDoor f s).ct = s.ct := rfl
@[simp] theorem joinDoor_ds : (joinDoor f s).ds = s.ds := rfl
@[simp] theorem joinDoor_sl : (joinDoor f s).sl = s.sl := rfl
@[simp] theorem joinDoor_cs : (joinDoor f s).cs = s.cs := rfl
@[simp] theorem joinDoor_dr : (joinDoor f s).dr = s.dr := rfl
@[simp] theorem joinDoor_cl : (joinDoor f s).cl = s.cl := rfl
@[simp] theorem joinDoor_pending : (joinDoor f s).pending = s.pending := rfl
end joinDoor_fields

section offerVoice_fields
variable (s : State) (f : QFrame)
@[simp] theorem offerVoice_straps : (offerVoice f s).straps = s.straps := rfl
@[simp] theorem offerVoice_resetHeld : (offerVoice f s).resetHeld = s.resetHeld := rfl
@[simp] theorem offerVoice_now : (offerVoice f s).now = s.now := rfl
@[simp] theorem offerVoice_freeCount : (offerVoice f s).freeCount = s.freeCount := rfl
@[simp] theorem offerVoice_ra : (offerVoice f s).ra = s.ra := rfl
@[simp] theorem offerVoice_cm : (offerVoice f s).cm = s.cm := rfl
@[simp] theorem offerVoice_ls : (offerVoice f s).ls = s.ls := rfl
@[simp] theorem offerVoice_ct : (offerVoice f s).ct = s.ct := rfl
@[simp] theorem offerVoice_ds : (offerVoice f s).ds = s.ds := rfl
@[simp] theorem offerVoice_sl : (offerVoice f s).sl = s.sl := rfl
@[simp] theorem offerVoice_cs : (offerVoice f s).cs = s.cs := rfl
@[simp] theorem offerVoice_dr : (offerVoice f s).dr = s.dr := rfl
@[simp] theorem offerVoice_cl : (offerVoice f s).cl = s.cl := rfl
@[simp] theorem offerVoice_pending : (offerVoice f s).pending = s.pending := rfl
end offerVoice_fields

section joinReport_fields
variable (s : State) (f : QFrame)
@[simp] theorem joinReport_straps : (joinReport f s).straps = s.straps := rfl
@[simp] theorem joinReport_resetHeld : (joinReport f s).resetHeld = s.resetHeld := rfl
@[simp] theorem joinReport_now : (joinReport f s).now = s.now := rfl
@[simp] theorem joinReport_freeCount : (joinReport f s).freeCount = s.freeCount := rfl
@[simp] theorem joinReport_ra : (joinReport f s).ra = s.ra := rfl
@[simp] theorem joinReport_cm : (joinReport f s).cm = s.cm := rfl
@[simp] theorem joinReport_ls : (joinReport f s).ls = s.ls := rfl
@[simp] theorem joinReport_ct : (joinReport f s).ct = s.ct := rfl
@[simp] theorem joinReport_ds : (joinReport f s).ds = s.ds := rfl
@[simp] theorem joinReport_sl : (joinReport f s).sl = s.sl := rfl
@[simp] theorem joinReport_cs : (joinReport f s).cs = s.cs := rfl
@[simp] theorem joinReport_dr : (joinReport f s).dr = s.dr := rfl
@[simp] theorem joinReport_cl : (joinReport f s).cl = s.cl := rfl
@[simp] theorem joinReport_pending : (joinReport f s).pending = s.pending := rfl
end joinReport_fields

section setKey_fields
variable (s : State) (k : KeyState)
@[simp] theorem setKey_straps : (setKey k s).straps = s.straps := rfl
@[simp] theorem setKey_resetHeld : (setKey k s).resetHeld = s.resetHeld := rfl
@[simp] theorem setKey_now : (setKey k s).now = s.now := rfl
@[simp] theorem setKey_freeCount : (setKey k s).freeCount = s.freeCount := rfl
@[simp] theorem setKey_ra : (setKey k s).ra = s.ra := rfl
@[simp] theorem setKey_cm : (setKey k s).cm = s.cm := rfl
@[simp] theorem setKey_ls : (setKey k s).ls = s.ls := rfl
@[simp] theorem setKey_ct : (setKey k s).ct = s.ct := rfl
@[simp] theorem setKey_ds : (setKey k s).ds = s.ds := rfl
@[simp] theorem setKey_sl : (setKey k s).sl = s.sl := rfl
@[simp] theorem setKey_cs : (setKey k s).cs = s.cs := rfl
@[simp] theorem setKey_lr : (setKey k s).lr = s.lr := rfl
@[simp] theorem setKey_cl : (setKey k s).cl = s.cl := rfl
@[simp] theorem setKey_pending : (setKey k s).pending = s.pending := rfl
end setKey_fields

section applyFlags_fields
variable (s : State) (a b : BitVec 24)
@[simp] theorem applyFlags_straps : (applyFlags a b s).straps = s.straps := rfl
@[simp] theorem applyFlags_resetHeld : (applyFlags a b s).resetHeld = s.resetHeld := rfl
@[simp] theorem applyFlags_now : (applyFlags a b s).now = s.now := rfl
@[simp] theorem applyFlags_freeCount : (applyFlags a b s).freeCount = s.freeCount := rfl
@[simp] theorem applyFlags_ra : (applyFlags a b s).ra = s.ra := rfl
@[simp] theorem applyFlags_cm : (applyFlags a b s).cm = s.cm := rfl
@[simp] theorem applyFlags_ls : (applyFlags a b s).ls = s.ls := rfl
@[simp] theorem applyFlags_ct : (applyFlags a b s).ct = s.ct := rfl
@[simp] theorem applyFlags_ds : (applyFlags a b s).ds = s.ds := rfl
@[simp] theorem applyFlags_sl : (applyFlags a b s).sl = s.sl := rfl
@[simp] theorem applyFlags_cs : (applyFlags a b s).cs = s.cs := rfl
@[simp] theorem applyFlags_lr : (applyFlags a b s).lr = s.lr := rfl
@[simp] theorem applyFlags_cl : (applyFlags a b s).cl = s.cl := rfl
@[simp] theorem applyFlags_pending : (applyFlags a b s).pending = s.pending := rfl
end applyFlags_fields

section setFlag_fields
variable (s : State) (f g : Flag)
@[simp] theorem setFlag_straps : (setFlag f s).straps = s.straps := by unfold setFlag; split <;> rfl
@[simp] theorem setFlag_resetHeld : (setFlag f s).resetHeld = s.resetHeld := by unfold setFlag; split <;> rfl
@[simp] theorem setFlag_now : (setFlag f s).now = s.now := by unfold setFlag; split <;> rfl
@[simp] theorem setFlag_freeCount : (setFlag f s).freeCount = s.freeCount := by unfold setFlag; split <;> rfl
@[simp] theorem setFlag_ra : (setFlag f s).ra = s.ra := by unfold setFlag; split <;> rfl
@[simp] theorem setFlag_cm : (setFlag f s).cm = s.cm := by unfold setFlag; split <;> rfl
@[simp] theorem setFlag_ls : (setFlag f s).ls = s.ls := by unfold setFlag; split <;> rfl
@[simp] theorem setFlag_ct : (setFlag f s).ct = s.ct := by unfold setFlag; split <;> rfl
@[simp] theorem setFlag_ds : (setFlag f s).ds = s.ds := by unfold setFlag; split <;> rfl
@[simp] theorem setFlag_sl : (setFlag f s).sl = s.sl := by unfold setFlag; split <;> rfl
@[simp] theorem setFlag_cs : (setFlag f s).cs = s.cs := by unfold setFlag; split <;> rfl
@[simp] theorem setFlag_lr : (setFlag f s).lr = s.lr := by unfold setFlag; split <;> rfl
@[simp] theorem setFlag_cl : (setFlag f s).cl = s.cl := by unfold setFlag; split <;> rfl
@[simp] theorem setFlag_pending : (setFlag f s).pending = s.pending := by unfold setFlag; split <;> rfl
@[simp] theorem setFlag_dr_key : (setFlag f s).dr.key = s.dr.key := by unfold setFlag; split <;> rfl
@[simp] theorem setFlag_dr_keyTimer : (setFlag f s).dr.keyTimer = s.dr.keyTimer := by unfold setFlag; split <;> rfl
@[simp] theorem setFlag_dr_enable : (setFlag f s).dr.enable = s.dr.enable := by unfold setFlag; split <;> rfl
@[simp] theorem setFlag_dr_capture : (setFlag f s).dr.capture = s.dr.capture := by unfold setFlag; split <;> rfl
@[simp] theorem setFlag_dr_restartWait : (setFlag f s).dr.restartWait = s.dr.restartWait := by unfold setFlag; split <;> rfl
@[simp] theorem setFlag_dr_placeNotice : (setFlag f s).dr.placeNotice = s.dr.placeNotice := by unfold setFlag; split <;> rfl
end setFlag_fields

end Sys2Proof.Machine
end

