-- ==== Sys2Proof/Laws/Tables.lean ====
section
/-! SUPPORT. The tables of State read after a write: channels, berths, door records, event flags. -/

namespace Sys2Proof.Machine

/-! ## Channels -/

theorem chan_setChan (c i : Nat) (ch : Channel) (s : State) :
    (setChan c ch s).chan i = if c = i ∧ i < 48 then ch else s.chan i := by
  unfold State.chan setChan
  simp only [Vector.getElem?_setIfInBounds]
  by_cases hci : c = i
  · subst hci
    by_cases hc : c < 48
    · simp [hc]
    · simp [hc]
  · simp [hci]

theorem chan_setChan_same {c : Nat} (h : c < 48) (ch : Channel) (s : State) : (setChan c ch s).chan c = ch := by
  simp [chan_setChan, h]

theorem chan_setChan_ne {c i : Nat} (h : c ≠ i) (ch : Channel) (s : State) : (setChan c ch s).chan i = s.chan i := by
  simp [chan_setChan, h]

/-- A channel beyond the table is UNUSED. -/
theorem chan_beyond {c : Nat} (h : 48 ≤ c) (s : State) : s.chan c = Channel.reset := by
  unfold State.chan
  rw [Vector.getElem?_eq_none (by omega)]
  rfl

/-- A write beyond the table changes nothing. -/
theorem setChan_beyond {c : Nat} (h : 48 ≤ c) (ch : Channel) (s : State) : setChan c ch s = s := by
  unfold setChan
  rw [Vector.setIfInBounds_eq_of_size_le (by omega)]

/-! ## Berths -/

theorem berth_setBerth (j i : Nat) (b : Berth) (s : State) :
    (setBerth j b s).berth i = if j - 1 = i - 1 ∧ i - 1 < 8 then b else s.berth i := by
  unfold State.berth setBerth
  simp only [Vector.getElem?_setIfInBounds]
  by_cases hji : j - 1 = i - 1
  · rw [hji]
    by_cases hi : i - 1 < 8
    · simp [hi]
    · simp [hi]
  · simp [hji]

theorem berth_setBerth_same {j : Nat} (h : j ≤ 8) (b : Berth) (s : State) : (setBerth j b s).berth j = b := by
  rw [berth_setBerth, if_pos ⟨rfl, by omega⟩]

theorem door_setDoor_same {j : Nat} (h : j ≤ 8) (d : Door) (s : State) : (setDoor j d s).door j = d := by
  simp [State.door, setDoor, berth_setBerth_same h]

theorem entry_setDoor_same {j : Nat} (h : j ≤ 8) (d : Door) (s : State) :
    ((setDoor j d s).berth j).entry = (s.berth j).entry := by
  simp [setDoor, berth_setBerth_same h]

theorem berth_setDoor_ne {i j : Nat} (hi : 1 ≤ i) (hj : 1 ≤ j) (h : i ≠ j) (d : Door) (s : State) :
    (setDoor j d s).berth i = s.berth i := by
  rw [setDoor, berth_setBerth, if_neg (by omega)]

theorem door_setDoor_ne {i j : Nat} (hi : 1 ≤ i) (hj : 1 ≤ j) (h : i ≠ j) (d : Door) (s : State) :
    (setDoor j d s).door i = s.door i := by
  rw [State.door, berth_setDoor_ne hi hj h, State.door]

/-- The part has at most 8 berths (R197). -/
theorem berthCount_le (s : State) : s.berthCount ≤ 8 := by
  unfold State.berthCount
  have := s.straps.berths.isLt
  omega

theorem isBerth_bounds {j : Nat} {s : State} (h : s.isBerth j = true) : 1 ≤ j ∧ j ≤ 8 := by
  have := berthCount_le s
  simp only [State.isBerth, decide_eq_true_eq] at h
  omega

theorem mem_berthList {j : Nat} {s : State} : j ∈ s.berthList ↔ s.isBerth j = true := by
  simp only [State.berthList, List.mem_map, List.mem_range, State.isBerth, decide_eq_true_eq]
  constructor
  · rintro ⟨i, hi, rfl⟩
    omega
  · rintro ⟨h1, h2⟩
    exact ⟨j - 1, by omega, by omega⟩

/-! ## Event flags -/

theorem Flag.bit_lt (f : Flag) : f.bit < 24 := by cases f <;> decide

theorem Flag.bit_injective {f g : Flag} (h : f.bit = g.bit) : f = g := by
  cases f <;> cases g <;> first | rfl | (exact absurd h (by decide))

/-- R191: a flag is set after its setting. -/
@[simp] theorem flag_setFlag_same (f : Flag) (s : State) : (setFlag f s).flag f = true := by
  unfold setFlag
  split
  · assumption
  · simp [State.flag, Flag.mask, f.bit_lt]

/-- R191: setting a flag changes no other flag. -/
theorem flag_setFlag_ne {f g : Flag} (h : f ≠ g) (s : State) : (setFlag f s).flag g = s.flag g := by
  unfold setFlag
  split
  · rfl
  · have hb : g.bit ≠ f.bit := fun e => h (Flag.bit_injective e.symm)
    simp [State.flag, Flag.mask, BitVec.getLsbD_or, BitVec.getLsbD_twoPow, Ne.symm hb]

/-- R191: setting a flag clears none. -/
theorem flag_setFlag_mono {f g : Flag} {s : State} (h : s.flag g = true) : (setFlag f s).flag g = true := by
  by_cases e : f = g
  · subst e
    exact flag_setFlag_same f s
  · rw [flag_setFlag_ne e, h]

end Sys2Proof.Machine
end

