-- ==== Sys2Proof/Laws/Judged.lean ====
section
/-! SUPPORT. What the judgements of a table write and the commissioning checks decide, as Safety states it, which encoder
channel and wind band the channels give, and where an offered frame lands in the SAFETY queue. -/

namespace Sys2Proof.Machine

open Sys2Proof.Safety

/-! ## The ranges of the entries (R42, R66, R93) -/

/-- R42: a slot is free when no other channel that is not UNUSED has it. -/
theorem slotTaken_iff (c : Nat) (e : ChanEntry) (s : State) : s.slotTaken c e = false ↔
    ∀ i, i < 48 → i ≠ c → (s.chan i).entry.state ≠ .unused →
      ¬ ((s.chan i).entry.node = e.node ∧ (s.chan i).entry.slot = e.slot) := by
  unfold State.slotTaken
  rw [List.any_eq_false]
  simp only [List.mem_range, Bool.and_eq_true, bne_iff_ne, ne_eq, beq_iff_eq, not_and]
  exact ⟨fun h i h1 h2 h3 h4 h5 => h i h1 ⟨⟨h2, h3⟩, h4⟩ h5, fun h i h1 h2 h5 => h i h1 h2.1.1 h2.1.2 h2.2 h5⟩

/-- R42: the ranges of a channel entry, field by field. -/
theorem chanInRange_iff (n c : Nat) (e : ChanEntry) : chanInRange n c e = true ↔
    (1 ≤ e.node ∧ e.node ≤ 126 ∧ e.slot ≤ 7 ∧ 1 ≤ e.persistence ∧ e.persistence ≤ 15 ∧ 1 ≤ e.staleTime
      ∧ e.staleTime ≤ 200)
    ∧ (∀ b, e.standby = some b → b ≤ 47 ∧ b ≠ c)
    ∧ (e.kind = .encoder → 1 ≤ e.scale ∧ e.scale ≤ 20000 ∧ 1 ≤ e.step ∧ e.step ≤ 32767 ∧ e.shift ≤ 4)
    ∧ (e.kind = .trackMark → 1 ≤ e.boundary ∧ e.boundary ≤ n + 2)
    ∧ (e.kind = .tension ∨ e.kind = .ropeOffset → e.low + 2 * e.hysteresis ≤ e.high)
    ∧ (e.kind = .wind → e.low ≤ e.high ∧ e.hysteresis ≤ e.low)
    ∧ (e.kind = .gripForce → e.low ≤ e.high) := by
  unfold chanInRange
  rw [Bool.and_eq_true, Bool.and_eq_true, decide_eq_true_eq, and_assoc]
  refine and_congr Iff.rfl (and_congr ?_ ?_)
  · cases e.standby <;> simp
  · cases e.kind <;> simp

/-- R42: what `validChan` judges a channel entry by, before the substitution list. -/
theorem chanAllowed_iff (c : Nat) (e : ChanEntry) (s : State) : ChanAllowed s c e ↔
    chanInRange s.berthCount c e = true ∧ (e.state = .failed → (s.chan c).entry.state = .failed)
      ∧ (e.state ≠ .unused → s.slotTaken c e = false) := by
  rw [chanInRange_iff, slotTaken_iff]
  constructor
  · rintro ⟨⟨a, b⟩, c, ⟨d, d'⟩, ⟨e', e''⟩, f, g, h, i, j, k, l, m⟩
    exact ⟨⟨⟨a, b, c, d, d', e', e''⟩, f, g, h, i, j, k⟩, l, m⟩
  · rintro ⟨⟨⟨a, b, c, d, d', e', e''⟩, f, g, h, i, j, k⟩, l, m⟩
    exact ⟨⟨a, b⟩, c, ⟨d, d'⟩, ⟨e', e''⟩, f, g, h, i, j, k, l, m⟩

/-- R66 -/
theorem lineAllowed_iff (p : LineParams) : LineAllowed p ↔ p.inRange = true := by
  unfold LineParams.inRange; rw [decide_eq_true_eq]
  constructor
  · rintro ⟨h1, h2, h3, h4, h5, h6, h7, h8, h9, h10, h11, h12, h13, h14⟩; tauto
  · intro h; constructor <;> tauto

/-- R93 -/
theorem berthAllowed_iff (p : BerthEntry) : BerthAllowed p ↔ p.inRange = true := by
  unfold BerthEntry.inRange; rw [decide_eq_true_eq]
  constructor
  · rintro ⟨h1, h2, h3, h4, h5, h6, h7, h8⟩; tauto
  · intro h; constructor <;> tauto

/-! ## The narrowing rule (R43) -/

/-- R43 -/
theorem chanStructural_iff (o e : ChanEntry) : chanStructural o e = true ↔ ChanStructural o e := by
  unfold chanStructural ChanStructural
  simp only [Bool.or_eq_true, Bool.and_eq_true, bne_iff_ne, ne_eq, beq_iff_eq]; tauto

/-- R43 -/
theorem chanLoosens_iff (o e : ChanEntry) : chanLoosens o e = true ↔ ChanLoosens o e := by
  unfold chanLoosens ChanLoosens
  cases e.kind <;> simp <;> tauto

/-- R43 -/
theorem lineStructural_iff (o p : LineParams) : lineStructural o p = true ↔ LineStructural o p := by
  unfold lineStructural LineStructural
  simp only [Bool.or_eq_true, bne_iff_ne, ne_eq]; tauto

/-- R43 -/
theorem lineLoosens_iff (o p : LineParams) : lineLoosens o p = true ↔ LineLoosens o p := by
  have : slowerThan (autoSlowPeriod p.idleSlow) (autoSlowPeriod o.idleSlow) = true ↔
      o.idleSlow ≠ 0 ∧ (p.idleSlow = 0 ∨ max 12 o.idleSlow < max 12 p.idleSlow) := by
    unfold slowerThan autoSlowPeriod
    split_ifs <;> simp <;> omega
  unfold lineLoosens LineLoosens
  rw [Bool.or_eq_true, this, decide_eq_true_eq]; simp only [or_assoc]

/-! ## The encoder channel and the wind band (R1, R29) -/

/-- The first number that meets a test is the lowest one with the property that it tests. -/
theorem lowest_iff {p : Nat → Bool} {P : Nat → Prop} {o : Option Nat} (hp : ∀ i, P i ↔ i < 48 ∧ p i = true) :
    Lowest P o ↔ (List.range 48).find? p = o := by
  constructor
  · rintro (⟨rfl, h⟩ | ⟨d, rfl, h1, h2⟩)
    · rw [List.find?_eq_none]; intro i hi g; exact h i ((hp i).2 ⟨by simpa using hi, g⟩)
    · obtain ⟨hd, hpd⟩ := (hp d).1 h1
      rw [List.find?_range_eq_some]
      refine ⟨hpd, by simpa using hd, fun j hj => ?_⟩
      have := h2 j hj
      rw [hp] at this
      by_contra g
      exact this ⟨by omega, by simpa using g⟩
  · cases o with
    | none =>
      intro h
      rw [List.find?_eq_none] at h
      exact .inl ⟨rfl, fun i hi => h i (by simpa using ((hp i).1 hi).1) ((hp i).1 hi).2⟩
    | some d =>
      intro h
      rw [List.find?_range_eq_some] at h
      obtain ⟨h1, h2, h3⟩ := h
      refine .inr ⟨d, rfl, (hp d).2 ⟨by simpa using h2, h1⟩, fun i hi g => ?_⟩
      have := h3 i hi
      rw [((hp i).1 g).2] at this
      cases this

theorem activeOf_iff (k : ChanKind) (s : State) (i : Nat) :
    ActiveOf k s i ↔ i < 48 ∧ ((s.chan i).entry.state == .active && (s.chan i).entry.kind == k) = true := by
  unfold ActiveOf; simp

/-- R1: the encoder channel that RA determines. -/
theorem encoderNow_iff (s : State) (o : Option Nat) : s.encoderNow = o ↔ Lowest (ActiveOf .encoder s) o :=
  (lowest_iff (activeOf_iff _ s)).symm

theorem Band.max_code (a b : Band) : (a.max b).code = Nat.max a.code b.code := by cases a <;> cases b <;> rfl
theorem Band.code_inj {a b : Band} (h : a.code = b.code) : a = b := by cases a <;> cases b <;> simp_all [Band.code]

theorem foldBand_le (l : List Channel) (b : Band) (k : Nat) :
    (l.foldl (fun b ch => if ch.entry.state = .active ∧ ch.entry.kind = .wind then b.max ch.rt.band else b) b).code ≤ k ↔
      b.code ≤ k ∧ ∀ ch ∈ l, ch.entry.state = .active → ch.entry.kind = .wind → ch.rt.band.code ≤ k := by
  induction l generalizing b with
  | nil => simp
  | cons a l ih =>
    rw [List.foldl_cons, ih]; split
    · rename_i h
      have : (b.max a.rt.band).code ≤ k ↔ b.code ≤ k ∧ a.rt.band.code ≤ k := by rw [Band.max_code]; exact Nat.max_le
      rw [this]; simp [h, and_assoc]
    · rename_i h; simp only [List.forall_mem_cons]; constructor
      · rintro ⟨h1, h2⟩; exact ⟨h1, fun x y => absurd ⟨x, y⟩ h, h2⟩
      · rintro ⟨h1, -, h2⟩; exact ⟨h1, h2⟩

/-- R29: the band that CM forms is the least that no ACTIVE WIND channel's exceeds. -/
theorem bandNow_le (s : State) (k : Nat) :
    s.bandNow.code ≤ k ↔ ∀ i, ActiveOf .wind s i → (s.chan i).rt.band.code ≤ k := by
  unfold State.bandNow; rw [foldBand_le]
  have hch : ∀ i (h : i < 48), s.chan i = s.cm.channels[i] := by intro i h; unfold State.chan; simp [h]
  constructor
  · rintro ⟨-, h⟩ i ⟨h1, h2, h3⟩
    rw [hch i h1] at h2 h3 ⊢
    exact h _ (by simp) h2 h3
  · intro h
    refine ⟨by simp [Band.code], fun ch hm h2 h3 => ?_⟩
    obtain ⟨i, hi, rfl⟩ := Vector.mem_iff_getElem.1 (by simpa using hm)
    have := h i ⟨hi, by rw [hch i hi]; exact h2, by rw [hch i hi]; exact h3⟩
    rw [hch i hi] at this; exact this

/-- R29: a band that CM forms is CALM or an ACTIVE WIND channel's own. -/
theorem bandNow_held (s : State) : s.bandNow = .calm ∨ ∃ i, ActiveOf .wind s i ∧ (s.chan i).rt.band = s.bandNow := by
  by_cases h : s.bandNow = .calm
  · exact .inl h
  refine .inr (by_contra fun g => h (Band.code_inj ?_))
  have hpos : 0 < s.bandNow.code := by cases hb : s.bandNow <;> simp_all [Band.code]
  have : s.bandNow.code ≤ s.bandNow.code - 1 := by
    rw [bandNow_le]
    intro i hi
    have h1 := (bandNow_le s _).1 (le_refl _) i hi
    have h2 : (s.chan i).rt.band.code ≠ s.bandNow.code := fun e => g ⟨i, hi, Band.code_inj e⟩
    omega
  omega

/-- R1, R29: RA's encoder channel and the part-wide band are as RA and CM form them. -/
theorem channelsFormed_iff (s : State) :
    ChannelsFormed s ↔ s.ra.encoder = s.encoderNow ∧ s.cm.windBand = s.bandNow := by
  constructor
  · rintro ⟨h1, h2, h3⟩
    refine ⟨((encoderNow_iff s _).2 h1).symm, Band.code_inj (Nat.le_antisymm ?_ ((bandNow_le s _).2 h3))⟩
    rcases h2 with g | ⟨i, g1, g2⟩
    · rw [g]; simp [Band.code]
    · rw [← g2]; exact (bandNow_le s _).1 (le_refl _) i g1
  · rintro ⟨h1, h2⟩
    exact ⟨(encoderNow_iff s _).1 h1.symm, by rw [h2]; exact bandNow_held s,
      fun i hi => by rw [h2]; exact (bandNow_le s _).1 (le_refl _) i hi⟩

/-! ## The commissioning checks (R189) -/

/-- The number of channels that meet a test is 1 where there is one such channel. -/
theorem count_single {p : Nat → Bool} {P : Nat → Prop} {q : Channel → Bool} (s : State)
    (hp : ∀ i, P i ↔ i < 48 ∧ p i = true) (hq : ∀ i, i < 48 → q (s.chan i) = p i) :
    (s.cm.channels.toList.filter q).length = 1 ↔ Single P := by
  have e : s.cm.channels.toList = (List.range 48).map s.chan := by
    apply List.ext_getElem
    · simp
    · intro i h1 h2
      simp only [List.getElem_map, List.getElem_range]
      have : i < 48 := by simpa using h1
      unfold State.chan; simp [this]
  have : (List.range 48).filter (q ∘ s.chan) = (List.range 48).filter p :=
    List.filter_congr fun i hi => hq i (by simpa using hi)
  rw [e, List.filter_map, List.length_map, this, List.length_eq_one_iff]
  have hm : ∀ j, j ∈ (List.range 48).filter p ↔ P j := by intro j; rw [hp]; simp
  constructor
  · rintro ⟨a, ha⟩
    rw [ha] at hm
    exact ⟨a, (hm a).1 (by simp), fun j hj => by simpa using (hm j).2 hj⟩
  · rintro ⟨a, ha, hu⟩
    refine ⟨a, ?_⟩
    have nd : ((List.range 48).filter p).Nodup := List.nodup_range.filter _
    cases hl : (List.range 48).filter p with
    | nil => rw [hl] at hm; exact absurd ((hm a).2 ha) (by simp)
    | cons x l =>
      rw [hl] at nd hm
      obtain rfl := hu x ((hm x).1 (by simp))
      cases l with
      | nil => rfl
      | cons y l => obtain rfl := hu y ((hm y).1 (by simp)); simp at nd

/-- R189: each check of COMMISSION holds where its number's condition does. -/
theorem commissionChecks_iff (s : State) (i : Nat) (h1 : 1 ≤ i) (h8 : i ≤ 8) :
    (commissionChecks s)[i - 1]? = some true ↔ Commissionable s i := by
  have A : ∀ k, s.activeOf k = 1 ↔ Single (ActiveOf k s) := fun k => count_single s (activeOf_iff k s) (fun i hi => rfl)
  have B : ∀ b, s.marksOf b = 1 ↔ Single (fun i => ActiveOf .trackMark s i ∧ (s.chan i).entry.boundary = b) := by
    intro b
    refine count_single (p := fun i => (s.chan i).entry.state == .active && (s.chan i).entry.kind == .trackMark
      && (s.chan i).entry.boundary == b) s (fun i => ?_) (fun i hi => rfl)
    rw [activeOf_iff]; simp [and_assoc]
  have C : ∀ c, standbySound s c = true ↔ ∀ b, (s.chan c).entry.state = .active → (s.chan c).entry.standby = some b →
      (s.chan b).entry.state = .standby ∧ (s.chan b).entry.kind = (s.chan c).entry.kind
        ∧ ∀ i, i < 48 → i ≠ c → (s.chan i).entry.state = .active → (s.chan i).entry.standby ≠ some b := by
    intro c; unfold standbySound; dsimp only
    cases h : (s.chan c).entry.standby with
    | none => simp
    | some b => by_cases ha : (s.chan c).entry.state = .active <;> simp [ha, and_assoc]
  rcases (show i = 1 ∨ i = 2 ∨ i = 3 ∨ i = 4 ∨ i = 5 ∨ i = 6 ∨ i = 7 ∨ i = 8 by omega) with
    rfl | rfl | rfl | rfl | rfl | rfl | rfl | rfl <;>
    (unfold commissionChecks Commissionable
     simp only [Nat.sub_self, Nat.reduceSub, List.getElem?_cons_zero, List.getElem?_cons_succ, Option.some.injEq,
       Nat.reduceEqDiff, false_implies, true_and, and_true, true_implies])
  · simpa using A .encoder
  · simp
  · simp
  · rw [List.all_eq_true]
    simp only [List.mem_range, beq_iff_eq, B]
    exact ⟨fun h k h1 h2 => by have := h (k - 1) (by omega); rwa [show k - 1 + 1 = k by omega] at this,
      fun h k hk => h (k + 1) (by omega) (by omega)⟩
  · simpa using A .cabinId
  · simpa using A .gripForce
  · rw [List.all_eq_true]
    simp only [mem_berthList, Bool.or_eq_true, bne_iff_ne, ne_eq]
    exact forall_congr' fun j => by tauto
  · rw [List.all_eq_true]
    simp only [List.mem_range, C]
    exact ⟨fun h c b h1 h2 h3 => h c h1 b h2 h3, fun h c h1 b h2 h3 => h c b h1 h2 h3⟩

/-! ## The SAFETY queue -/

/-- R63, R81, R170: a frame handed to the SAFETY queue takes the place of the one of its kind, or joins. -/
theorem offerSafety_offered (f : QFrame) (s : State) (h : AtMostOneEach s.lr.safety) :
    ∃ l, Offered f s.lr.safety l ∧ offerSafety f s = { s with lr := { s.lr with safety := l } } := by
  unfold offerSafety; dsimp only
  refine ⟨_, ?_, rfl⟩
  by_cases g : s.lr.safety.any (fun g => g.kind = f.kind) = true
  · rw [if_pos g]
    obtain ⟨x, hx, hk⟩ := List.any_eq_true.1 g
    obtain ⟨a, b, hab⟩ := List.append_of_mem hx
    have hk : x.kind = f.kind := by simpa using hk
    have nd := h.1
    rw [hab] at nd ⊢
    simp only [List.map_append, List.map_cons, List.nodup_append, List.nodup_cons] at nd
    refine .inr ⟨a, x, b, rfl, hk, ?_, ?_⟩
    · intro y hy e
      rcases List.mem_append.1 hy with hy | hy
      · exact nd.2.2 _ (List.mem_map_of_mem hy) _ (List.mem_cons_self) (e.trans hk.symm)
      · exact nd.2.1.1 (by rw [hk, ← e]; exact List.mem_map_of_mem hy)
    · simp only [List.map_append, List.map_cons]
      congr 1
      · refine (List.map_congr_left fun y hy => ?_).trans (List.map_id _)
        rw [if_neg]; rfl
        intro e; exact nd.2.2 _ (List.mem_map_of_mem hy) _ (List.mem_cons_self) (e.trans hk.symm)
      · rw [if_pos hk]; congr 1
        refine (List.map_congr_left fun y hy => ?_).trans (List.map_id _)
        rw [if_neg]; rfl
        intro e; exact nd.2.1.1 (by rw [hk, ← e]; exact List.mem_map_of_mem hy)
  · rw [if_neg g]
    refine .inl ⟨fun y hy e => g (List.any_eq_true.2 ⟨y, hy, by simpa using e⟩), rfl⟩

end Sys2Proof.Machine
end

