-- ==== Sys2Proof/Laws/Line.lean ====
section
/-! SUPPORT. LS's operations and CT's release (Machine/Ops.lean): the blocks they leave unchanged. -/

namespace Sys2Proof.Machine

/-! ## What LS's operations leave unchanged -/

/-- A view of the state that shows nothing of what LS's operations change: LS, the berths' opens, the break pending
mark, the SAFETY queue, and the flags with their owed marks. -/
structure LineBlind {α : Type} (g : State → α) : Prop where
  ls : ∀ s x, g { s with ls := x } = g s
  ds : ∀ s x, g { s with ds := { s.ds with berths := x } } = g s
  sl : ∀ s x, g { s with sl := { s.sl with breakPending := x } } = g s
  lr : ∀ s x, g { s with lr := { s.lr with safety := x } } = g s
  dr : ∀ s x y, g { s with dr := { s.dr with flags := x, owed := y } } = g s

namespace LineBlind

variable {α : Type} {g : State → α} (h : LineBlind g)
include h

theorem setFlag (f : Flag) (s : State) : g (setFlag f s) = g s := by
  unfold Machine.setFlag
  split
  · rfl
  · exact h.dr _ _ _

theorem sendDrive (s : State) : g (sendDrive s) = g s := by
  unfold Machine.sendDrive
  extract_lets _ s1
  have h1 : g s1 = g s := h.ls _ _
  split
  · exact h1
  · exact (h.lr _ _).trans h1

theorem issueDrive (s : State) : g (issueDrive s) = g s := (h.sendDrive _).trans (h.ls _ _)

theorem dropFault (src : Source) (code : FaultCode) (s : State) : g (dropFault src code s) = g s := by
  unfold Machine.dropFault
  split
  extract_lets _ s1
  have h1 : g s1 = g s := h.ls _ _
  split
  · exact (h.setFlag _ _).trans h1
  · exact h1

theorem listFault (f : Raise) (s : State) : g (listFault f s) = g s := by
  unfold Machine.listFault
  extract_lets hit again _ s1
  have h1 : g s1 = g s := h.ls _ _
  split
  · split
    · exact (h.setFlag _ _).trans h1
    · exact h1
  · split
    · exact (h.setFlag _ _).trans (h.ls _ _)
    · exact (h.setFlag _ _).trans (h.ls _ _)

theorem enterLine (st : LineState) (s : State) : g (enterLine st s) = g s := by
  unfold Machine.enterLine
  extract_lets ending auto _ s1 s2 _ s3 s4 _ s5
  have h1 : g s1 = g s := (h.setFlag _ _).trans (h.ls _ _)
  have h2 : g s2 = g s := by
    unfold s2
    split
    · exact (h.dropFault _ _ _).trans h1
    · exact h1
  have h3 : g s3 = g s := (h.ls _ _).trans h2
  have h4 : g s4 = g s := by
    unfold s4
    split
    · exact (h.ds _ _).trans h3
    · exact h3
  have h5 : g s5 = g s := by
    unfold s5
    split
    · exact (h.sl _ _).trans h4
    · exact h4
  exact (h.issueDrive _).trans h5

theorem enterStopping (s : State) : g (enterStopping s) = g s := by
  unfold Machine.enterStopping
  extract_lets s1
  have h1 : g s1 = g s := h.enterLine _ _
  split
  · exact (h.enterLine _ _).trans h1
  · exact h1

theorem reform (s : State) : g (reform s) = g s := by
  unfold Machine.reform
  extract_lets d _ s1
  have h1 : g s1 = g s := h.ls _ _
  split
  · exact (h.enterStopping _).trans h1
  · exact (h.enterLine _ _).trans h1
  · split
    · exact (h.issueDrive _).trans h1
    · exact h1

theorem raiseCore (f : Raise) (s : State) : g (raiseCore f s) = g s := (h.reform _).trans (h.listFault _ _)

theorem goneCore (src : Source) (code : FaultCode) (s : State) : g (goneCore src code s) = g s :=
  (h.reform _).trans (h.dropFault _ _ _)

end LineBlind

theorem blind_straps : LineBlind State.straps := by constructor <;> intros <;> rfl
theorem blind_resetHeld : LineBlind State.resetHeld := by constructor <;> intros <;> rfl
theorem blind_now : LineBlind State.now := by constructor <;> intros <;> rfl
theorem blind_freeCount : LineBlind State.freeCount := by constructor <;> intros <;> rfl
theorem blind_ra : LineBlind State.ra := by constructor <;> intros <;> rfl
theorem blind_cm : LineBlind State.cm := by constructor <;> intros <;> rfl
theorem blind_ct : LineBlind State.ct := by constructor <;> intros <;> rfl
theorem blind_cs : LineBlind State.cs := by constructor <;> intros <;> rfl
theorem blind_cl : LineBlind State.cl := by constructor <;> intros <;> rfl
theorem blind_pending : LineBlind State.pending := by constructor <;> intros <;> rfl
theorem blind_lr_relay : LineBlind (fun s => s.lr.relay) := by constructor <;> intros <;> rfl
theorem blind_lr_requests : LineBlind (fun s => s.lr.requests) := by constructor <;> intros <;> rfl
theorem blind_lr_door : LineBlind (fun s => s.lr.door) := by constructor <;> intros <;> rfl
theorem blind_lr_voice : LineBlind (fun s => s.lr.voice) := by constructor <;> intros <;> rfl
theorem blind_lr_report : LineBlind (fun s => s.lr.report) := by constructor <;> intros <;> rfl
theorem blind_lr_outstanding : LineBlind (fun s => s.lr.outstanding) := by constructor <;> intros <;> rfl
theorem blind_lr_insertion : LineBlind (fun s => s.lr.insertion) := by constructor <;> intros <;> rfl
theorem blind_lr_loop : LineBlind (fun s => s.lr.loop) := by constructor <;> intros <;> rfl
theorem blind_lr_out : LineBlind (fun s => s.lr.out) := by constructor <;> intros <;> rfl
theorem blind_sl_link : LineBlind (fun s => s.sl.link) := by constructor <;> intros <;> rfl
theorem blind_sl_turnTimer : LineBlind (fun s => s.sl.turnTimer) := by constructor <;> intros <;> rfl
theorem blind_sl_turnNumber : LineBlind (fun s => s.sl.turnNumber) := by constructor <;> intros <;> rfl
theorem blind_sl_firstTurn : LineBlind (fun s => s.sl.firstTurn) := by constructor <;> intros <;> rfl
theorem blind_sl_missed : LineBlind (fun s => s.sl.missed) := by constructor <;> intros <;> rfl
theorem blind_sl_lostUntil : LineBlind (fun s => s.sl.lostUntil) := by constructor <;> intros <;> rfl
theorem blind_sl_attnTimer : LineBlind (fun s => s.sl.attnTimer) := by constructor <;> intros <;> rfl
theorem blind_sl_attnWaiting : LineBlind (fun s => s.sl.attnWaiting) := by constructor <;> intros <;> rfl
theorem blind_sl_restartFlag : LineBlind (fun s => s.sl.restartFlag) := by constructor <;> intros <;> rfl
theorem blind_sl_detector : LineBlind (fun s => s.sl.detector) := by constructor <;> intros <;> rfl
theorem blind_sl_tx : LineBlind (fun s => s.sl.tx) := by constructor <;> intros <;> rfl
theorem blind_sl_turn : LineBlind (fun s => s.sl.turn) := by constructor <;> intros <;> rfl
theorem blind_sl_summitWord : LineBlind (fun s => s.sl.summitWord) := by constructor <;> intros <;> rfl
theorem blind_sl_summitHeld : LineBlind (fun s => s.sl.summitHeld) := by constructor <;> intros <;> rfl
theorem blind_sl_summitBreak : LineBlind (fun s => s.sl.summitBreak) := by constructor <;> intros <;> rfl
theorem blind_sl_lastChar : LineBlind (fun s => s.sl.lastChar) := by constructor <;> intros <;> rfl
theorem blind_sl_idleFrom : LineBlind (fun s => s.sl.idleFrom) := by constructor <;> intros <;> rfl
theorem blind_sl_txQueue : LineBlind (fun s => s.sl.txQueue) := by constructor <;> intros <;> rfl
theorem blind_sl_nextSend : LineBlind (fun s => s.sl.nextSend) := by constructor <;> intros <;> rfl
theorem blind_sl_rxQueue : LineBlind (fun s => s.sl.rxQueue) := by constructor <;> intros <;> rfl
theorem blind_sl_nextExpected : LineBlind (fun s => s.sl.nextExpected) := by constructor <;> intros <;> rfl
theorem blind_sl_holdFlag : LineBlind (fun s => s.sl.holdFlag) := by constructor <;> intros <;> rfl
theorem blind_sl_summitHold : LineBlind (fun s => s.sl.summitHold) := by constructor <;> intros <;> rfl
theorem blind_dr_key : LineBlind (fun s => s.dr.key) := by constructor <;> intros <;> rfl
theorem blind_dr_keyTimer : LineBlind (fun s => s.dr.keyTimer) := by constructor <;> intros <;> rfl
theorem blind_dr_enable : LineBlind (fun s => s.dr.enable) := by constructor <;> intros <;> rfl
theorem blind_dr_capture : LineBlind (fun s => s.dr.capture) := by constructor <;> intros <;> rfl
theorem blind_dr_restartWait : LineBlind (fun s => s.dr.restartWait) := by constructor <;> intros <;> rfl
theorem blind_dr_placeNotice : LineBlind (fun s => s.dr.placeNotice) := by constructor <;> intros <;> rfl
theorem blind_ds_windowTimer : LineBlind (fun s => s.ds.windowTimer) := by constructor <;> intros <;> rfl
theorem blind_ds_capTimer : LineBlind (fun s => s.ds.capTimer) := by constructor <;> intros <;> rfl
theorem blind_ds_warnLast : LineBlind (fun s => s.ds.warnLast) := by constructor <;> intros <;> rfl
theorem blind_ds_waiting : LineBlind (fun s => s.ds.waiting) := by constructor <;> intros <;> rfl
theorem blind_ds_notices : LineBlind (fun s => s.ds.notices) := by constructor <;> intros <;> rfl

@[simp] theorem issueDrive_straps (s : State) : (issueDrive s).straps = s.straps :=
  blind_straps.issueDrive _
@[simp] theorem issueDrive_resetHeld (s : State) : (issueDrive s).resetHeld = s.resetHeld :=
  blind_resetHeld.issueDrive _
@[simp] theorem issueDrive_now (s : State) : (issueDrive s).now = s.now :=
  blind_now.issueDrive _
@[simp] theorem issueDrive_freeCount (s : State) : (issueDrive s).freeCount = s.freeCount :=
  blind_freeCount.issueDrive _
@[simp] theorem issueDrive_ra (s : State) : (issueDrive s).ra = s.ra :=
  blind_ra.issueDrive _
@[simp] theorem issueDrive_cm (s : State) : (issueDrive s).cm = s.cm :=
  blind_cm.issueDrive _
@[simp] theorem issueDrive_ct (s : State) : (issueDrive s).ct = s.ct :=
  blind_ct.issueDrive _
@[simp] theorem issueDrive_cs (s : State) : (issueDrive s).cs = s.cs :=
  blind_cs.issueDrive _
@[simp] theorem issueDrive_cl (s : State) : (issueDrive s).cl = s.cl :=
  blind_cl.issueDrive _
@[simp] theorem issueDrive_pending (s : State) : (issueDrive s).pending = s.pending :=
  blind_pending.issueDrive _

@[simp] theorem enterLine_straps (st : LineState) (s : State) : (enterLine st s).straps = s.straps :=
  blind_straps.enterLine _ _
@[simp] theorem enterLine_resetHeld (st : LineState) (s : State) : (enterLine st s).resetHeld = s.resetHeld :=
  blind_resetHeld.enterLine _ _
@[simp] theorem enterLine_now (st : LineState) (s : State) : (enterLine st s).now = s.now :=
  blind_now.enterLine _ _
@[simp] theorem enterLine_freeCount (st : LineState) (s : State) : (enterLine st s).freeCount = s.freeCount :=
  blind_freeCount.enterLine _ _
@[simp] theorem enterLine_ra (st : LineState) (s : State) : (enterLine st s).ra = s.ra :=
  blind_ra.enterLine _ _
@[simp] theorem enterLine_cm (st : LineState) (s : State) : (enterLine st s).cm = s.cm :=
  blind_cm.enterLine _ _
@[simp] theorem enterLine_ct (st : LineState) (s : State) : (enterLine st s).ct = s.ct :=
  blind_ct.enterLine _ _
@[simp] theorem enterLine_cs (st : LineState) (s : State) : (enterLine st s).cs = s.cs :=
  blind_cs.enterLine _ _
@[simp] theorem enterLine_cl (st : LineState) (s : State) : (enterLine st s).cl = s.cl :=
  blind_cl.enterLine _ _
@[simp] theorem enterLine_pending (st : LineState) (s : State) : (enterLine st s).pending = s.pending :=
  blind_pending.enterLine _ _

@[simp] theorem reform_straps (s : State) : (reform s).straps = s.straps :=
  blind_straps.reform _
@[simp] theorem reform_resetHeld (s : State) : (reform s).resetHeld = s.resetHeld :=
  blind_resetHeld.reform _
@[simp] theorem reform_now (s : State) : (reform s).now = s.now :=
  blind_now.reform _
@[simp] theorem reform_freeCount (s : State) : (reform s).freeCount = s.freeCount :=
  blind_freeCount.reform _
@[simp] theorem reform_ra (s : State) : (reform s).ra = s.ra :=
  blind_ra.reform _
@[simp] theorem reform_cm (s : State) : (reform s).cm = s.cm :=
  blind_cm.reform _
@[simp] theorem reform_ct (s : State) : (reform s).ct = s.ct :=
  blind_ct.reform _
@[simp] theorem reform_cs (s : State) : (reform s).cs = s.cs :=
  blind_cs.reform _
@[simp] theorem reform_cl (s : State) : (reform s).cl = s.cl :=
  blind_cl.reform _
@[simp] theorem reform_pending (s : State) : (reform s).pending = s.pending :=
  blind_pending.reform _

@[simp] theorem raiseCore_straps (f : Raise) (s : State) : (raiseCore f s).straps = s.straps :=
  blind_straps.raiseCore _ _
@[simp] theorem raiseCore_resetHeld (f : Raise) (s : State) : (raiseCore f s).resetHeld = s.resetHeld :=
  blind_resetHeld.raiseCore _ _
@[simp] theorem raiseCore_now (f : Raise) (s : State) : (raiseCore f s).now = s.now :=
  blind_now.raiseCore _ _
@[simp] theorem raiseCore_freeCount (f : Raise) (s : State) : (raiseCore f s).freeCount = s.freeCount :=
  blind_freeCount.raiseCore _ _
@[simp] theorem raiseCore_ra (f : Raise) (s : State) : (raiseCore f s).ra = s.ra :=
  blind_ra.raiseCore _ _
@[simp] theorem raiseCore_cm (f : Raise) (s : State) : (raiseCore f s).cm = s.cm :=
  blind_cm.raiseCore _ _
@[simp] theorem raiseCore_ct (f : Raise) (s : State) : (raiseCore f s).ct = s.ct :=
  blind_ct.raiseCore _ _
@[simp] theorem raiseCore_cs (f : Raise) (s : State) : (raiseCore f s).cs = s.cs :=
  blind_cs.raiseCore _ _
@[simp] theorem raiseCore_cl (f : Raise) (s : State) : (raiseCore f s).cl = s.cl :=
  blind_cl.raiseCore _ _
@[simp] theorem raiseCore_pending (f : Raise) (s : State) : (raiseCore f s).pending = s.pending :=
  blind_pending.raiseCore _ _
@[simp] theorem raiseCore_lr_relay (f : Raise) (s : State) : (raiseCore f s).lr.relay = s.lr.relay :=
  blind_lr_relay.raiseCore _ _
@[simp] theorem raiseCore_lr_requests (f : Raise) (s : State) : (raiseCore f s).lr.requests = s.lr.requests :=
  blind_lr_requests.raiseCore _ _
@[simp] theorem raiseCore_lr_door (f : Raise) (s : State) : (raiseCore f s).lr.door = s.lr.door :=
  blind_lr_door.raiseCore _ _
@[simp] theorem raiseCore_lr_voice (f : Raise) (s : State) : (raiseCore f s).lr.voice = s.lr.voice :=
  blind_lr_voice.raiseCore _ _
@[simp] theorem raiseCore_lr_report (f : Raise) (s : State) : (raiseCore f s).lr.report = s.lr.report :=
  blind_lr_report.raiseCore _ _
@[simp] theorem raiseCore_lr_outstanding (f : Raise) (s : State) : (raiseCore f s).lr.outstanding = s.lr.outstanding :=
  blind_lr_outstanding.raiseCore _ _
@[simp] theorem raiseCore_lr_insertion (f : Raise) (s : State) : (raiseCore f s).lr.insertion = s.lr.insertion :=
  blind_lr_insertion.raiseCore _ _
@[simp] theorem raiseCore_lr_loop (f : Raise) (s : State) : (raiseCore f s).lr.loop = s.lr.loop :=
  blind_lr_loop.raiseCore _ _
@[simp] theorem raiseCore_lr_out (f : Raise) (s : State) : (raiseCore f s).lr.out = s.lr.out :=
  blind_lr_out.raiseCore _ _
@[simp] theorem raiseCore_sl_link (f : Raise) (s : State) : (raiseCore f s).sl.link = s.sl.link :=
  blind_sl_link.raiseCore _ _
@[simp] theorem raiseCore_sl_turnTimer (f : Raise) (s : State) : (raiseCore f s).sl.turnTimer = s.sl.turnTimer :=
  blind_sl_turnTimer.raiseCore _ _
@[simp] theorem raiseCore_sl_turnNumber (f : Raise) (s : State) : (raiseCore f s).sl.turnNumber = s.sl.turnNumber :=
  blind_sl_turnNumber.raiseCore _ _
@[simp] theorem raiseCore_sl_firstTurn (f : Raise) (s : State) : (raiseCore f s).sl.firstTurn = s.sl.firstTurn :=
  blind_sl_firstTurn.raiseCore _ _
@[simp] theorem raiseCore_sl_missed (f : Raise) (s : State) : (raiseCore f s).sl.missed = s.sl.missed :=
  blind_sl_missed.raiseCore _ _
@[simp] theorem raiseCore_sl_lostUntil (f : Raise) (s : State) : (raiseCore f s).sl.lostUntil = s.sl.lostUntil :=
  blind_sl_lostUntil.raiseCore _ _
@[simp] theorem raiseCore_sl_attnTimer (f : Raise) (s : State) : (raiseCore f s).sl.attnTimer = s.sl.attnTimer :=
  blind_sl_attnTimer.raiseCore _ _
@[simp] theorem raiseCore_sl_attnWaiting (f : Raise) (s : State) : (raiseCore f s).sl.attnWaiting = s.sl.attnWaiting :=
  blind_sl_attnWaiting.raiseCore _ _
@[simp] theorem raiseCore_sl_restartFlag (f : Raise) (s : State) : (raiseCore f s).sl.restartFlag = s.sl.restartFlag :=
  blind_sl_restartFlag.raiseCore _ _
@[simp] theorem raiseCore_sl_detector (f : Raise) (s : State) : (raiseCore f s).sl.detector = s.sl.detector :=
  blind_sl_detector.raiseCore _ _
@[simp] theorem raiseCore_sl_tx (f : Raise) (s : State) : (raiseCore f s).sl.tx = s.sl.tx :=
  blind_sl_tx.raiseCore _ _
@[simp] theorem raiseCore_sl_turn (f : Raise) (s : State) : (raiseCore f s).sl.turn = s.sl.turn :=
  blind_sl_turn.raiseCore _ _
@[simp] theorem raiseCore_sl_summitWord (f : Raise) (s : State) : (raiseCore f s).sl.summitWord = s.sl.summitWord :=
  blind_sl_summitWord.raiseCore _ _
@[simp] theorem raiseCore_sl_summitHeld (f : Raise) (s : State) : (raiseCore f s).sl.summitHeld = s.sl.summitHeld :=
  blind_sl_summitHeld.raiseCore _ _
@[simp] theorem raiseCore_sl_summitBreak (f : Raise) (s : State) : (raiseCore f s).sl.summitBreak = s.sl.summitBreak :=
  blind_sl_summitBreak.raiseCore _ _
@[simp] theorem raiseCore_sl_lastChar (f : Raise) (s : State) : (raiseCore f s).sl.lastChar = s.sl.lastChar :=
  blind_sl_lastChar.raiseCore _ _
@[simp] theorem raiseCore_sl_idleFrom (f : Raise) (s : State) : (raiseCore f s).sl.idleFrom = s.sl.idleFrom :=
  blind_sl_idleFrom.raiseCore _ _
@[simp] theorem raiseCore_sl_txQueue (f : Raise) (s : State) : (raiseCore f s).sl.txQueue = s.sl.txQueue :=
  blind_sl_txQueue.raiseCore _ _
@[simp] theorem raiseCore_sl_nextSend (f : Raise) (s : State) : (raiseCore f s).sl.nextSend = s.sl.nextSend :=
  blind_sl_nextSend.raiseCore _ _
@[simp] theorem raiseCore_sl_rxQueue (f : Raise) (s : State) : (raiseCore f s).sl.rxQueue = s.sl.rxQueue :=
  blind_sl_rxQueue.raiseCore _ _
@[simp] theorem raiseCore_sl_nextExpected (f : Raise) (s : State) : (raiseCore f s).sl.nextExpected = s.sl.nextExpected :=
  blind_sl_nextExpected.raiseCore _ _
@[simp] theorem raiseCore_sl_holdFlag (f : Raise) (s : State) : (raiseCore f s).sl.holdFlag = s.sl.holdFlag :=
  blind_sl_holdFlag.raiseCore _ _
@[simp] theorem raiseCore_sl_summitHold (f : Raise) (s : State) : (raiseCore f s).sl.summitHold = s.sl.summitHold :=
  blind_sl_summitHold.raiseCore _ _
@[simp] theorem raiseCore_dr_key (f : Raise) (s : State) : (raiseCore f s).dr.key = s.dr.key :=
  blind_dr_key.raiseCore _ _
@[simp] theorem raiseCore_dr_keyTimer (f : Raise) (s : State) : (raiseCore f s).dr.keyTimer = s.dr.keyTimer :=
  blind_dr_keyTimer.raiseCore _ _
@[simp] theorem raiseCore_dr_enable (f : Raise) (s : State) : (raiseCore f s).dr.enable = s.dr.enable :=
  blind_dr_enable.raiseCore _ _
@[simp] theorem raiseCore_dr_capture (f : Raise) (s : State) : (raiseCore f s).dr.capture = s.dr.capture :=
  blind_dr_capture.raiseCore _ _
@[simp] theorem raiseCore_dr_restartWait (f : Raise) (s : State) : (raiseCore f s).dr.restartWait = s.dr.restartWait :=
  blind_dr_restartWait.raiseCore _ _
@[simp] theorem raiseCore_dr_placeNotice (f : Raise) (s : State) : (raiseCore f s).dr.placeNotice = s.dr.placeNotice :=
  blind_dr_placeNotice.raiseCore _ _
@[simp] theorem raiseCore_ds_windowTimer (f : Raise) (s : State) : (raiseCore f s).ds.windowTimer = s.ds.windowTimer :=
  blind_ds_windowTimer.raiseCore _ _
@[simp] theorem raiseCore_ds_capTimer (f : Raise) (s : State) : (raiseCore f s).ds.capTimer = s.ds.capTimer :=
  blind_ds_capTimer.raiseCore _ _
@[simp] theorem raiseCore_ds_warnLast (f : Raise) (s : State) : (raiseCore f s).ds.warnLast = s.ds.warnLast :=
  blind_ds_warnLast.raiseCore _ _
@[simp] theorem raiseCore_ds_waiting (f : Raise) (s : State) : (raiseCore f s).ds.waiting = s.ds.waiting :=
  blind_ds_waiting.raiseCore _ _
@[simp] theorem raiseCore_ds_notices (f : Raise) (s : State) : (raiseCore f s).ds.notices = s.ds.notices :=
  blind_ds_notices.raiseCore _ _

@[simp] theorem goneCore_straps (src : Source) (code : FaultCode) (s : State) : (goneCore src code s).straps = s.straps :=
  blind_straps.goneCore _ _ _
@[simp] theorem goneCore_resetHeld (src : Source) (code : FaultCode) (s : State) : (goneCore src code s).resetHeld = s.resetHeld :=
  blind_resetHeld.goneCore _ _ _
@[simp] theorem goneCore_now (src : Source) (code : FaultCode) (s : State) : (goneCore src code s).now = s.now :=
  blind_now.goneCore _ _ _
@[simp] theorem goneCore_freeCount (src : Source) (code : FaultCode) (s : State) : (goneCore src code s).freeCount = s.freeCount :=
  blind_freeCount.goneCore _ _ _
@[simp] theorem goneCore_ra (src : Source) (code : FaultCode) (s : State) : (goneCore src code s).ra = s.ra :=
  blind_ra.goneCore _ _ _
@[simp] theorem goneCore_cm (src : Source) (code : FaultCode) (s : State) : (goneCore src code s).cm = s.cm :=
  blind_cm.goneCore _ _ _
@[simp] theorem goneCore_ct (src : Source) (code : FaultCode) (s : State) : (goneCore src code s).ct = s.ct :=
  blind_ct.goneCore _ _ _
@[simp] theorem goneCore_cs (src : Source) (code : FaultCode) (s : State) : (goneCore src code s).cs = s.cs :=
  blind_cs.goneCore _ _ _
@[simp] theorem goneCore_cl (src : Source) (code : FaultCode) (s : State) : (goneCore src code s).cl = s.cl :=
  blind_cl.goneCore _ _ _
@[simp] theorem goneCore_pending (src : Source) (code : FaultCode) (s : State) : (goneCore src code s).pending = s.pending :=
  blind_pending.goneCore _ _ _
@[simp] theorem goneCore_lr_relay (src : Source) (code : FaultCode) (s : State) : (goneCore src code s).lr.relay = s.lr.relay :=
  blind_lr_relay.goneCore _ _ _
@[simp] theorem goneCore_lr_requests (src : Source) (code : FaultCode) (s : State) : (goneCore src code s).lr.requests = s.lr.requests :=
  blind_lr_requests.goneCore _ _ _
@[simp] theorem goneCore_lr_door (src : Source) (code : FaultCode) (s : State) : (goneCore src code s).lr.door = s.lr.door :=
  blind_lr_door.goneCore _ _ _
@[simp] theorem goneCore_lr_voice (src : Source) (code : FaultCode) (s : State) : (goneCore src code s).lr.voice = s.lr.voice :=
  blind_lr_voice.goneCore _ _ _
@[simp] theorem goneCore_lr_report (src : Source) (code : FaultCode) (s : State) : (goneCore src code s).lr.report = s.lr.report :=
  blind_lr_report.goneCore _ _ _
@[simp] theorem goneCore_lr_outstanding (src : Source) (code : FaultCode) (s : State) : (goneCore src code s).lr.outstanding = s.lr.outstanding :=
  blind_lr_outstanding.goneCore _ _ _
@[simp] theorem goneCore_lr_insertion (src : Source) (code : FaultCode) (s : State) : (goneCore src code s).lr.insertion = s.lr.insertion :=
  blind_lr_insertion.goneCore _ _ _
@[simp] theorem goneCore_lr_loop (src : Source) (code : FaultCode) (s : State) : (goneCore src code s).lr.loop = s.lr.loop :=
  blind_lr_loop.goneCore _ _ _
@[simp] theorem goneCore_lr_out (src : Source) (code : FaultCode) (s : State) : (goneCore src code s).lr.out = s.lr.out :=
  blind_lr_out.goneCore _ _ _
@[simp] theorem goneCore_sl_link (src : Source) (code : FaultCode) (s : State) : (goneCore src code s).sl.link = s.sl.link :=
  blind_sl_link.goneCore _ _ _
@[simp] theorem goneCore_sl_turnTimer (src : Source) (code : FaultCode) (s : State) : (goneCore src code s).sl.turnTimer = s.sl.turnTimer :=
  blind_sl_turnTimer.goneCore _ _ _
@[simp] theorem goneCore_sl_turnNumber (src : Source) (code : FaultCode) (s : State) : (goneCore src code s).sl.turnNumber = s.sl.turnNumber :=
  blind_sl_turnNumber.goneCore _ _ _
@[simp] theorem goneCore_sl_firstTurn (src : Source) (code : FaultCode) (s : State) : (goneCore src code s).sl.firstTurn = s.sl.firstTurn :=
  blind_sl_firstTurn.goneCore _ _ _
@[simp] theorem goneCore_sl_missed (src : Source) (code : FaultCode) (s : State) : (goneCore src code s).sl.missed = s.sl.missed :=
  blind_sl_missed.goneCore _ _ _
@[simp] theorem goneCore_sl_lostUntil (src : Source) (code : FaultCode) (s : State) : (goneCore src code s).sl.lostUntil = s.sl.lostUntil :=
  blind_sl_lostUntil.goneCore _ _ _
@[simp] theorem goneCore_sl_attnTimer (src : Source) (code : FaultCode) (s : State) : (goneCore src code s).sl.attnTimer = s.sl.attnTimer :=
  blind_sl_attnTimer.goneCore _ _ _
@[simp] theorem goneCore_sl_attnWaiting (src : Source) (code : FaultCode) (s : State) : (goneCore src code s).sl.attnWaiting = s.sl.attnWaiting :=
  blind_sl_attnWaiting.goneCore _ _ _
@[simp] theorem goneCore_sl_restartFlag (src : Source) (code : FaultCode) (s : State) : (goneCore src code s).sl.restartFlag = s.sl.restartFlag :=
  blind_sl_restartFlag.goneCore _ _ _
@[simp] theorem goneCore_sl_detector (src : Source) (code : FaultCode) (s : State) : (goneCore src code s).sl.detector = s.sl.detector :=
  blind_sl_detector.goneCore _ _ _
@[simp] theorem goneCore_sl_tx (src : Source) (code : FaultCode) (s : State) : (goneCore src code s).sl.tx = s.sl.tx :=
  blind_sl_tx.goneCore _ _ _
@[simp] theorem goneCore_sl_turn (src : Source) (code : FaultCode) (s : State) : (goneCore src code s).sl.turn = s.sl.turn :=
  blind_sl_turn.goneCore _ _ _
@[simp] theorem goneCore_sl_summitWord (src : Source) (code : FaultCode) (s : State) : (goneCore src code s).sl.summitWord = s.sl.summitWord :=
  blind_sl_summitWord.goneCore _ _ _
@[simp] theorem goneCore_sl_summitHeld (src : Source) (code : FaultCode) (s : State) : (goneCore src code s).sl.summitHeld = s.sl.summitHeld :=
  blind_sl_summitHeld.goneCore _ _ _
@[simp] theorem goneCore_sl_summitBreak (src : Source) (code : FaultCode) (s : State) : (goneCore src code s).sl.summitBreak = s.sl.summitBreak :=
  blind_sl_summitBreak.goneCore _ _ _
@[simp] theorem goneCore_sl_lastChar (src : Source) (code : FaultCode) (s : State) : (goneCore src code s).sl.lastChar = s.sl.lastChar :=
  blind_sl_lastChar.goneCore _ _ _
@[simp] theorem goneCore_sl_idleFrom (src : Source) (code : FaultCode) (s : State) : (goneCore src code s).sl.idleFrom = s.sl.idleFrom :=
  blind_sl_idleFrom.goneCore _ _ _
@[simp] theorem goneCore_sl_txQueue (src : Source) (code : FaultCode) (s : State) : (goneCore src code s).sl.txQueue = s.sl.txQueue :=
  blind_sl_txQueue.goneCore _ _ _
@[simp] theorem goneCore_sl_nextSend (src : Source) (code : FaultCode) (s : State) : (goneCore src code s).sl.nextSend = s.sl.nextSend :=
  blind_sl_nextSend.goneCore _ _ _
@[simp] theorem goneCore_sl_rxQueue (src : Source) (code : FaultCode) (s : State) : (goneCore src code s).sl.rxQueue = s.sl.rxQueue :=
  blind_sl_rxQueue.goneCore _ _ _
@[simp] theorem goneCore_sl_nextExpected (src : Source) (code : FaultCode) (s : State) : (goneCore src code s).sl.nextExpected = s.sl.nextExpected :=
  blind_sl_nextExpected.goneCore _ _ _
@[simp] theorem goneCore_sl_holdFlag (src : Source) (code : FaultCode) (s : State) : (goneCore src code s).sl.holdFlag = s.sl.holdFlag :=
  blind_sl_holdFlag.goneCore _ _ _
@[simp] theorem goneCore_sl_summitHold (src : Source) (code : FaultCode) (s : State) : (goneCore src code s).sl.summitHold = s.sl.summitHold :=
  blind_sl_summitHold.goneCore _ _ _
@[simp] theorem goneCore_dr_key (src : Source) (code : FaultCode) (s : State) : (goneCore src code s).dr.key = s.dr.key :=
  blind_dr_key.goneCore _ _ _
@[simp] theorem goneCore_dr_keyTimer (src : Source) (code : FaultCode) (s : State) : (goneCore src code s).dr.keyTimer = s.dr.keyTimer :=
  blind_dr_keyTimer.goneCore _ _ _
@[simp] theorem goneCore_dr_enable (src : Source) (code : FaultCode) (s : State) : (goneCore src code s).dr.enable = s.dr.enable :=
  blind_dr_enable.goneCore _ _ _
@[simp] theorem goneCore_dr_capture (src : Source) (code : FaultCode) (s : State) : (goneCore src code s).dr.capture = s.dr.capture :=
  blind_dr_capture.goneCore _ _ _
@[simp] theorem goneCore_dr_restartWait (src : Source) (code : FaultCode) (s : State) : (goneCore src code s).dr.restartWait = s.dr.restartWait :=
  blind_dr_restartWait.goneCore _ _ _
@[simp] theorem goneCore_dr_placeNotice (src : Source) (code : FaultCode) (s : State) : (goneCore src code s).dr.placeNotice = s.dr.placeNotice :=
  blind_dr_placeNotice.goneCore _ _ _
@[simp] theorem goneCore_ds_windowTimer (src : Source) (code : FaultCode) (s : State) : (goneCore src code s).ds.windowTimer = s.ds.windowTimer :=
  blind_ds_windowTimer.goneCore _ _ _
@[simp] theorem goneCore_ds_capTimer (src : Source) (code : FaultCode) (s : State) : (goneCore src code s).ds.capTimer = s.ds.capTimer :=
  blind_ds_capTimer.goneCore _ _ _
@[simp] theorem goneCore_ds_warnLast (src : Source) (code : FaultCode) (s : State) : (goneCore src code s).ds.warnLast = s.ds.warnLast :=
  blind_ds_warnLast.goneCore _ _ _
@[simp] theorem goneCore_ds_waiting (src : Source) (code : FaultCode) (s : State) : (goneCore src code s).ds.waiting = s.ds.waiting :=
  blind_ds_waiting.goneCore _ _ _
@[simp] theorem goneCore_ds_notices (src : Source) (code : FaultCode) (s : State) : (goneCore src code s).ds.notices = s.ds.notices :=
  blind_ds_notices.goneCore _ _ _

end Sys2Proof.Machine
end

