-- ==== Sys2Proof/Laws/LineSpec.lean ====
section
/-! SUPPORT. What LS's operations leave in LS: the effective demand as formed from its inputs, the line state it calls for,
the fault list, and the drive request record. -/

namespace Sys2Proof.Machine

/-! ## Severity -/

@[simp] theorem Demand.code_max (a b : Demand) : (a.max b).code = a.code ⊔ b.code := by
  unfold Demand.max
  split
  · exact (max_eq_left ‹_›).symm
  · exact (max_eq_right (by omega)).symm

theorem Demand.code_injective {a b : Demand} (h : a.code = b.code) : a = b := by
  cases a <;> cases b <;> simp_all [Demand.code]

theorem Demand.max_eq (a b : Demand) : a.max b = a ∨ a.max b = b := by
  unfold Demand.max
  split
  · exact .inl rfl
  · exact .inr rfl

theorem FaultClass.demand_eq_trip {c : FaultClass} : c.demand = .trip ↔ c = .trip := by cases c <;> simp [demand]

/-! ## The effective demand -/

/-- R54: the fold of `demandWith` is the most severe of the start and the imposing entries' levels. -/
theorem foldl_demand (p : FaultEntry → Bool) (l : List FaultEntry) (d : Demand) :
    (l.foldl (fun d e => if p e then d.max e.cls.demand else d) d = d
        ∨ ∃ e ∈ l, p e = true ∧ l.foldl (fun d e => if p e then d.max e.cls.demand else d) d = e.cls.demand)
      ∧ d.code ≤ (l.foldl (fun d e => if p e then d.max e.cls.demand else d) d).code
      ∧ ∀ e ∈ l, p e = true →
          e.cls.demand.code ≤ (l.foldl (fun d e => if p e then d.max e.cls.demand else d) d).code := by
  induction l generalizing d with
  | nil => simp
  | cons e es ih =>
    simp only [List.foldl_cons]
    by_cases hp : p e = true
    · rw [if_pos hp]
      obtain ⟨h1, h2, h3⟩ := ih (d.max e.cls.demand)
      rw [Demand.code_max] at h2
      refine ⟨?_, (le_max_left _ _).trans h2, ?_⟩
      · rcases h1 with h1 | ⟨f, hf, hpf, h1⟩
        · rcases Demand.max_eq d e.cls.demand with hm | hm
          · exact .inl (h1.trans hm)
          · exact .inr ⟨e, by simp, hp, h1.trans hm⟩
        · exact .inr ⟨f, by simp [hf], hpf, h1⟩
      · intro f hf hpf
        rcases List.mem_cons.1 hf with rfl | hf
        · exact (le_max_right _ _).trans h2
        · exact h3 f hf hpf
    · rw [if_neg hp]
      obtain ⟨h1, h2, h3⟩ := ih d
      refine ⟨?_, h2, ?_⟩
      · rcases h1 with h1 | ⟨f, hf, hpf, h1⟩
        · exact .inl h1
        · exact .inr ⟨f, by simp [hf], hpf, h1⟩
      · intro f hf hpf
        rcases List.mem_cons.1 hf with rfl | hf
        · exact absurd hpf hp
        · exact h3 f hf hpf

/-- R54: what the effective demand is, were the desk demand `desk`. -/
theorem demandWith_spec (desk : Demand) (s : State) :
    (demandWith desk s = desk ∨ demandWith desk s = s.ls.overflow
        ∨ ∃ e ∈ s.ls.faults, imposes s e = true ∧ demandWith desk s = e.cls.demand)
      ∧ desk.code ≤ (demandWith desk s).code ∧ s.ls.overflow.code ≤ (demandWith desk s).code
      ∧ ∀ e ∈ s.ls.faults, imposes s e = true → e.cls.demand.code ≤ (demandWith desk s).code := by
  obtain ⟨h1, h2, h3⟩ := foldl_demand (imposes s) s.ls.faults (desk.max s.ls.overflow)
  rw [Demand.code_max] at h2
  refine ⟨?_, (le_max_left _ _).trans h2, (le_max_right _ _).trans h2, h3⟩
  rcases h1 with h1 | h1
  · rcases Demand.max_eq desk s.ls.overflow with hm | hm
    · exact .inl (h1.trans hm)
    · exact .inr (.inl (h1.trans hm))
  · exact .inr (.inr h1)

/-- The effective demand depends on its inputs alone. -/
theorem demandNow_congr {s t : State} (h1 : t.ls.deskDemand = s.ls.deskDemand) (h2 : t.ls.overflow = s.ls.overflow)
    (h3 : t.ls.faults = s.ls.faults) (h4 : t.cm = s.cm) : t.demandNow = s.demandNow := by
  have hi : imposes t = imposes s := by
    funext e
    simp only [imposes, State.bypassed, State.chan, h4]
  simp only [State.demandNow, demandWith, h1, h2, h3, hi]

/-- The content of a drive request depends on the line state, the effective demand and the setpoints. -/
theorem driveContent_congr {s t : State} (h1 : t.ls.line = s.ls.line) (h2 : t.ls.effDemand = s.ls.effDemand)
    (h3 : t.ls.params = s.ls.params) : driveContent t = driveContent s := by
  simp only [driveContent, State.params, h1, h2, h3]

/-! ## LS after each operation -/

theorem sendDrive_ls (s : State) : (sendDrive s).ls = { s.ls with refreshAt := s.now + Config.refreshTime } := by
  unfold sendDrive
  dsimp only
  split_ifs <;> rfl

theorem issueDrive_ls (s : State) :
    (issueDrive s).ls = { s.ls with drive := driveContent s, refreshAt := s.now + Config.refreshTime } := by
  rw [issueDrive, sendDrive_ls]

theorem dropFault_ls (src : Source) (code : FaultCode) (s : State) :
    (dropFault src code s).ls = { s.ls with faults := (listGone src code s.ls.faults).1 } := by
  unfold dropFault
  split
  rename_i l left h
  extract_lets _ s1
  split
  · rw [setFlag_ls]
    simp [s1, h]
  · simp [s1, h]

/-- R55: whether an entry into a state ends the line's run, and sets the desk demand to STOP. -/
def LineState.ends (st : LineState) : Bool := st == .stopping || st == .tripped

/-- R55, R60, R64: LS on the line's entry into a state. -/
theorem enterLine_spec (st : LineState) (s : State) :
    (enterLine st s).ls.line = st
      ∧ (enterLine st s).ls.deskDemand = (if st.ends then .stop else s.ls.deskDemand)
      ∧ (enterLine st s).ls.overflow = s.ls.overflow
      ∧ (enterLine st s).ls.faults = (if st.ends then (listGone .line .autoSlow s.ls.faults).1 else s.ls.faults)
      ∧ (enterLine st s).ls.params = s.ls.params
      ∧ (enterLine st s).ls.effDemand = (enterLine st s).demandNow
      ∧ (enterLine st s).ls.drive = driveContent (enterLine st s)
      ∧ (enterLine st s).ls.commissioned = s.ls.commissioned
      ∧ (enterLine st s).ls.nextFault = s.ls.nextFault
      ∧ (enterLine st s).ls.startTimer = (if st = .starting then some s.now else none)
      ∧ (enterLine st s).ls.stopTimer = (if st = .stopping then some s.now else none)
      ∧ (enterLine st s).ls.refreshAt = s.now + Config.refreshTime := by
  have hcm : (enterLine st s).cm = s.cm := enterLine_cm st s
  revert hcm
  unfold enterLine
  extract_lets ending auto _ s1 s2 _ s3 s4 _ s5
  intro hcm
  have hend : (st.ends = true) ↔ ending := by simp [LineState.ends, ending]
  have h1 : s1.ls = { s.ls with
      line := st
      startTimer := if st = .starting then some s.now else none
      stopTimer := if st = .stopping then some s.now else none
      deskDemand := if st.ends then .stop else s.ls.deskDemand
      autoSlow := auto } := by
    simp only [s1, setFlag_ls, hend]
    rfl
  have h2 : s2.ls = { s1.ls with faults := if st.ends then (listGone .line .autoSlow s.ls.faults).1 else s.ls.faults } := by
    unfold s2
    by_cases h : ending
    · rw [if_pos h, if_pos (hend.2 h), dropFault_ls, h1]
    · rw [if_neg h, if_neg (fun x => h (hend.1 x)), h1]
  have h5 : s5.ls = { s2.ls with effDemand := s2.demandNow } := by
    have h4 : s4.ls = s3.ls := by
      unfold s4
      split <;> rfl
    have : s5.ls = s4.ls := by
      unfold s5
      split <;> rfl
    rw [this, h4]
  have hnow : s5.now = s.now := by
    have h2n : s2.now = s.now := by
      unfold s2
      split
      · rw [blind_now.dropFault]
        simp [s1]
      · simp [s1]
    have h4n : s4.now = s.now := by
      unfold s4
      split
      · exact h2n
      · exact h2n
    unfold s5
    split
    · exact h4n
    · exact h4n
  have h2cm : s2.cm = s.cm := by
    unfold s2
    split
    · rw [blind_cm.dropFault]
      simp [s1]
    · simp [s1]
  have hd : (issueDrive s5).demandNow = s2.demandNow := by
    apply demandNow_congr
    · rw [issueDrive_ls, h5]
    · rw [issueDrive_ls, h5]
    · rw [issueDrive_ls, h5]
    · rw [hcm, h2cm]
  have hc : driveContent (issueDrive s5) = driveContent s5 := by
    apply driveContent_congr <;> rw [issueDrive_ls]
  refine ⟨?_, ?_, ?_, ?_, ?_, ?_, ?_, ?_, ?_, ?_, ?_, ?_⟩
  · rw [issueDrive_ls, h5, h2, h1]
  · rw [issueDrive_ls, h5, h2, h1]
  · rw [issueDrive_ls, h5, h2, h1]
  · rw [issueDrive_ls, h5, h2]
  · rw [issueDrive_ls, h5, h2, h1]
  · rw [hd, issueDrive_ls, h5]
  · rw [hc, issueDrive_ls]
  · rw [issueDrive_ls, h5, h2, h1]
  · rw [issueDrive_ls, h5, h2, h1]
  · rw [issueDrive_ls, h5, h2, h1]
  · rw [issueDrive_ls, h5, h2, h1]
  · rw [issueDrive_ls, hnow]

@[simp] theorem enterLine_line (st : LineState) (s : State) : (enterLine st s).ls.line = st := (enterLine_spec st s).1

@[simp] theorem enterLine_params (st : LineState) (s : State) : (enterLine st s).ls.params = s.ls.params :=
  (enterLine_spec st s).2.2.2.2.1

@[simp] theorem enterLine_overflow (st : LineState) (s : State) : (enterLine st s).ls.overflow = s.ls.overflow :=
  (enterLine_spec st s).2.2.1

@[simp] theorem enterLine_commissioned (st : LineState) (s : State) :
    (enterLine st s).ls.commissioned = s.ls.commissioned := (enterLine_spec st s).2.2.2.2.2.2.2.1

/-- R54, R62: LS after the line's entry into a state has its demand and its drive request record formed. -/
theorem enterLine_formed (st : LineState) (s : State) :
    (enterLine st s).ls.effDemand = (enterLine st s).demandNow
      ∧ (enterLine st s).ls.drive = driveContent (enterLine st s) :=
  ⟨(enterLine_spec st s).2.2.2.2.2.1, (enterLine_spec st s).2.2.2.2.2.2.1⟩

/-- R59: entering STOPPING ends in STOPPING, or in STOPPED when the at-rest test holds. -/
theorem enterStopping_line (s : State) :
    (enterStopping s).ls.line = if s.atRest then .stopped else .stopping := by
  unfold enterStopping
  have h : (enterLine .stopping s).atRest = s.atRest := by
    unfold State.atRest State.params
    rw [enterLine_ra, enterLine_params]
  simp only [h]
  split <;> simp

/-- R51: the list after a fault is gone is the list or shorter. -/
theorem length_listGone (src : Source) (code : FaultCode) (l : List FaultEntry) :
    (listGone src code l).1.length ≤ l.length := by
  unfold listGone
  extract_lets hit
  split
  · exact List.length_filter_le _ _
  · simp

/-- R51: a listed fault that is gone, or left. -/
theorem mem_listGone {src : Source} {code : FaultCode} {l : List FaultEntry} {e : FaultEntry}
    (h : e ∈ (listGone src code l).1) :
    e ∈ l ∨ ∃ f ∈ l, f.source = src ∧ f.code = code ∧ f.latched = true ∧ e = { f with present := false } := by
  unfold listGone at h
  extract_lets hit at h
  split at h
  · exact .inl (List.mem_filter.1 h).1
  · rename_i hn
    obtain ⟨f, hf, rfl⟩ := List.mem_map.1 h
    by_cases hh : hit f = true
    · rw [if_pos hh]
      have hl : f.latched = true := by
        by_contra hl
        exact hn (List.any_eq_true.2 ⟨f, hf, by simp [hh, hl]⟩)
      simp only [hit, decide_eq_true_eq] at hh
      exact .inr ⟨f, hf, hh.1, hh.2, hl, rfl⟩
    · rw [if_neg hh]
      exact .inl hf

end Sys2Proof.Machine
end

