-- ==== Sys2Proof/Laws/LineOnly.lean ====
section
/-! SUPPORT. What a fault event at LS can change, with the line state change that follows it: `LineOnly` for LS's
operations, and, in a settled state, for the raising and the report of a fault with all that follows. -/

namespace Sys2Proof.Safety

open Sys2Proof.Machine

/-! ## `LineOnly` composes -/

theorem LineOnly.refl (s : State) : LineOnly s s where
  others := fun b _ => by cases b <;> rfl
  params := rfl
  commissioned := rfl
  ct := rfl
  ds := rfl
  entries := fun _ => rfl
  doors := fun _ => rfl
  sl := rfl
  lr := rfl
  safety := id
  dr := rfl
  flags := fun _ h => h

theorem Block.same_trans {b : Block} {s t u : State} (h : b.same s t) (g : b.same t u) : b.same s u := by
  cases b <;> exact Eq.trans g h

theorem LineOnly.trans {s t u : State} (h : LineOnly s t) (g : LineOnly t u) : LineOnly s u where
  others := fun b hb => Block.same_trans (h.others b hb) (g.others b hb)
  params := g.params.trans h.params
  commissioned := g.commissioned.trans h.commissioned
  ct := by rw [g.ct, h.ct]
  ds := by rw [g.ds, h.ds]
  entries := fun j => (g.entries j).trans (h.entries j)
  doors := fun j => by rw [g.doors j, h.doors j]
  sl := by rw [g.sl, h.sl]
  lr := by rw [g.lr, h.lr]
  safety := g.safety ∘ h.safety
  dr := by rw [g.dr, h.dr]
  flags := fun f hf => g.flags f (h.flags f hf)

theorem Settled.after {s t : State} (h : Settled s) (g : LineOnly s t) : Settled t where
  deferred := by
    have : t.cm = s.cm := g.others .cm (by decide)
    rw [this, h.deferred]
  waiting := by rw [g.ct]; exact h.waiting
  launched := by rw [g.ct]; exact h.launched
  room := by rw [g.sl]; exact h.room

/-! ## Changes of one place -/

/-- A change of LS that leaves its parameters and its commissioned mark. -/
theorem LineOnly.of_ls {s : State} {x : LineSup} (hp : x.params = s.ls.params) (hc : x.commissioned = s.ls.commissioned) :
    LineOnly s { s with ls := x } where
  others := fun b hb => by cases b <;> first | rfl | simp at hb
  params := hp
  commissioned := hc
  ct := rfl
  ds := rfl
  entries := fun _ => rfl
  doors := fun _ => rfl
  sl := rfl
  lr := rfl
  safety := id
  dr := rfl
  flags := fun _ h => h

end Sys2Proof.Safety

namespace Sys2Proof.Machine

open Sys2Proof.Safety

theorem setFlag_lineOnly (f : Flag) (s : State) : LineOnly s (setFlag f s) where
  others := fun b hb => by
    unfold setFlag
    split
    · cases b <;> rfl
    · cases b <;> first | rfl | simp at hb
  params := by rw [setFlag_ls]
  commissioned := by rw [setFlag_ls]
  ct := by rw [setFlag_ct]
  ds := by rw [setFlag_ds]
  entries := fun j => by simp only [State.berth, setFlag_ds]
  doors := fun j => by simp only [State.door, State.berth, setFlag_ds]
  sl := by rw [setFlag_sl]
  lr := by rw [setFlag_lr]
  safety := by rw [setFlag_lr]; exact id
  dr := by
    unfold setFlag
    split <;> rfl
  flags := fun g hg => flag_setFlag_mono hg

/-- R170: a DRIVE_REQ or LAUNCH_REL frame that is offered keeps one of each. -/
theorem offerSafety_each {f : QFrame} (hf : f.kind = .driveReq ∨ f.kind = .launchRel) {s : State}
    (h : AtMostOneEach s.lr.safety) : AtMostOneEach (offerSafety f s).lr.safety := by
  obtain ⟨h1, h2⟩ := h
  unfold offerSafety
  extract_lets q q'
  show AtMostOneEach q'
  unfold q'
  split
  · have hm : (q.map fun g => if g.kind = f.kind then f else g).map (·.kind) = q.map (·.kind) := by
      rw [List.map_map]
      refine List.map_congr_left fun g _ => ?_
      simp only [Function.comp]
      split
      · rename_i hg
        exact hg.symm
      · rfl
    refine ⟨by rw [hm]; exact h1, fun g hg => ?_⟩
    have : g.kind ∈ q.map (·.kind) := hm ▸ List.mem_map_of_mem hg
    obtain ⟨x, hx, hk⟩ := List.mem_map.1 this
    exact hk ▸ h2 x hx
  · rename_i hn
    simp only [List.any_eq_true, decide_eq_true_eq, not_exists, not_and] at hn
    refine ⟨?_, fun g hg => ?_⟩
    · rw [List.map_append, List.nodup_append]
      refine ⟨h1, by simp, ?_⟩
      intro a ha b hb hab
      obtain ⟨x, hx, rfl⟩ := List.mem_map.1 ha
      simp only [List.map_cons, List.map_nil, List.mem_singleton] at hb
      exact hn x hx (hab.trans hb)
    · rcases List.mem_append.1 hg with hg | hg
      · exact h2 g hg
      · exact List.mem_singleton.1 hg ▸ hf

theorem offerSafety_lineOnly {f : QFrame} (hf : f.kind = .driveReq ∨ f.kind = .launchRel) (s : State) :
    LineOnly s (offerSafety f s) where
  others := fun b hb => by cases b <;> first | rfl | simp at hb
  params := rfl
  commissioned := rfl
  ct := rfl
  ds := rfl
  entries := fun _ => rfl
  doors := fun _ => rfl
  sl := rfl
  lr := rfl
  safety := offerSafety_each hf
  dr := rfl
  flags := fun _ h => h

theorem sendDrive_lineOnly (s : State) : LineOnly s (sendDrive s) := by
  unfold sendDrive
  extract_lets _ s1
  have h1 : LineOnly s s1 := .of_ls rfl rfl
  split
  · exact h1
  · exact h1.trans (offerSafety_lineOnly (.inl rfl) _)

theorem issueDrive_lineOnly (s : State) : LineOnly s (issueDrive s) := by
  refine .trans ?_ (sendDrive_lineOnly _)
  exact .of_ls rfl rfl

theorem dropFault_lineOnly (src : Source) (code : FaultCode) (s : State) : LineOnly s (dropFault src code s) := by
  unfold dropFault
  split
  rename_i l left _
  extract_lets _ s1
  have h1 : LineOnly s s1 := .of_ls rfl rfl
  split
  · exact h1.trans (setFlag_lineOnly _ _)
  · exact h1

theorem cancelOpens_lineOnly (s : State) : LineOnly s (cancelOpens s) where
  others := fun b hb => by cases b <;> first | rfl | simp at hb
  params := rfl
  commissioned := rfl
  ct := rfl
  ds := rfl
  entries := fun j => by
    simp only [State.berth, cancelOpens, Vector.getElem?_map]
    cases s.ds.berths[j - 1]? <;> rfl
  doors := fun j => by
    simp only [State.door, State.berth, cancelOpens, Vector.getElem?_map]
    cases s.ds.berths[j - 1]? <;> rfl
  sl := rfl
  lr := rfl
  safety := id
  dr := rfl
  flags := fun _ h => h

theorem breakPending_lineOnly (x : Bool) (s : State) : LineOnly s { s with sl := { s.sl with breakPending := x } } where
  others := fun b hb => by cases b <;> first | rfl | simp at hb
  params := rfl
  commissioned := rfl
  ct := rfl
  ds := rfl
  entries := fun _ => rfl
  doors := fun _ => rfl
  sl := rfl
  lr := rfl
  safety := id
  dr := rfl
  flags := fun _ h => h

/-! ## LS's operations -/

theorem enterLine_lineOnly (st : LineState) (s : State) : LineOnly s (enterLine st s) := by
  unfold enterLine
  extract_lets ending auto _ s1 s2 _ s3 s4 _ s5
  have h1 : LineOnly s s1 := by
    refine .trans ?_ (setFlag_lineOnly _ _)
    exact .of_ls rfl rfl
  have h2 : LineOnly s s2 := by
    unfold s2
    split
    · exact h1.trans (dropFault_lineOnly _ _ _)
    · exact h1
  have h3 : LineOnly s s3 := h2.trans (.of_ls rfl rfl)
  have h4 : LineOnly s s4 := by
    unfold s4
    split
    · exact h3.trans (cancelOpens_lineOnly _)
    · exact h3
  have h5 : LineOnly s s5 := by
    unfold s5
    split
    · exact h4.trans (breakPending_lineOnly _ _)
    · exact h4
  exact h5.trans (issueDrive_lineOnly _)

theorem enterStopping_lineOnly (s : State) : LineOnly s (enterStopping s) := by
  unfold enterStopping
  extract_lets s1
  have h1 : LineOnly s s1 := enterLine_lineOnly _ _
  split
  · exact h1.trans (enterLine_lineOnly _ _)
  · exact h1

theorem reform_lineOnly (s : State) : LineOnly s (reform s) := by
  unfold reform
  extract_lets d _ s1
  have h1 : LineOnly s s1 := .of_ls rfl rfl
  split
  · exact h1.trans (enterStopping_lineOnly _)
  · exact h1.trans (enterLine_lineOnly _ _)
  · split
    · exact h1.trans (issueDrive_lineOnly _)
    · exact h1

theorem listFault_lineOnly (f : Raise) (s : State) : LineOnly s (listFault f s) := by
  unfold listFault
  extract_lets hit again _ s1
  have h1 : LineOnly s s1 := .of_ls rfl rfl
  split
  · split
    · exact h1.trans (setFlag_lineOnly _ _)
    · exact h1
  · split
    · refine .trans ?_ (setFlag_lineOnly _ _)
      exact .of_ls rfl rfl
    · refine .trans ?_ (setFlag_lineOnly _ _)
      exact .of_ls rfl rfl

theorem raiseCore_lineOnly (f : Raise) (s : State) : LineOnly s (raiseCore f s) :=
  (listFault_lineOnly f s).trans (reform_lineOnly _)

theorem goneCore_lineOnly (src : Source) (code : FaultCode) (s : State) : LineOnly s (goneCore src code s) :=
  (dropFault_lineOnly src code s).trans (reform_lineOnly _)

/-! ## What follows a line state change, in a settled state -/

theorem sendLaunchRel_lineOnly (s : State) : LineOnly s (sendLaunchRel s) := by
  unfold sendLaunchRel
  split
  · exact .refl s
  · exact offerSafety_lineOnly (.inr rfl) _

@[simp] theorem sendLaunchRel_ls (s : State) : (sendLaunchRel s).ls = s.ls := by
  unfold sendLaunchRel
  split <;> rfl

@[simp] theorem sendLaunchRel_dr (s : State) : (sendLaunchRel s).dr = s.dr := by
  unfold sendLaunchRel
  split <;> rfl

@[simp] theorem sendLaunchRel_ds (s : State) : (sendLaunchRel s).ds = s.ds := by
  unfold sendLaunchRel
  split <;> rfl

@[simp] theorem sendLaunchRel_sl (s : State) : (sendLaunchRel s).sl = s.sl := by
  unfold sendLaunchRel
  split <;> rfl

theorem release_lineOnly (r : Release) (id : Nat) (g : Option LastGo) (s : State) :
    LineOnly s { s with ct := { s.ct with release := r, releaseCabin := id, lastGo := g } } where
  others := fun b hb => by cases b <;> first | rfl | simp at hb
  params := rfl
  commissioned := rfl
  ct := rfl
  ds := rfl
  entries := fun _ => rfl
  doors := fun _ => rfl
  sl := rfl
  lr := rfl
  safety := fun h => h
  dr := rfl
  flags := fun _ h => h

theorem updateRelease_lineOnly (s : State) : LineOnly s (updateRelease s) := by
  unfold updateRelease
  split
  split
  · exact .refl s
  · exact (release_lineOnly _ _ _ s).trans (sendLaunchRel_lineOnly _)

/-- The evaluation of the release leaves LS alone. -/
@[simp] theorem updateRelease_ls (s : State) : (updateRelease s).ls = s.ls := by
  unfold updateRelease
  split
  split
  · rfl
  · exact sendLaunchRel_ls _

@[simp] theorem updateRelease_dr (s : State) : (updateRelease s).dr = s.dr := by
  unfold updateRelease
  split
  split
  · rfl
  · exact sendLaunchRel_dr _

@[simp] theorem updateRelease_ds (s : State) : (updateRelease s).ds = s.ds := by
  unfold updateRelease
  split
  split
  · rfl
  · exact sendLaunchRel_ds _

@[simp] theorem updateRelease_sl (s : State) : (updateRelease s).sl = s.sl := by
  unfold updateRelease
  split
  split
  · rfl
  · exact sendLaunchRel_sl _

/-- R82: with no source kept and room in the transmit queue, LINK_BACKLOG plays no part. -/
theorem evalBacklog_settled {s : State} (h : Settled s) : evalBacklog s = s := by
  have hf : s.txFull = false := by
    exact decide_eq_false (Nat.not_le.2 h.room)
  unfold evalBacklog
  have h1 : letGoLaunched s = s := by
    unfold letGoLaunched
    rw [h.launched]
    simp only [List.foldl_nil]
    rw [← h.launched]
  simp only [h.waiting, Option.isSome_none, Bool.false_eq_true, false_and, if_false, hf, h1]
  split <;> rfl

theorem evalRelease_settled {s : State} (h : Settled s) : evalRelease s = updateRelease s := by
  have h1 : evalReleaseOnce s = updateRelease s := evalBacklog_settled (h.after (updateRelease_lineOnly s))
  unfold evalRelease
  simp only [h1, updateRelease_ls, if_true]

/-- In a settled state a line state change is followed by one evaluation of the release. -/
theorem follow_settled {s t : State} (h : Settled t) :
    follow s t = if t.ls.line = s.ls.line then t else updateRelease t := by
  have hd : applyDeferred t = t := by
    unfold applyDeferred
    rw [h.deferred]
    rfl
  unfold follow
  rw [hd, evalRelease_settled h]
  split
  · rfl
  · split <;> rfl

theorem follow_lineOnly {s t : State} (h : Settled t) : LineOnly t (follow s t) := by
  rw [follow_settled h]
  split
  · exact .refl t
  · exact updateRelease_lineOnly t

@[simp] theorem follow_ls_settled {s t : State} (h : Settled t) : (follow s t).ls = t.ls := by
  rw [follow_settled h]
  split
  · rfl
  · exact updateRelease_ls t

theorem raise_lineOnly {s : State} (f : Raise) (h : Settled s) : LineOnly s (raise f s) :=
  (raiseCore_lineOnly f s).trans (follow_lineOnly (h.after (raiseCore_lineOnly f s)))

theorem gone_lineOnly {s : State} (src : Source) (code : FaultCode) (h : Settled s) : LineOnly s (gone src code s) :=
  (goneCore_lineOnly src code s).trans (follow_lineOnly (h.after (goneCore_lineOnly src code s)))

theorem raise_ls {s : State} (f : Raise) (h : Settled s) : (raise f s).ls = (raiseCore f s).ls :=
  follow_ls_settled (h.after (raiseCore_lineOnly f s))

theorem gone_ls {s : State} (src : Source) (code : FaultCode) (h : Settled s) :
    (gone src code s).ls = (goneCore src code s).ls := follow_ls_settled (h.after (goneCore_lineOnly src code s))

end Sys2Proof.Machine
end

