-- ==== Sys2Proof/Laws/Moves.lean ====
section
/-! SUPPORT. What a command can do, said once. A command's effect is a path of moves: a move either is one of the named
changes of the line, of RA's position or of CT's collections, taken under the condition that its block checks, or it is
tame: it leaves all of these alone and keeps every queue within its capacity. Laws/Paths.lean and the files after it show
that every meaning takes such a path, so that an invariant of the part is proved by one short case for each move. -/

namespace Sys2Proof.Machine

open Sys2Proof.Safety

/-! ## Tame changes -/

/-- The state that only a named move changes: LS's demand and line state, the fleet table and the identities in CT's
collections, RA's position and speed, which channels are bypassed, the REPORT queue, and the straps. -/
structure Watched where
  line : LineState
  deskDemand : Demand
  effDemand : Demand
  overflow : Demand
  faults : List FaultEntry
  drive : DriveRecord
  params : LineParams
  fleet : Vector (Option FleetCabin) 160
  queue : List (Nat × Identity × Nat)
  uphill : List Nat
  downhill : List Nat
  p : Nat
  r : Nat
  vf : Int
  bypass : Vector Bool 48
  report : List QFrame
  straps : Straps

/-- What a cabin record is in the account of cabins: its id, its identity and its zone. -/
def Cabin.key (c : Cabin) : Nat × Identity × Nat := (c.id, c.identity, c.zone)

/-- The watched part of a state. -/
def watch (s : State) : Watched :=
  { line := s.ls.line
    deskDemand := s.ls.deskDemand
    effDemand := s.ls.effDemand
    overflow := s.ls.overflow
    faults := s.ls.faults
    drive := s.ls.drive
    params := s.ls.params
    fleet := s.ct.fleet
    queue := s.ct.queue.map Cabin.key
    uphill := s.ct.uphill.map (·.id)
    downhill := s.ct.downhill.map (·.id)
    p := s.ra.p
    r := s.ra.r
    vf := s.ra.vf
    bypass := s.cm.channels.map (·.bypass.isSome)
    report := s.lr.report
    straps := s.straps }

/-- The queues whose joins are guarded where they happen hold no more than their capacities. -/
structure Bounded (s : State) : Prop where
  subst : s.cm.subst.length ≤ Config.substCap
  txQueue : s.sl.txQueue.length ≤ Config.txCap
  rxQueue : s.sl.rxQueue.length ≤ Config.rxCap
  waiting : s.cs.waiting.length ≤ Config.waitingCap
  linkVoice : s.cs.voice.length ≤ Config.voiceCap
  relay : s.lr.relay.length ≤ Config.relayCap
  requests : s.lr.requests.length ≤ Config.relayCap
  door : s.lr.door.length ≤ Config.doorCap
  voice : s.lr.voice.length ≤ Config.relayCap
  staging : s.cl.staging.length ≤ Config.stagingCap
  deferred : deferLoad s ≤ Config.stagingCap
  backlog : s.cs.backlog.length ≤ Config.waitingCap
  safety : AtMostOneEach s.lr.safety
  outstanding : outLoad s ≤ Config.doorCap
  capture : captured s ≤ Config.captureCap

/-- The lengths of the queues that `Bounded` bounds, and the SAFETY queue. -/
def sizes (s : State) : List Nat × List QFrame :=
  ([s.cm.subst.length, s.sl.txQueue.length, s.sl.rxQueue.length, s.cs.waiting.length, s.cs.voice.length,
    s.lr.relay.length, s.lr.requests.length, s.lr.door.length, s.lr.voice.length,
    s.cl.staging.length, deferLoad s, s.cs.backlog.length, outLoad s, captured s], s.lr.safety)

/-- The bound depends on the lengths and the SAFETY queue alone. -/
theorem Bounded.of_sizes {s t : State} (h : sizes t = sizes s) (b : Bounded s) : Bounded t := by
  simp only [sizes, Prod.mk.injEq, List.cons.injEq, and_true] at h
  obtain ⟨⟨h1, h2, h3, h4, h5, h6, h7, h8, h9, h10, h11, h12, h13, h14⟩, h15⟩ := h
  exact ⟨h1 ▸ b.subst, h2 ▸ b.txQueue, h3 ▸ b.rxQueue, h4 ▸ b.waiting, h5 ▸ b.linkVoice, h6 ▸ b.relay,
    h7 ▸ b.requests, h8 ▸ b.door, h9 ▸ b.voice, h10 ▸ b.staging, h11 ▸ b.deferred, h12 ▸ b.backlog, h15 ▸ b.safety,
    h13 ▸ b.outstanding, h14 ▸ b.capture⟩

/-- A change that touches nothing watched and overfills no queue. -/
structure Tame (s t : State) : Prop where
  watch : watch t = watch s
  bounded : Bounded s → Bounded t

/-! ## Moves -/

/-- Which moves a run may take: `moves`, all but what can follow a line state change; `report`, joins to the REPORT
queue and leavings; `trip`, an accepted TRIP_RESET; `reset`, a reset of the part. -/
structure Allow where
  moves : Bool
  report : Bool
  trip : Bool
  reset : Bool

/-- What can follow a line state change: nothing that needs permission. -/
def Allow.line : Allow := { moves := false, report := false, trip := false, reset := false }

/-- What a block does in judging a request or taking an event. -/
def Allow.judge : Allow := { moves := true, report := false, trip := false, reset := false }

/-- What any command but TRIP_RESET and those that reset the part can do. -/
def Allow.plain : Allow := { moves := true, report := true, trip := false, reset := false }

/-- One permission holds all of another. -/
structure Allow.Le (a b : Allow) : Prop where
  moves : a.moves = true → b.moves = true
  report : a.report = true → b.report = true
  trip : a.trip = true → b.trip = true
  reset : a.reset = true → b.reset = true

theorem Allow.line_le (a : Allow) : Allow.line.Le a := by
  constructor <;> intro h <;> cases h

/-- One move. -/
inductive Move : Allow → State → State → Prop where
  | tame {k s t} (h : Tame s t) : Move k s t
  /-- R50, R54: a fault is raised. -/
  | raised {k s} (f : Raise) : Move k s (raiseCore f s)
  /-- R51, R54: a fault's condition is reported gone. -/
  | gone {k s} (src : Source) (code : FaultCode) : Move k s (goneCore src code s)
  /-- R41: a bypass ends. -/
  | unbypass {k s} (c : Nat) :
      Move k s (goneCore (.channel c) .bypassActive (setChan c { s.chan c with bypass := none } s))
  /-- R66: LINE_PARAMS is written. -/
  | params {k s} (p : LineParams) (h : p.inRange = true) : Move k s (writeParams p s)
  /-- R1: RA loses its measurement of the rope: vf becomes 0, P and r keep their values. -/
  | still {k s} (ra : Rope) (h : ra.p = s.ra.p ∧ ra.r = s.ra.r ∧ ra.vf = 0) : Move k s { s with ra := ra }
  /-- R3 to R10: the stages of an encoder reading. -/
  | rope {k s} (hk : k.moves = true) (e : ChanEntry) (n t : Word16) :
      Move k s { s with ra := (ropeStages e s.params.loopLen n t s.ra).2 }
  /-- R57: the start exit. -/
  | startExit {k s} (hk : k.moves = true) (h : s.ls.line = .starting) :
      Move k s (enterLine (if s.ls.effDemand = .run then .running else .slowed) s)
  /-- R59: the line has come to rest. -/
  | rest {k s} (hk : k.moves = true) (h : s.ls.line = .stopping) : Move k s (enterLine .stopped s)
  /-- R56: a start. -/
  | start {k s} (hk : k.moves = true) (d : Demand) (h : s.ls.line = .stopped) (hd : startAllowed d s = true) :
      Move k s (enterLine .starting (setDesk d s))
  /-- R56: the desk demand of a moving line changes. -/
  | desk {k s} (hk : k.moves = true) (d : Demand) (hd : d ≠ .trip)
      (h : s.ls.line = .starting ∨ s.ls.line = .running ∨ s.ls.line = .slowed) : Move k s (reform (setDesk d s))
  /-- R53: CLEAR_FAULT. -/
  | cleared {k s} (hk : k.moves = true) (n : Nat) (e : FaultEntry) (he : s.ls.faults.find? (namedBy n) = some e)
      (h : e.latched = true ∧ e.cls ≠ .trip ∧ e.present = false) : Move k s (clearEntry n s)
  /-- R39: BYPASS of a channel that was not bypassed. -/
  | bypassed {k s} (hk : k.moves = true) (c : Nat) (b : Bypass) :
      Move k s (raiseCore (bypassFault c) (setChan c { s.chan c with bypass := some b } s))
  /-- R73: an unidentified cabin enters. -/
  | anonymous {k s} (hk : k.moves = true) (hq : s.ct.queue.length < Config.queueCap) : Move k s (anonymousMove s)
  /-- R73: an unregistered cabin enters. -/
  | foreign {k s} (hk : k.moves = true) (x : Nat) (hx : x ≠ 0) (hr : s.registered x = false)
      (hq : s.ct.queue.length < Config.queueCap) : Move k s (foreignMove x s)
  /-- R74: the oldest cabin of the downhill list enters. -/
  | oldest {k s} (hk : k.moves = true) (x : Nat) (e : DownEntry) (hd : s.ct.downhill.head? = some e) (he : e.id = x)
      (hr : s.registered x = true) (hq : s.ct.queue.length < Config.queueCap) : Move k s (oldestMove x s)
  /-- R74: another cabin of the downhill list enters. -/
  | outOfOrder {k s} (hk : k.moves = true) (x : Nat) (hd : ∃ e ∈ s.ct.downhill, e.id = x) (hr : s.registered x = true)
      (hq : s.ct.queue.length < Config.queueCap) : Move k s (outOfOrderMove x s)
  /-- R74: a registered cabin that is not in the downhill list enters. -/
  | unknown {k s} (hk : k.moves = true) (x : Nat) (hd : ∀ e ∈ s.ct.downhill, e.id ≠ x) (hr : s.registered x = true)
      (hq : s.ct.queue.length < Config.queueCap) : Move k s (unknownMove x s)
  /-- R86: INSERT. -/
  | insert {k s} (hk : k.moves = true) (x : Nat) (hl : s.location x = some .garage ∨ s.location x = some .unplaced)
      (hq : s.ct.queue.length < Config.queueCap) : Move k s (joinTerminal x false s)
  /-- R75: a zone move. -/
  | zone {k s} (hk : k.moves = true) (z : Nat) (bad : Bool) (hr : zoneRoom z s = true) : Move k s (zoneShift z bad s)
  /-- R84: a launch, of the record at the head of LAUNCH. -/
  | launched {k s} (hk : k.moves = true) (c d : Cabin) (hd : s.launchHead = some d) (hc : d.key = c.key) :
      Move k s (launchMove c s)
  /-- R87: WITHDRAW. -/
  | withdrawn {k s} (hk : k.moves = true) (x : Nat) (c : Cabin) (hc : s.ct.queue.find? (withdrawNames x s) = some c) :
      Move k s (withdrawMove x c s)
  /-- R88: ASSIGN. -/
  | assigned {k s} (hk : k.moves = true) (x : Nat) (c : Cabin) (hc : s.ct.queue.find? isAnonymous = some c)
      (hx : badId x s = false) (hl : s.location x = some .unplaced ∨ s.location x = some .downhill) :
      Move k s (assignMove x s)
  /-- R89: PLACE. -/
  | placed {k s} (hk : k.moves = true) (x : Nat) (loc : Location) (off : Nat) (hl : s.location x = some .unplaced)
      (ht : loc ≠ .terminal ∧ loc ≠ .unplaced) (hf : listFull loc s = false) : Move k s (placeMove x loc off s)
  /-- R70: a cabin is registered. -/
  | registers {k s} (hk : k.moves = true) (slot x : Nat) (loc : Location) (hs : s.ct.fleet[slot]?.getD none = none)
      (hx : 1 ≤ x) (hr : s.registered x = false) (hq : ∀ c ∈ s.ct.queue, c.id ≠ x)
      (hl : loc = .garage ∨ loc = .unplaced) : Move k s (setSlot slot (some { id := x, location := loc }) s)
  /-- R70: a cabin is unregistered. -/
  | unregisters {k s} (hk : k.moves = true) (slot : Nat) (x : FleetCabin) (hs : s.ct.fleet[slot]?.getD none = some x)
      (hl : x.location = .garage ∨ x.location = .unplaced) : Move k s (setSlot slot none s)
  /-- R145: a cabin has arrived at the summit. -/
  | arrived {k s} (hk : k.moves = true) (x : Nat) (e : UpEntry) (he : s.ct.uphill.find? (fun e => e.id == x) = some e) :
      Move k s (arriveMove x s)
  /-- R146: the summit has launched a cabin. -/
  | summit {k s} (hk : k.moves = true) (x : Nat) (hr : s.registered x = true) (hf : downhillRefuses x s = false) :
      Move k s (summitMove x s)
  /-- R172: an accepted REPLY or REPORT joins the REPORT queue. -/
  | reported {k s} (hk : k.report = true) (f : QFrame) (h : s.lr.report.length < Config.doorCap) :
      Move k s (joinReport f s)
  /-- R172, R173: the oldest frame of the REPORT queue leaves it. -/
  | reportSent {k s} (hk : k.report = true) (f : QFrame) (q : List QFrame) (notice : Bool)
      (h : s.lr.report = f :: q) :
      Move k s { s with lr := { s.lr with report := q }, dr := { s.dr with placeNotice := notice } }
  /-- R61: an accepted TRIP_RESET. -/
  | tripReset {k s} (hk : k.trip = true)
      (hp : s.ls.faults.any (fun e => e.cls == .trip && e.present) = false)
      (hl : s.ls.line = .tripped ∨ s.ls.line = .stopped) : Move k s (clearTrips s)
  /-- R206: every block takes its reset values. -/
  | reset {k s} (hk : k.reset = true) (straps : Straps) : Move k s (State.blocksReset straps s.now s.freeCount s.pending)

/-- A run of moves of a level. -/
inductive Path (k : Allow) : State → State → Prop where
  | refl {s} : Path k s s
  | tail {s t u} (h : Path k s t) (m : Move k t u) : Path k s u

/-! ## Composition -/

theorem Path.single {k : Allow} {s t : State} (m : Move k s t) : Path k s t := .tail .refl m

theorem Path.trans {k : Allow} {s t u : State} (h : Path k s t) (g : Path k t u) : Path k s u := by
  induction g with
  | refl => exact h
  | tail _ m ih => exact ih.tail m

theorem Tame.refl (s : State) : Tame s s := ⟨rfl, id⟩

theorem Tame.trans {s t u : State} (h : Tame s t) (g : Tame t u) : Tame s u :=
  ⟨g.watch.trans h.watch, g.bounded ∘ h.bounded⟩

/-- A change of neither the watched part nor a length is tame. -/
theorem Tame.of_eq {s t : State} (hw : Machine.watch t = Machine.watch s) (hn : sizes t = sizes s) : Tame s t :=
  ⟨hw, Bounded.of_sizes hn⟩

/-- As `Tame.of_eq`, as a path. -/
theorem Path.quiet {k : Allow} {s t : State} (hw : watch t = watch s) (hn : sizes t = sizes s) : Path k s t :=
  .single (.tame (.of_eq hw hn))

theorem Tame.path {k : Allow} {s t : State} (h : Tame s t) : Path k s t := .single (.tame h)

theorem Move.path {k : Allow} {s t : State} (h : Move k s t) : Path k s t := .single h

theorem Move.mono {k m : Allow} (h : k.Le m) {s t : State} (hm : Move k s t) : Move m s t := by
  cases hm with
  | tame h => exact .tame h
  | raised f => exact .raised f
  | gone src code => exact .gone src code
  | unbypass c => exact .unbypass c
  | params p hp => exact .params p hp
  | still ra hr => exact .still ra hr
  | rope hk e n t => exact .rope (h.moves hk) e n t
  | startExit hk hl => exact .startExit (h.moves hk) hl
  | rest hk hl => exact .rest (h.moves hk) hl
  | start hk d hl hd => exact .start (h.moves hk) d hl hd
  | desk hk d hd hl => exact .desk (h.moves hk) d hd hl
  | cleared hk n e he hc => exact .cleared (h.moves hk) n e he hc
  | bypassed hk c b => exact .bypassed (h.moves hk) c b
  | anonymous hk hq => exact .anonymous (h.moves hk) hq
  | foreign hk x hx hr hq => exact .foreign (h.moves hk) x hx hr hq
  | oldest hk x e hd he hr hq => exact .oldest (h.moves hk) x e hd he hr hq
  | outOfOrder hk x hd hr hq => exact .outOfOrder (h.moves hk) x hd hr hq
  | unknown hk x hd hr hq => exact .unknown (h.moves hk) x hd hr hq
  | insert hk x hl hq => exact .insert (h.moves hk) x hl hq
  | zone hk z bad hr => exact .zone (h.moves hk) z bad hr
  | launched hk c d hd hc => exact .launched (h.moves hk) c d hd hc
  | withdrawn hk x c hc => exact .withdrawn (h.moves hk) x c hc
  | assigned hk x c hc hx hl => exact .assigned (h.moves hk) x c hc hx hl
  | placed hk x loc off hl ht hf => exact .placed (h.moves hk) x loc off hl ht hf
  | registers hk slot x loc hs hx hr hq hl => exact .registers (h.moves hk) slot x loc hs hx hr hq hl
  | unregisters hk slot x hs hl => exact .unregisters (h.moves hk) slot x hs hl
  | arrived hk x e he => exact .arrived (h.moves hk) x e he
  | summit hk x hr hf => exact .summit (h.moves hk) x hr hf
  | reported hk f hf => exact .reported (h.report hk) f hf
  | reportSent hk f q n hf => exact .reportSent (h.report hk) f q n hf
  | tripReset hk hp hl => exact .tripReset (h.trip hk) hp hl
  | reset hk straps => exact .reset (h.reset hk) straps

theorem Path.mono {k m : Allow} (h : k.Le m) {s t : State} (hp : Path k s t) : Path m s t := by
  induction hp with
  | refl => exact .refl
  | tail _ hm ih => exact ih.tail (hm.mono h)

/-- A path to a choice of states. -/
theorem Path.ite {k : Allow} {s a b : State} {c : Prop} [Decidable c] (h1 : c → Path k s a) (h2 : ¬ c → Path k s b) :
    Path k s (if c then a else b) := by
  by_cases h : c
  · rw [if_pos h]
    exact h1 h
  · rw [if_neg h]
    exact h2 h

/-- A path through a fold, one step of which is a path. -/
theorem Path.foldl {k : Allow} {α : Type} {f : State → α → State} (l : List α) (hf : ∀ t x, Path k t (f t x))
    (s : State) : Path k s (l.foldl f s) := by
  induction l generalizing s with
  | nil => exact .refl
  | cons x xs ih => exact (hf s x).trans (ih (f s x))

/-- An invariant that every move of a level keeps holds at the end of a path. -/
theorem Path.keeps {k : Allow} {Inv : State → Prop} (h : ∀ s t, Move k s t → Inv s → Inv t) {s t : State}
    (hp : Path k s t) (hs : Inv s) : Inv t := by
  induction hp with
  | refl => exact hs
  | tail _ hm ih => exact h _ _ hm ih

end Sys2Proof.Machine
end

