-- ==== Sys2Proof/Laws/PathsOps.lean ====
section
/-! SUPPORT. The shared operations of Machine/Ops.lean and Machine/Channel.lean take paths of moves. -/

namespace Sys2Proof.Machine

open Sys2Proof.Safety

variable {k : Allow}

/-! ## Updates of one field, and LR's queues -/

theorem setFlag_tame (f : Flag) (s : State) : Tame s (setFlag f s) := by
  unfold setFlag
  split
  · exact .refl s
  · exact .of_eq rfl rfl

theorem setFlag_path (f : Flag) (s : State) : Path k s (setFlag f s) := (setFlag_tame f s).path

theorem reach_path (t : Nat) (s : State) : Path k s (reach t s) := .quiet rfl rfl

theorem offerSafety_path {f : QFrame} (hf : f.kind = .driveReq ∨ f.kind = .launchRel) (s : State) :
    Path k s (offerSafety f s) :=
  Tame.path ⟨rfl, fun b => { b with safety := offerSafety_each hf b.safety }⟩

theorem joinDoor_path (f : QFrame) {s : State} (h : s.doorRoom = true) : Path k s (joinDoor f s) := by
  refine Tame.path ⟨rfl, fun b => { b with door := ?_ }⟩
  simp only [State.doorRoom, decide_eq_true_eq] at h
  simpa [joinDoor] using h

theorem offerVoice_path (f : QFrame) (s : State) : Path k s (offerVoice f s) := by
  refine Tame.path ⟨rfl, fun b => { b with voice := ?_ }⟩
  have := b.voice
  by_cases h : Config.relayCap ≤ s.lr.voice.length
  · simp [offerVoice, h]
    simp only [Config.relayCap] at *
    omega
  · simp [offerVoice, h]
    omega

/-! ## Channels: writes that leave the bypass -/

theorem map_setIfInBounds_same {α β : Type} {n : Nat} (f : α → β) (v : Vector α n) (i : Nat) (x : α)
    (h : ∀ hi : i < n, f x = f v[i]) : (v.setIfInBounds i x).map f = v.map f := by
  ext j hj
  simp only [Vector.getElem_map, Vector.getElem_setIfInBounds]
  by_cases hij : i = j
  · subst hij
    rw [if_pos rfl, h hj]
  · rw [if_neg hij]

theorem setChan_tame {c : Nat} {ch : Channel} {s : State} (h : ch.bypass.isSome = (s.chan c).bypass.isSome) :
    Tame s (setChan c ch s) := by
  have hb : (setChan c ch s).cm.channels.map (·.bypass.isSome) = s.cm.channels.map (·.bypass.isSome) := by
    refine map_setIfInBounds_same _ _ _ _ fun hi => ?_
    rw [h]
    simp [State.chan, Vector.getElem?_eq_getElem hi]
  refine .of_eq ?_ rfl
  unfold watch
  rw [hb]
  rfl

theorem setEntry_path (c : Nat) (e : ChanEntry) (s : State) : Path k s (setEntry c e s) :=
  (setChan_tame (c := c) (ch := { s.chan c with entry := e }) rfl).path

theorem setRt_path (c : Nat) (rt : Runtime) (s : State) : Path k s (setRt c rt s) :=
  (setChan_tame (c := c) (ch := { s.chan c with rt := rt }) rfl).path

/-! ## LS -/

theorem sendDrive_path (s : State) : Path k s (sendDrive s) := by
  unfold sendDrive
  extract_lets _ s1
  have h1 : Path k s s1 := .quiet rfl rfl
  exact h1.trans (.ite (fun _ => .refl) fun _ => offerSafety_path (.inl rfl) _)

theorem raise_core_path (f : Raise) (s : State) : Path k s (raiseCore f s) := (Move.raised f).path

theorem gone_core_path (src : Source) (code : FaultCode) (s : State) : Path k s (goneCore src code s) :=
  (Move.gone src code).path

/-! ## CT's release -/

theorem sendLaunchRel_path (s : State) : Path k s (sendLaunchRel s) := by
  unfold sendLaunchRel
  exact .ite (fun _ => .refl) fun _ => offerSafety_path (.inr rfl) _

theorem updateRelease_path (s : State) : Path k s (updateRelease s) := by
  unfold updateRelease
  refine .ite (fun _ => .refl) fun _ => .trans ?_ (sendLaunchRel_path _)
  exact .quiet rfl rfl

theorem letGoWaiting_path (s : State) : Path k s (letGoWaiting s) := by
  unfold letGoWaiting
  split
  · exact .refl
  · extract_lets _ t
    have h1 : Path k s t := .quiet rfl rfl
    exact h1.trans (.ite (fun _ => .refl) fun _ => gone_core_path _ _ _)

theorem letGoLaunched_path (s : State) : Path k s (letGoLaunched s) := by
  unfold letGoLaunched
  refine .trans ?_ (.foldl _ (fun t x => .ite (fun _ => .refl) fun _ => gone_core_path _ _ _) _)
  exact .quiet rfl rfl

theorem evalBacklog_path (s : State) : Path k s (evalBacklog s) := by
  unfold evalBacklog
  extract_lets head s1 s2
  have h1 : Path k s s1 := .ite (fun _ => letGoWaiting_path s) fun _ => .refl
  have h2 : Path k s s2 := h1.trans (.ite (fun _ => .refl) fun _ => letGoLaunched_path s1)
  clear_value s2 head
  cases head with
  | none => exact h2
  | some y =>
    refine h2.trans (.ite (fun _ => .trans ?_ (raise_core_path _ _)) fun _ => .refl)
    exact .quiet rfl rfl

theorem evalReleaseOnce_path (s : State) : Path k s (evalReleaseOnce s) :=
  (updateRelease_path s).trans (evalBacklog_path _)

theorem evalRelease_path (s : State) : Path k s (evalRelease s) := by
  unfold evalRelease
  extract_lets s1
  have h1 : Path k s s1 := evalReleaseOnce_path s
  exact .ite (fun _ => h1) fun _ => h1.trans (evalReleaseOnce_path s1)

/-! The evaluation of the release leaves CS alone. -/

theorem LineOnly.cs_eq {s t : State} (h : LineOnly s t) : t.cs = s.cs := h.others .cs (by decide)

theorem letGoWaiting_cs (s : State) : (letGoWaiting s).cs = s.cs := by
  unfold letGoWaiting
  split
  · rfl
  · extract_lets _ t
    have h1 : t.cs = s.cs := rfl
    split
    · exact h1
    · exact (LineOnly.cs_eq (goneCore_lineOnly _ _ t)).trans h1

theorem letGoLaunched_cs (s : State) : (letGoLaunched s).cs = s.cs := by
  unfold letGoLaunched
  have : ∀ (l : List Nat) (t : State), (l.foldl
      (fun t x => if t.ct.backlogWaiting = some x then t else goneCore (.cabin x) .linkBacklog t) t).cs = t.cs := by
    intro l
    induction l with
    | nil => exact fun _ => rfl
    | cons x xs ih =>
      intro t
      rw [List.foldl_cons, ih]
      split
      · rfl
      · exact LineOnly.cs_eq (goneCore_lineOnly _ _ t)
  exact this _ _

theorem evalReleaseOnce_cs (s : State) : (evalReleaseOnce s).cs = s.cs := by
  have h0 : (updateRelease s).cs = s.cs := LineOnly.cs_eq (updateRelease_lineOnly s)
  unfold evalReleaseOnce
  generalize updateRelease s = u at h0
  unfold evalBacklog
  extract_lets head s1 s2
  have h1 : s1.cs = s.cs := by
    unfold s1
    split
    · exact (letGoWaiting_cs u).trans h0
    · exact h0
  have h2 : s2.cs = s.cs := by
    unfold s2
    split
    · exact h1
    · exact (letGoLaunched_cs s1).trans h1
  clear_value s2 head
  cases head with
  | none => exact h2
  | some y =>
    show (if s2.txFull = true then _ else s2).cs = s.cs
    split
    · exact (LineOnly.cs_eq (raiseCore_lineOnly _ _)).trans h2
    · exact h2

theorem evalRelease_cs (s : State) : (evalRelease s).cs = s.cs := by
  unfold evalRelease
  extract_lets s1
  have h1 : s1.cs = s.cs := evalReleaseOnce_cs s
  split
  · exact h1
  · exact (evalReleaseOnce_cs s1).trans h1

theorem txOffer_cs (m : Message) (s : State) : (txOffer m s).2.cs = s.cs := by
  unfold txOffer
  split
  · rfl
  · exact evalRelease_cs _

/-- A change of the queue's records that leaves their keys. -/
theorem queue_path {s : State} {q : List Cabin} (h : q.map Cabin.key = s.ct.queue.map Cabin.key) :
    Path k s (setQueue q s) := by
  refine .quiet ?_ rfl
  unfold watch
  simp only [setQueue]
  rw [h]

theorem noticeLocked_path (j : Nat) (b : Bool) (s : State) : Path k s (noticeLocked j b s) := by
  unfold noticeLocked
  refine .ite (fun _ => .trans (queue_path ?_) (evalRelease_path _)) fun _ => .refl
  rw [List.map_map]
  refine List.map_congr_left fun c _ => ?_
  simp only [Function.comp]
  split <;> rfl

/-! ## SL's transmit queue and DS's warning output -/

theorem txOffer_path (m : Message) (s : State) : Path k s (txOffer m s).2 := by
  unfold txOffer
  split
  · exact .refl
  · rename_i h
    refine .trans ?_ (evalRelease_path _)
    refine Tame.path ⟨rfl, fun b => { b with txQueue := ?_ }⟩
    simp only [State.txFull, decide_eq_true_eq, Nat.not_le] at h
    simpa using h

theorem dropWarning_path (s : State) : Path k s (dropWarning s) := .quiet rfl rfl

theorem formWarning_path (s : State) : Path k s (formWarning s) := by
  unfold formWarning
  refine .ite (fun _ => .refl) fun _ => ?_
  extract_lets set t
  have h1 : Path k s t := dropWarning_path s
  refine h1.trans (.ite (fun h => .trans ?_ (joinDoor_path _ h)) fun _ => .quiet rfl rfl)
  exact .quiet rfl rfl

theorem updateWarning_path (before : Byte) (s : State) : Path k s (updateWarning before s) := by
  unfold updateWarning
  exact .ite (fun _ => .refl) fun _ => .ite (fun _ => dropWarning_path s) fun _ => formWarning_path s

/-! ## CL's profile loads -/

/-- A change of CL that stages no more, and leaves no more for the deferred list. -/
theorem loader_path {s : State} {cl : Loader} (hs : cl.staging.length ≤ s.cl.staging.length)
    (hd : deferLoad { s with cl := cl } ≤ deferLoad s) : Path k s { s with cl := cl } :=
  Tame.path ⟨rfl, fun b => { b with staging := hs.trans b.staging, deferred := hd.trans b.deferred }⟩

theorem enterApplying_path (p : Profile) (s : State) : Path k s (enterApplying p s) := by
  unfold enterApplying
  extract_lets _ t
  refine .ite (fun _ => .trans ?_ (setFlag_path _ _)) fun _ => ?_
  · exact Tame.path ⟨rfl, fun b => { b with deferred := Nat.zero_le _ }⟩
  · refine Tame.path ⟨rfl, fun b => { b with deferred := ?_ }⟩
    show 0 + s.cl.staging.length ≤ _
    rw [Nat.zero_add]
    exact b.staging

theorem beginProfile_path (p : Profile) (s : State) : Path k s (beginProfile p s) := by
  unfold beginProfile
  split
  rename_i a b _
  refine .ite (fun _ => loader_path le_rfl (Nat.le_add_right _ _)) fun _ => ?_
  extract_lets _ t
  have h1 : Path k s t := by
    refine loader_path (Nat.zero_le _) ?_
    unfold deferLoad
    dsimp only
    cases s.cl.profile <;> simp
  exact h1.trans (.ite (fun _ => loader_path le_rfl (Nat.le_add_right _ _)) fun _ => enterApplying_path p t)

theorem afterProfile_path (s : State) : Path k s (afterProfile s) := by
  unfold afterProfile
  split
  · exact .refl
  · refine .trans ?_ (beginProfile_path _ _)
    exact .quiet rfl rfl

theorem requestProfile_path (p : Profile) (s : State) : Path k s (requestProfile p s) := by
  unfold requestProfile
  exact .ite (fun _ => .quiet rfl rfl) fun _ => .ite (fun _ => .refl) fun _ => beginProfile_path p s

theorem formBand_path (s : State) : Path k s (formBand s) := by
  unfold formBand
  extract_lets new old _ t
  have h1 : Path k s t := by
    refine .trans ?_ (setFlag_path _ _)
    exact .quiet rfl rfl
  exact .ite (fun _ => .refl) fun _ => .ite (fun _ => h1.trans (requestProfile_path _ _)) fun _ =>
    .ite (fun _ => h1.trans (requestProfile_path _ _)) fun _ => h1

/-! ## CM's operations, whatever follows a line state change -/

section Follow
variable {fl : Follow} (hfl : ∀ b a, Path k a (fl b a))
include hfl

theorem raiseF_path (f : Raise) (s : State) : Path k s (raiseF fl f s) := (raise_core_path f s).trans (hfl _ _)

theorem goneF_path (src : Source) (code : FaultCode) (s : State) : Path k s (goneF fl src code s) :=
  (gone_core_path src code s).trans (hfl _ _)

theorem goneAll_path (c : Nat) (codes : List FaultCode) (s : State) : Path k s (goneAll fl c codes s) :=
  .foldl _ (fun t code => goneF_path hfl (.channel c) code t) s

theorem resetRuntime_path (c : Nat) (s : State) : Path k s (resetRuntime fl c s) :=
  (goneAll_path hfl c cmFaults s).trans (setRt_path _ _ _)

theorem staleGone_path (c : Nat) (s : State) : Path k s (staleGone fl c s) := by
  unfold staleGone
  exact .ite (fun _ => (setRt_path _ _ _).trans (goneF_path hfl _ _ _)) fun _ => .refl

end Follow

end Sys2Proof.Machine
end

