-- ==== Sys2Proof/Laws/PathsChannel.lean ====
section
/-! SUPPORT. CM's operations (Machine/Channel.lean) take paths of moves, and so does what follows a line state change. -/

namespace Sys2Proof.Machine

open Sys2Proof.Safety

variable {k : Allow}

/-- A change of the capture record that keeps its buffer within its capacity. -/
theorem capture_path {s : State} {c : Option Capture}
    (h : Bounded s → captured { s with dr := { s.dr with capture := c } } ≤ Config.captureCap) :
    Path k s { s with dr := { s.dr with capture := c } } :=
  Tame.path ⟨rfl, fun b => { b with capture := h b }⟩

/-- A change of a running capture's record that leaves its buffer. -/
theorem capture_same_path {s : State} {q q' : Capture} (h : s.dr.capture = some q) (hb : q'.buffer = q.buffer) :
    Path k s { s with dr := { s.dr with capture := some q' } } := by
  refine capture_path fun b => ?_
  have := b.capture
  unfold captured at this
  rw [h] at this
  show q'.buffer.length ≤ _
  rw [hb]
  exact this

theorem captureFail_path (c : Nat) (sub : Option Nat) (s : State) : Path k s (captureFail c sub s) := by
  unfold captureFail
  split
  · rename_i q h
    split
    · refine capture_same_path h ?_
      cases sub <;> rfl
    · exact .refl
  · exact .refl

theorem captureWritten_path (c : Nat) (s : State) : Path k s (captureWritten c s) := by
  unfold captureWritten
  split
  · rename_i q h
    exact .ite (fun _ => capture_same_path h rfl) fun _ => .refl
  · exact .refl

theorem markFailed_path (c : Nat) (s : State) : Path k s (markFailed c s) := by
  refine Tame.path (setChan_tame ?_)
  rfl

/-- R42: a valid LINE_PARAMS write is within its ranges. -/
theorem validLine_inRange {idx : Nat} {bs : List Byte} {p : LineParams} (h : validLine idx bs = .ok p) :
    p.inRange = true := by
  unfold validLine at h
  extract_lets q at h
  by_cases hc : idx = 0 ∧ bs.length = 46 ∧ q.inRange = true
  · rw [if_pos hc] at h
    injection h with h
    exact h ▸ hc.2.2
  · rw [if_neg hc] at h
    cases h

section Follow
variable {fl : Follow} (hfl : ∀ b a, Path k a (fl b a))
include hfl

theorem determineEncoder_path (s : State) : Path k s (determineEncoder fl s) := by
  unfold determineEncoder
  extract_lets new old _ ra s1
  have h1 : Path k s s1 := by
    by_cases h : new = none
    · simp only [s1, h, if_true]
      refine Move.path (.still _ ⟨rfl, rfl, rfl⟩)
    · simp only [s1, h, if_false]
      exact .quiet rfl rfl
  clear_value s1 old
  refine .ite (fun _ => .refl) fun _ => ?_
  cases old with
  | none => exact h1
  | some a => exact h1.trans (goneAll_path hfl _ _ _)

theorem substitute_path (a b : Nat) {s : State} (h : s.cm.subst.length < Config.substCap) :
    Path k s (substitute fl a b s) := by
  unfold substitute
  extract_lets s1 s2
  have h0 : Path k s (markFailed a (activateStandby a b s)) := (setEntry_path _ _ _).trans (markFailed_path _ _)
  have h1 : Path k s s1 := by
    refine h0.trans (Tame.path ⟨rfl, fun x => { x with subst := ?_ }⟩)
    simpa [s1, listSubst, markFailed, activateStandby, setEntry, setChan] using h
  have h2 : Path k s s2 := h1.trans ((resetRuntime_path hfl _ _).trans (goneAll_path hfl _ _ _))
  exact h2.trans <| (setFlag_path _ _).trans <| (captureFail_path _ _ _).trans <|
    (determineEncoder_path hfl _).trans (formBand_path _)

theorem failPlain_path (c : Nat) (s : State) : Path k s (failPlain fl c s) := by
  unfold failPlain
  extract_lets s1 _ s2 _ s3 s4 _ s5
  have h1 : Path k s s1 := (markFailed_path _ _).trans (goneAll_path hfl _ _ _)
  have h2 : Path k s s2 := by
    refine h1.trans (Tame.path ⟨rfl, fun x => { x with subst := ?_ }⟩)
    exact (List.length_filter_le _ _).trans x.subst
  have h3 : Path k s s3 := h2.trans (.ite (fun _ => Move.path (.still _ ⟨rfl, rfl, rfl⟩)) fun _ => .refl)
  have h4 : Path k s s4 := h3.trans ((determineEncoder_path hfl _).trans (captureFail_path _ _ _))
  have h5 : Path k s s5 := h4.trans (setRt_path _ _ _)
  exact h5.trans ((raiseF_path hfl _ _).trans (formBand_path _))

theorem failChannel_path (c : Nat) (s : State) : Path k s (failChannel fl c s) := by
  unfold failChannel
  split
  · exact .ite (fun h => substitute_path hfl _ _ h) fun _ => (setFlag_path _ _).trans (failPlain_path hfl _ _)
  · exact failPlain_path hfl _ _

theorem endBypass_path (c : Nat) (s : State) : Path k s (endBypass fl c s) :=
  ((Move.unbypass c).path.trans (hfl _ _)).trans (setFlag_path _ _)

theorem raiseAgain_path (c : Nat) (s : State) : Path k s (raiseAgain fl c s) := by
  unfold raiseAgain
  extract_lets cls s1
  have h1 : Path k s s1 := by
    unfold s1
    split
    · exact raiseF_path hfl _ _
    · exact raiseF_path hfl _ _
    · exact .refl
    · exact .refl
  exact h1.trans (.ite (fun _ => raiseF_path hfl _ _) fun _ => .refl)

theorem testStale_path (c old : Nat) (s : State) : Path k s (testStale fl c old s) := by
  unfold testStale
  exact .ite (fun _ => failChannel_path hfl _ _) fun _ => .refl

theorem applyChan_path (c : Nat) (e : ChanEntry) (s : State) : Path k s (applyChan fl c e s) := by
  unfold applyChan
  extract_lets o moved s1 s2 s3 _ s4 s5 s6 _ s7 s8
  have h1 : Path k s s1 := setEntry_path _ _ _
  have h2 : Path k s s2 :=
    h1.trans (.ite (fun _ => (resetRuntime_path hfl _ _).trans (staleGone_path hfl _ _)) fun _ => .refl)
  have h3 : Path k s s3 := h2.trans ((goneAll_path hfl _ _ _).trans (staleGone_path hfl _ _))
  have h4 : Path k s s4 := .ite (fun _ => h3.trans (setRt_path _ _ _)) fun _ => h2
  have h5 : Path k s s5 := h4.trans (.ite (fun _ => raiseAgain_path hfl _ _) fun _ => .refl)
  have h6 : Path k s s6 := h5.trans (.ite (fun _ => endBypass_path hfl _ _) fun _ => .refl)
  have h7 : Path k s s7 := h6.trans (.ite (fun _ => .quiet rfl rfl) fun _ => .refl)
  have h8 : Path k s s8 :=
    h7.trans (.ite (fun _ => (determineEncoder_path hfl _).trans (formBand_path _)) fun _ => .refl)
  exact (h8.trans (captureWritten_path _ _)).trans (testStale_path hfl _ _ _)

theorem startTimeout_path (s : State) : Path k s (startTimeout fl s) := raiseF_path hfl _ _

theorem stopTimeout_path (s : State) : Path k s (stopTimeout fl s) := raiseF_path hfl _ _

theorem autoSlowOut_path (s : State) : Path k s (autoSlowOut fl s) := by
  refine .trans ?_ (raiseF_path hfl _ _)
  exact .quiet rfl rfl

theorem applyIdleSlow_path (o : LineParams) (s : State) : Path k s (applyIdleSlow fl o s) := by
  unfold applyIdleSlow
  split
  · refine .trans ?_ (goneF_path hfl _ _ _)
    exact .quiet rfl rfl
  · exact .ite (fun _ => autoSlowOut_path hfl _) fun _ => .ite (fun _ => .quiet rfl rfl) fun _ => .refl

theorem applyLine_path {p : LineParams} (hp : p.inRange = true) (s : State) : Path k s (applyLine fl p s) := by
  unfold applyLine
  extract_lets o s1 s2 s3 s4 s5 s6
  have h1 : Path k s s1 := (Move.params p hp).path
  have h2 : Path k s s2 := h1.trans (.ite (fun _ => startTimeout_path hfl _) fun _ => .refl)
  have h3 : Path k s s3 := h2.trans (.ite (fun _ => stopTimeout_path hfl _) fun _ => .refl)
  have h4 : Path k s s4 := h3.trans (.ite (fun _ => applyIdleSlow_path hfl _ _) fun _ => .refl)
  have h5 : Path k s s5 := h4.trans (.ite (fun _ => sendLaunchRel_path _) fun _ => .refl)
  have h6 : Path k s s6 := h5.trans (.ite (fun _ => evalRelease_path _) fun _ => .refl)
  exact h6.trans (.ite (fun _ => formWarning_path _) fun _ => .refl)

theorem applyLoaded_path (r : MemRecord) (s : State) : Path k s (applyLoaded fl r s) := by
  unfold applyLoaded
  split
  · split
    · exact applyChan_path hfl _ _ _
    · exact .refl
  · split
    · rename_i h
      exact applyLine_path hfl (validLine_inRange h) _
    · exact .refl

end Follow

/-! ## What follows a line state change -/

theorem followInner_path (b a : State) : Path k a (followInner b a) := by
  unfold followInner
  exact .ite (fun _ => .refl) fun _ => evalRelease_path _

theorem applyDeferred_path (s : State) : Path k s (applyDeferred s) := by
  unfold applyDeferred
  extract_lets s1
  have h1 : Path k s s1 := .foldl _ (fun t r => applyLoaded_path followInner_path r t) s
  refine .ite (fun _ => .refl) fun _ => h1.trans (.trans ?_ (setFlag_path _ _))
  exact Tame.path ⟨rfl, fun b =>
    { b with deferred := (Nat.add_le_add_right (Nat.zero_le _) _).trans b.deferred }⟩

theorem follow_path (b a : State) : Path k a (follow b a) := by
  unfold follow
  exact .ite (fun _ => .refl) fun _ => .ite (fun _ => (applyDeferred_path a).trans (evalRelease_path _)) fun _ =>
    evalRelease_path _

theorem raise_path (f : Raise) (s : State) : Path k s (raise f s) := raiseF_path follow_path f s

theorem gone_path (src : Source) (code : FaultCode) (s : State) : Path k s (gone src code s) :=
  goneF_path follow_path src code s

end Sys2Proof.Machine
end

