-- ==== Sys2Proof/Laws/PathsCalls.lean ====
section
/-! SUPPORT. CS's operations (Machine/Calls.lean) take paths of moves. -/

namespace Sys2Proof.Machine

variable {k : Allow}

/-! ## Frames to the phones -/

theorem sendCall_path (h : Nat) (payload : List Byte) (s : State) : Path k s (sendCall h payload s) := by
  unfold sendCall
  exact .ite (fun _ => .refl) fun _ => offerVoice_path _ _

theorem sendStanding_path (h : Nat) (st : Standing) (cause : Cause) (s : State) :
    Path k s (sendStanding h st cause s) := sendCall_path _ _ _

theorem sendPhone_path (st : Standing) (cause : Cause) (s : State) : Path k s (sendPhone st cause s) := by
  unfold sendPhone
  split
  · exact sendStanding_path _ _ _ _
  · exact .refl

/-! ## The call record and its signalling -/

theorem setCall_path (st : CallState) (phone : Option Nat) (prio : Priority) (s : State) :
    Path k s (setCall st phone prio s) := by
  unfold setCall
  extract_lets old s1 _ s2
  have h1 : Path k s s1 := .ite (fun _ => .foldl _ (fun t h => sendCall_path h _ t) s) fun _ => .refl
  have h2 : Path k s s2 := by
    refine h1.trans (Tame.path ⟨rfl, fun b => { b with linkVoice := ?_ }⟩)
    have := b.linkVoice
    unfold s2
    dsimp only
    split
    · exact Nat.zero_le _
    · exact this
  exact .ite (fun _ => h2.trans (setFlag_path _ _)) fun _ => h2

theorem setBacklog_path {q : List Message} {s : State} (h : q.length ≤ s.cs.backlog.length ∨ q.length ≤ Config.waitingCap) :
    Path k s (setBacklog q s) :=
  Tame.path ⟨rfl, fun b => { b with backlog := h.elim (fun h => h.trans b.backlog) id }⟩

/-- R152: a message joins the backlog within its capacity. -/
theorem backlogJoin_path (m : Message) (s : State) : Path k s (setBacklog (backlogJoin m s.cs.backlog) s) := by
  refine Tame.path ⟨rfl, fun b => { b with backlog := ?_ }⟩
  have hb := b.backlog
  show (backlogJoin m s.cs.backlog).length ≤ _
  unfold backlogJoin
  rw [List.length_append, List.length_singleton]
  split
  · rename_i hc
    have : (discardClear s.cs.backlog).length + 1 ≤ s.cs.backlog.length := by
      unfold discardClear
      split
      · rename_i h
        rw [List.length_eraseP, if_pos h]
        simp only [Config.waitingCap] at hc
        omega
      · rw [List.length_drop]
        simp only [Config.waitingCap] at hc
        omega
    exact this.trans hb
  · rename_i hc
    exact Nat.not_le.1 hc

/-- An offered message, taken or not, is a path. -/
theorem txOffer_path_of {m : Message} {s t : State} {b : Bool} (h : txOffer m s = (b, t)) : Path k s t := by
  have := txOffer_path (k := k) m s
  rwa [h] at this

theorem formCallMsg_path (m : Message) (s : State) : Path k s (formCallMsg m s) := by
  unfold formCallMsg
  refine .ite (fun _ => ?_) fun _ => backlogJoin_path _ _
  split
  rename_i h
  exact (txOffer_path_of h).trans (.ite (fun _ => .refl) fun _ => backlogJoin_path _ _)

theorem drainBacklog_path {ms : List Message} {s : State} (hm : s.cs.backlog = ms) : Path k s (drainBacklog ms s) := by
  induction ms generalizing s with
  | nil => exact .refl
  | cons m ms ih =>
    unfold drainBacklog
    split
    rename_i s1 h
    have h1 : s1.cs.backlog = m :: ms := by
      have : s1.cs = s.cs := by
        have := txOffer_cs m s
        rwa [h] at this
      rw [this, hm]
    exact (txOffer_path_of h).trans
      (.ite (fun _ => (setBacklog_path (.inl (by rw [h1]; simp))).trans (ih rfl)) fun _ => .refl)

theorem csDrain_path (s : State) : Path k s (csDrain s) := drainBacklog_path rfl

theorem signalClear_path (cause : Cause) (s : State) : Path k s (signalClear cause s) := by
  unfold signalClear
  extract_lets unseen s1
  have h1 : Path k s s1 := setBacklog_path (.inl (List.length_filter_le _ _))
  exact .ite (fun _ => h1) fun _ => h1.trans (formCallMsg_path _ _)

theorem endCall_path (cause : Cause) (s : State) : Path k s (endCall cause s) :=
  (sendPhone_path _ _ _).trans (setCall_path _ _ _ _)

/-! ## Starting, waiting and serving -/

theorem startOutgoing_path (h : Nat) (p : Priority) (s : State) : Path k s (startOutgoing h p s) := by
  unfold startOutgoing
  extract_lets s1 _ s2
  have h1 : Path k s s1 := setCall_path _ _ _ _
  have h2 : Path k s s2 := h1.trans (.quiet rfl rfl)
  exact h2.trans ((formCallMsg_path _ _).trans (sendStanding_path _ _ _ _))

/-- A change of the waiting list that keeps it within its capacity. -/
theorem waiting_path {s : State} {l : List WaitReq} (h : l.length ≤ Config.waitingCap) :
    Path k s { s with cs := { s.cs with waiting := l } } :=
  Tame.path ⟨rfl, fun b => { b with waiting := h }⟩

/-- A change of the waiting list that does not lengthen it. -/
theorem waiting_shrink_path {s : State} {l : List WaitReq} (h : l.length ≤ s.cs.waiting.length) :
    Path k s { s with cs := { s.cs with waiting := l } } :=
  Tame.path ⟨rfl, fun b => { b with waiting := h.trans b.waiting }⟩

theorem serve_path (s : State) : Path k s (serve s) := by
  unfold serve
  split
  · rename_i w ws hw
    exact .ite (fun _ => (waiting_shrink_path (by simp [hw])).trans (startOutgoing_path _ _ _)) fun _ => .refl
  · exact .refl

theorem length_insertReq (r : WaitReq) (l : List WaitReq) : (insertReq r l).length = l.length + 1 := by
  unfold insertReq
  split
  · have : ∀ q : List WaitReq, (q.filter (fun x => x.priority == .emergency)).length
        + (q.filter (fun x => x.priority != .emergency)).length = q.length := by
      intro q
      induction q with
      | nil => rfl
      | cons x xs ih =>
        simp only [List.filter_cons]
        cases x.priority <;> simp <;> omega
    simp only [List.length_append, List.length_singleton]
    have := this l
    omega
  · simp

theorem joinWaiting_path (h : Nat) (p : Priority) (s : State) : Path k s (joinWaiting h p s) := by
  unfold joinWaiting
  extract_lets l join
  have hj : ∀ (l' : List WaitReq) (t : State), l'.length < Config.waitingCap → Path k t (join l' t) := by
    intro l' t hl
    refine .trans (waiting_path ?_) (sendStanding_path _ _ _ _)
    rw [length_insertReq]
    exact hl
  refine .ite (fun hl => hj _ _ hl) fun hl => ?_
  split
  · rename_i w hw
    refine .ite (fun _ => ?_) fun _ => sendStanding_path _ _ _ _
    by_cases hc : l.length ≤ Config.waitingCap
    · refine (sendStanding_path _ _ _ _).trans (hj _ _ ?_)
      have : l ≠ [] := by
        intro h0
        simp [h0] at hw
      have := List.length_pos_iff.2 this
      simp only [List.length_dropLast]
      omega
    · refine (sendStanding_path w.phone .busy .normal s).trans ?_
      simp only [join]
      refine .trans ?_ (sendStanding_path _ _ _ _)
      refine Tame.path ⟨rfl, fun b => ?_⟩
      have hb := b.waiting
      have : (sendStanding w.phone .busy .normal s).cs = s.cs := by
        unfold sendStanding sendCall
        split <;> simp
      rw [this] at hb
      exact absurd hb hc
  · exact sendStanding_path _ _ _ _

theorem preempt_path (h : Nat) (s : State) : Path k s (preempt h s) :=
  (signalClear_path _ _).trans ((endCall_path _ _).trans (startOutgoing_path _ _ _))

theorem answerCall_path (h : Nat) (s : State) : Path k s (answerCall h s) := by
  unfold answerCall
  extract_lets s1
  have h1 : Path k s s1 := setCall_path _ _ _ _
  exact h1.trans ((formCallMsg_path _ _).trans (sendStanding_path _ _ _ _))

theorem offHook_path (h : Nat) (s : State) : Path k s (offHook h s) := by
  unfold offHook
  extract_lets p
  refine .ite (fun _ => sendStanding_path _ _ _ _) fun _ => .ite (fun _ => sendStanding_path _ _ _ _) fun _ => ?_
  split
  · exact .ite (fun _ => startOutgoing_path _ _ _) fun _ => joinWaiting_path _ _ _
  · exact answerCall_path _ _
  · exact .ite (fun _ => preempt_path _ _) fun _ => joinWaiting_path _ _ _
  · exact .ite (fun _ => preempt_path _ _) fun _ => joinWaiting_path _ _ _

theorem onHook_path (h : Nat) (s : State) : Path k s (onHook h s) := by
  unfold onHook
  refine .ite (fun _ => (signalClear_path _ _).trans ((endCall_path _ _).trans (serve_path _))) fun _ =>
    .ite (fun _ => .trans (waiting_shrink_path ?_) (sendStanding_path _ _ _ _)) fun _ => .refl
  exact List.length_filter_le _ _

theorem callFrame_path (src : Byte) (payload : List Byte) (s : State) : Path k s (callFrame src payload s) := by
  unfold callFrame
  split
  · exact offHook_path _ _
  · exact onHook_path _ _
  · exact .refl

theorem voiceFrame_path (src : Byte) (payload : List Byte) (s : State) : Path k s (voiceFrame src payload s) := by
  unfold voiceFrame
  split
  · refine .ite (fun _ => ?_) fun _ => .refl
    extract_lets q
    refine Tame.path ⟨rfl, fun b => { b with linkVoice := ?_ }⟩
    have := b.linkVoice
    by_cases h : Config.voiceCap ≤ s.cs.voice.length
    · simp only [q, h, if_true, List.length_append, List.length_drop, List.length_singleton]
      simp only [Config.voiceCap] at *
      omega
    · simp only [q, h, if_false, List.length_append, List.length_singleton]
      omega
  · exact .refl

/-! ## Messages from the summit -/

theorem dropPresent_path (s : State) : Path k s (dropPresent s) :=
  setBacklog_path (.inl (List.length_filter_le _ _))

theorem summitClear_path (cause : Cause) (s : State) : Path k s (summitClear cause s) := by
  unfold summitClear
  exact .ite (fun _ => .refl) fun _ => (dropPresent_path _).trans ((endCall_path _ _).trans (serve_path _))

theorem ringGroup_path (s : State) : Path k s (ringGroup s) := by
  unfold ringGroup
  refine .foldl _ (fun t h => ?_) s
  extract_lets t1
  have h1 : Path k t t1 := sendCall_path _ _ _
  exact h1.trans (.ite (fun _ => .refl) fun _ => .quiet rfl rfl)

theorem startIncoming_path (q : Priority) (s : State) : Path k s (startIncoming q s) := by
  unfold startIncoming
  extract_lets s1
  have h1 : Path k s s1 := setCall_path _ _ _ _
  refine h1.trans (.trans ?_ (ringGroup_path _))
  exact .quiet rfl rfl

theorem connectCall_path (p : Priority) (s : State) : Path k s (connectCall p s) :=
  (setCall_path _ _ _ _).trans (sendPhone_path _ _ _)

theorem ringTaken_path (q : Priority) (s : State) : Path k s (ringTaken q s) := by
  unfold ringTaken
  split
  · exact startIncoming_path _ _
  · exact connectCall_path _ _
  · exact .refl
  · exact .refl

theorem summitRing_path (q : Priority) (s : State) : Path k s (summitRing q s) := by
  unfold summitRing
  exact .ite (fun _ => (summitClear_path _ _).trans (ringTaken_path _ _)) fun _ => ringTaken_path _ _

theorem summitAnswer_path (s : State) : Path k s (summitAnswer s) := by
  unfold summitAnswer
  exact .ite (fun _ => connectCall_path _ _) fun _ => .refl

theorem summitVoice_path (block : List Byte) (s : State) : Path k s (summitVoice block s) := by
  unfold summitVoice
  split
  · exact .ite (fun _ => .refl) fun _ => offerVoice_path _ _
  · exact .refl

/-! ## Timers, the link, phone entries -/

theorem ringOut_path (s : State) : Path k s (ringOut s) := by
  unfold ringOut
  split
  · exact (reach_path _ _).trans ((signalClear_path _ _).trans ((endCall_path _ _).trans (serve_path _)))
  · exact .refl

theorem ringAgain_path (s : State) : Path k s (ringAgain s) := by
  unfold ringAgain
  split
  · extract_lets s1
    have h1 : Path k s s1 := reach_path _ _
    refine h1.trans (.trans ?_ (ringGroup_path _))
    exact .quiet rfl rfl
  · exact .refl

theorem csLinkLost_path (s : State) : Path k s (csLinkLost s) := by
  unfold csLinkLost
  extract_lets s1
  have h1 : Path k s s1 := .ite (fun _ => .refl) fun _ => endCall_path _ _
  exact h1.trans (setBacklog_path (.inl (Nat.zero_le _)))

theorem csLinkUp_path (s : State) : Path k s (csLinkUp s) := serve_path s

theorem applyPhone_path (h : Nat) (e : Phone) (s : State) : Path k s (applyPhone h e s) := .quiet rfl rfl

end Sys2Proof.Machine
end

