-- ==== Sys2Proof/Laws/PathsDoors.lean ====
section
/-! SUPPORT. DS's operations (Machine/Doors.lean) and the timers of Machine/Event.lean take paths of moves. -/

namespace Sys2Proof.Machine

variable {k : Allow}

theorem setDoor_path (j : Nat) (d : Door) (s : State) : Path k s (setDoor j d s) := .quiet rfl rfl

theorem setBerth_path (j : Nat) (b : Berth) (s : State) : Path k s (setBerth j b s) := .quiet rfl rfl

theorem unwait_path (j : Nat) (s : State) : Path k s (unwait j s) := .quiet rfl rfl

theorem markDesk_path (j : Nat) (t : DeskTarget) (s : State) : Path k s (markDesk j t s) := setDoor_path _ _ _

/-! ## Commands -/

theorem placeCommand_path (j : Nat) {s : State} (h : s.doorRoom = true) : Path k s (placeCommand j s) := by
  unfold placeCommand
  extract_lets b
  split
  · exact .refl
  · exact (setDoor_path _ _ _).trans (joinDoor_path _ h)

theorem offerCommand_path (j : Nat) (s : State) : Path k s (offerCommand j s) := by
  unfold offerCommand
  exact .ite (fun h => placeCommand_path j h) fun _ => .quiet rfl rfl

theorem recordCommand_path (j : Nat) (cmd : DoorCmd) (st : DoorState) (s : State) :
    Path k s (recordCommand j cmd st s) := (setDoor_path _ _ _).trans (unwait_path _ _)

theorem formOpen_path (j : Nat) (st : DoorState) (kind : DwellKind) (s : State) : Path k s (formOpen j st kind s) := by
  unfold formOpen
  extract_lets s1
  have h1 : Path k s s1 := recordCommand_path _ _ _ _
  exact h1.trans ((setDoor_path _ _ _).trans (offerCommand_path _ _))

theorem placeLongestWaiting_path (s : State) : Path k s (placeLongestWaiting s) := by
  unfold placeLongestWaiting
  refine .ite (fun _ => .refl) fun _ => ?_
  extract_lets _ s1
  have h1 : Path k s s1 := .quiet rfl rfl
  clear_value s1
  by_cases hr : s1.doorRoom = true
  · rw [hr]
    simp only [Bool.not_true, Bool.false_eq_true, if_false]
    split
    · exact h1
    · rename_i w ws _
      have h2 : Path k s { s1 with ds := { s1.ds with waiting := ws } } := h1.trans (.quiet rfl rfl)
      refine h2.trans ?_
      cases w with
      | command j => exact placeCommand_path _ hr
      | warning dest set =>
        refine .trans ?_ (joinDoor_path _ hr)
        exact .quiet rfl rfl
  · simp only [hr]
    exact h1

/-! ## The gather and the ways to OPEN, PENDING and FAULT -/

theorem settleGather_path (s : State) : Path k s (settleGather s) := by
  unfold settleGather
  exact .ite (fun _ => .refl) fun _ => .quiet rfl rfl

theorem becomePending_path (j : Nat) (s : State) : Path k s (becomePending j s) := .quiet rfl rfl

theorem openWithDwell_path (j : Nat) (s : State) : Path k s (openWithDwell j s) :=
  (setDoor_path _ _ _).trans (settleGather_path _)

theorem foundOpen_path (j : Nat) (s : State) : Path k s (foundOpen j s) := by
  unfold foundOpen
  exact .ite (fun _ => openWithDwell_path _ _) fun _ => becomePending_path _ _

theorem foundMoving_path (j : Nat) (st : DoorState) (s : State) : Path k s (foundMoving j st s) := setDoor_path _ _ _

theorem doorFault_path (j : Nat) (s : State) : Path k s (doorFault j s) := by
  unfold doorFault
  extract_lets d s1
  have h1 : Path k s s1 := (setDoor_path _ _ _).trans (unwait_path _ _)
  exact h1.trans ((settleGather_path _).trans ((raise_path _ _).trans (setFlag_path _ _)))

theorem reachMark_path (j : Nat) (t : DeskTarget) (s : State) : Path k s (reachMark j t s) := by
  unfold reachMark
  exact .ite (fun _ => (setDoor_path _ _ _).trans (setFlag_path _ _)) fun _ => .refl

theorem reachOpen_path (j : Nat) (s : State) : Path k s (reachOpen j s) := by
  unfold reachOpen
  extract_lets e _ s1 d
  have h1 : Path k s s1 := (setDoor_path _ _ _).trans ((unwait_path _ _).trans (reachMark_path _ _ _))
  exact .ite (fun _ => h1.trans ((setDoor_path _ _ _).trans (becomePending_path _ _))) fun _ =>
    .ite (fun _ => h1.trans (setDoor_path _ _ _)) fun _ => h1.trans (setDoor_path _ _ _)

theorem sendLocked_path (j : Nat) (s : State) : Path k s (sendLocked j s) := by
  unfold sendLocked
  exact .ite (fun _ => noticeLocked_path _ _ _) fun _ => .refl

theorem sendOpened_path (j : Nat) (s : State) : Path k s (sendOpened j s) := by
  unfold sendOpened
  exact .ite (fun _ => noticeLocked_path _ _ _) fun _ => .refl

theorem reachClosed_path (j : Nat) (s : State) : Path k s (reachClosed j s) := by
  unfold reachClosed
  extract_lets _ s1
  have h1 : Path k s s1 := (setDoor_path _ _ _).trans (unwait_path _ _)
  exact h1.trans ((reachMark_path _ _ _).trans (sendLocked_path _ _))

theorem obstruction_path (j : Nat) (s : State) : Path k s (obstruction j s) := by
  unfold obstruction
  extract_lets b _ s1
  have h1 : Path k s s1 := setDoor_path _ _ _
  exact h1.trans (.ite (fun _ => doorFault_path _ _) fun _ => (formOpen_path _ _ _ _).trans (sendOpened_path _ _))

/-! ## The automatic cycle -/

theorem openForCabin_path (j : Nat) (s : State) : Path k s (openForCabin j s) := by
  unfold openForCabin
  extract_lets d full
  split
  · exact (formOpen_path _ _ _ _).trans (noticeLocked_path _ _ _)
  · exact (formOpen_path _ _ _ _).trans (noticeLocked_path _ _ _)
  · exact (setDoor_path _ _ _).trans (noticeLocked_path _ _ _)
  · exact (setDoor_path _ _ _).trans (noticeLocked_path _ _ _)
  · exact (setDoor_path _ _ _).trans (noticeLocked_path _ _ _)
  · exact (openWithDwell_path _ _).trans (noticeLocked_path _ _ _)
  · exact setDoor_path _ _ _

theorem openDelayOut_path (j : Nat) (s : State) : Path k s (openDelayOut j s) :=
  (setDoor_path _ _ _).trans ((openForCabin_path _ _).trans (updateWarning_path _ _))

theorem berthEntered_path (j id : Nat) (s : State) : Path k s (berthEntered j id s) := by
  unfold berthEntered
  exact .ite (fun _ => .ite (fun _ => (setDoor_path _ _ _).trans (openDelayOut_path _ _)) fun _ => setDoor_path _ _ _)
    fun _ => setDoor_path _ _ _

theorem berthVacated_path (j : Nat) (s : State) : Path k s (berthVacated j s) := setDoor_path _ _ _

/-! ## Statuses -/

theorem firstStatus_path (j : Nat) (st : DoorStatus) (s : State) : Path k s (firstStatus j st s) := by
  unfold firstStatus
  split
  · exact .refl
  · exact foundOpen_path _ _
  · exact foundMoving_path _ _ _
  · exact foundMoving_path _ _ _
  · exact formOpen_path _ _ _ _
  · exact doorFault_path _ _

theorem judgeStatus_path (j : Nat) (st : DoorStatus) (s : State) : Path k s (judgeStatus j st s) := by
  unfold judgeStatus
  split <;> first
    | exact .refl
    | exact doorFault_path _ _
    | exact setDoor_path _ _ _
    | exact reachOpen_path _ _
    | exact reachClosed_path _ _
    | exact obstruction_path _ _

theorem toggleCheck_path (j : Nat) (prev : Option (DoorStatus × Bool)) (st : DoorStatus) (tog : Bool) (s : State) :
    Path k s (toggleCheck j prev st tog s) := by
  unfold toggleCheck
  extract_lets d n s1
  have h1 : Path k s s1 := setDoor_path _ _ _
  exact .ite (fun _ => .refl) fun _ => h1.trans (.ite (fun _ => doorFault_path _ _) fun _ => .refl)

theorem takeStatus_path (j : Nat) (st : DoorStatus) (tog : Bool) (s : State) : Path k s (takeStatus j st tog s) := by
  unfold takeStatus
  extract_lets d s1 s2
  have h1 : Path k s s1 := setDoor_path _ _ _
  have h2 : Path k s s2 := h1.trans (.ite (fun _ => firstStatus_path _ _ _) fun _ => judgeStatus_path _ _ _)
  exact h2.trans ((toggleCheck_path _ _ _ _ _).trans (updateWarning_path _ _))

theorem doorStatus_path (src : Byte) (payload : List Byte) (s : State) : Path k s (doorStatus src payload s) := by
  unfold doorStatus
  split
  · exact takeStatus_path _ _ _ _
  · exact .refl

/-! ## Timers -/

theorem dwellOut_path (j : Nat) (s : State) : Path k s (dwellOut j s) := by
  unfold dwellOut
  split
  · exact (reach_path _ _).trans (becomePending_path _ _)
  · exact .refl
  · exact .refl

theorem closeGather_path (s : State) : Path k s (closeGather s) := by
  unfold closeGather
  extract_lets js s1 _ s2
  have h1 : Path k s s1 := .foldl _ (fun t j => recordCommand_path j .close .closing t) s
  have h2 : Path k s s2 := by
    refine h1.trans (.trans ?_ (updateWarning_path _ _))
    exact .quiet rfl rfl
  exact h2.trans (.foldl _ (fun t j => offerCommand_path j t) s2)

theorem ackOut_path (j : Nat) (s : State) : Path k s (ackOut j s) := by
  unfold ackOut
  split
  · exact .refl
  · extract_lets _ s1
    have h1 : Path k s s1 := (reach_path _ _).trans (setDoor_path _ _ _)
    clear_value s1
    split
    · refine h1.trans (.ite (fun h => placeCommand_path _ h) fun _ => ?_)
      extract_lets s2
      have h2 : Path k s1 s2 := setDoor_path _ _ _
      exact h2.trans (.quiet rfl rfl)
    · exact h1.trans ((doorFault_path _ _).trans (updateWarning_path _ _))

theorem motionOut_path (j : Nat) (s : State) : Path k s (motionOut j s) := by
  unfold motionOut
  split
  · exact .refl
  · exact (reach_path _ _).trans ((doorFault_path _ _).trans (updateWarning_path _ _))

/-! ## Desk requests -/

theorem release_path {j : Nat} {s t : State} (h : release j s = some t) : Path k s t := by
  unfold release at h
  extract_lets d d0 at h
  split at h <;> simp only [Option.some.injEq, reduceCtorEq] at h <;> subst h
  · exact setDoor_path _ _ _
  · exact setDoor_path _ _ _
  · exact setDoor_path _ _ _
  · exact setDoor_path _ _ _
  · exact (setDoor_path _ _ _).trans (becomePending_path _ _)
  · exact setDoor_path _ _ _

theorem holdOut_path (j : Nat) (s : State) : Path k s (holdOut j s) := by
  unfold holdOut
  split
  · exact .refl
  · extract_lets s1
    have h1 : Path k s s1 := reach_path _ _
    clear_value s1
    cases h : release j s1 with
    | none => exact h1
    | some t => exact h1.trans (release_path h)

theorem deskOpen_path (j : Nat) (s : State) : Path k s (deskOpen j s) := by
  unfold deskOpen
  extract_lets _ s1
  have h1 : Path k s s1 := setDoor_path _ _ _
  exact h1.trans ((formOpen_path _ _ _ _).trans ((markDesk_path _ _ _).trans (noticeLocked_path _ _ _)))

/-- Whatever a judgement accepts is the end of a path. -/
def Accepts (k : Allow) (s : State) (res : Except Reason State) : Prop := ∀ t, res = .ok t → Path k s t

theorem Accepts.error (s : State) (r : Reason) : Accepts k s (.error r) := fun _ h => by cases h

theorem Accepts.ok {s t : State} (h : Path k s t) : Accepts k s (.ok t) := fun u e => by cases e; exact h

theorem Accepts.ite {s : State} {a b : Except Reason State} {c : Prop} [Decidable c] (h1 : c → Accepts k s a)
    (h2 : ¬ c → Accepts k s b) : Accepts k s (if c then a else b) := by
  by_cases h : c
  · rw [if_pos h]
    exact h1 h
  · rw [if_neg h]
    exact h2 h

theorem requestOpen_path (j : Nat) (s : State) : Accepts k s (requestOpen j s) := by
  unfold requestOpen
  split
  · exact .error _ _
  · extract_lets d full
    refine .ite (fun _ => .error _ _) fun _ => ?_
    split
    · exact .ok (deskOpen_path _ _)
    · exact .ok ((deskOpen_path _ _).trans (updateWarning_path _ _))
    · exact .ok ((setDoor_path _ _ _).trans (markDesk_path _ _ _))
    · exact .ok ((setDoor_path _ _ _).trans (markDesk_path _ _ _))
    · exact .ok (setDoor_path _ _ _)
    · exact .ok (openWithDwell_path _ _)
    · exact .error _ _

theorem requestClose_path (j : Nat) (s : State) : Accepts k s (requestClose j s) := by
  unfold requestClose
  split
  · exact .error _ _
  · extract_lets _ d
    split
    · exact .ok .refl
    · exact .ok ((setDoor_path _ _ _).trans (markDesk_path _ _ _))
    · exact .ok ((setDoor_path _ _ _).trans (markDesk_path _ _ _))
    · exact .ok ((setDoor_path _ _ _).trans ((becomePending_path _ _).trans (markDesk_path _ _ _)))
    · exact .ok .refl
    · exact .ok .refl
    · exact .error _ _

theorem requestHold_path (j : Nat) (s : State) : Accepts k s (requestHold j s) := by
  unfold requestHold
  split
  · exact .error _ _
  · extract_lets _ d d1 s1
    split
    · exact .error _ _
    · exact .ok (setDoor_path _ _ _)
    · exact .ok (setDoor_path _ _ _)
    · exact .ok (setDoor_path _ _ _)
    · exact .ok ((setDoor_path _ _ _).trans (settleGather_path _))
    · have h1 : Path k s s1 := setDoor_path _ _ _
      exact .ok (h1.trans ((formOpen_path _ _ _ _).trans ((markDesk_path _ _ _).trans
        ((sendOpened_path _ _).trans (updateWarning_path _ _)))))
    · exact .error _ _

theorem requestRelease_path (j : Nat) (s : State) : Accepts k s (requestRelease j s) := by
  unfold requestRelease
  split
  · exact .error _ _
  · split
    · rename_i h
      exact .ok (release_path h)
    · exact .error _ _

theorem requestDoorReset_path (j : Nat) (s : State) : Accepts k s (requestDoorReset j s) := by
  unfold requestDoorReset
  refine .ite (fun _ => .error _ _) fun _ => ?_
  extract_lets d s1 _
  split
  · rename_i st tog _ _
    refine .ite (fun _ => .error _ _) fun _ => ?_
    extract_lets s2 _ s3
    have h1 : Path k s s1 := (setDoor_path _ _ _).trans (gone_path _ _ _)
    have h2 : Path k s s2 := by
      refine h1.trans ?_
      unfold s2
      split
      · exact (setDoor_path _ _ _).trans (sendLocked_path _ _)
      · exact foundOpen_path _ _
      · exact foundMoving_path _ _ _
      · exact foundMoving_path _ _ _
      · exact (formOpen_path _ _ _ _).trans (sendOpened_path _ _)
      · exact .refl
    have h3 : Path k s s3 :=
      h2.trans (.ite (fun _ => (setDoor_path _ _ _).trans (openForCabin_path _ _)) fun _ => .refl)
    exact .ok (h3.trans (updateWarning_path _ _))
  · exact .error _ _

theorem applyBerth_path (j : Nat) (e : BerthEntry) (s : State) : Path k s (applyBerth j e s) := by
  unfold applyBerth
  extract_lets b o d0 d
  exact .ite (fun _ => (setBerth_path _ _ _).trans (gone_path _ _ _)) fun _ => setBerth_path _ _ _

/-! ## The timers a command runs out -/

theorem forBerth_path {j : Nat} {f : Nat → State → State} {s : State} (h : Path k s (f j s)) :
    Path k s (forBerth j f s) := by
  unfold forBerth
  exact .ite (fun _ => h) fun _ => .refl

theorem startLimitOut_path (s : State) : Path k s (startLimitOut s) := by
  unfold startLimitOut
  split
  · exact (reach_path _ _).trans (startTimeout_path follow_path _)
  · exact .refl

theorem stopLimitOut_path (s : State) : Path k s (stopLimitOut s) := by
  unfold stopLimitOut
  split
  · exact (reach_path _ _).trans (stopTimeout_path follow_path _)
  · exact .refl

theorem autoSlowPeriodOut_path (s : State) : Path k s (autoSlowPeriodOut s) := by
  unfold autoSlowPeriodOut
  split
  · exact (reach_path _ _).trans (autoSlowOut_path follow_path _)
  · exact .refl

theorem refreshOut_path (s : State) : Path k s (refreshOut s) := (reach_path _ _).trans (sendDrive_path _)

theorem openDelayEnd_path (j : Nat) (s : State) : Path k s (openDelayEnd j s) := by
  unfold openDelayEnd
  split
  · exact (reach_path _ _).trans (openDelayOut_path _ _)
  · exact .refl

theorem windowOut_path (s : State) : Path k s (windowOut s) := by
  unfold windowOut
  split
  · exact (reach_path _ _).trans (closeGather_path _)
  · exact .refl

theorem capOut_path (s : State) : Path k s (capOut s) := by
  unfold capOut
  split
  · exact (reach_path _ _).trans (closeGather_path _)
  · exact .refl

end Sys2Proof.Machine
end

