-- ==== Sys2Proof/Laws/PathsTrack.lean ====
section
/-! SUPPORT. CT's operations (Machine/Track.lean) take paths of moves. -/

namespace Sys2Proof.Machine

/-! ## What follows a line event leaves CT's collections -/

@[simp] theorem reducePositions_keys (s : State) :
    (reducePositions s).ct.queue.map Cabin.key = s.ct.queue.map Cabin.key := by
  simp only [reducePositions, List.map_map]
  rfl

theorem writeParams_keys (p : LineParams) (s : State) :
    (writeParams p s).ct.queue.map Cabin.key = s.ct.queue.map Cabin.key := by
  unfold writeParams
  extract_lets _ s1 s2
  have h2 : s2.ct.queue.map Cabin.key = s.ct.queue.map Cabin.key := by
    unfold s2
    split
    · exact reducePositions_keys s1
    · rfl
  split
  · rw [issueDrive_ct]
    exact h2
  · exact h2

@[simp] theorem writeParams_straps (p : LineParams) (s : State) : (writeParams p s).straps = s.straps := by
  unfold writeParams
  extract_lets _ s1 s2
  have h2 : s2.straps = s.straps := by
    unfold s2
    split <;> rfl
  split
  · rw [issueDrive_straps]
    exact h2
  · exact h2

/-- A move of level 0 changes no cabin record's id, identity or zone, and no strap. -/
theorem Move.keys {s t : State} (m : Move Allow.line s t) :
    t.ct.queue.map Cabin.key = s.ct.queue.map Cabin.key ∧ t.straps = s.straps := by
  cases m with
  | tame h => exact ⟨congrArg Watched.queue h.watch, congrArg Watched.straps h.watch⟩
  | raised f => simp
  | gone src code => simp
  | unbypass c => simp
  | params p hp => exact ⟨writeParams_keys p s, writeParams_straps p s⟩
  | still ra hr => exact ⟨rfl, rfl⟩
  | _ => simp_all [Allow.line]

theorem Path.keys {s t : State} (h : Path Allow.line s t) :
    t.ct.queue.map Cabin.key = s.ct.queue.map Cabin.key ∧ t.straps = s.straps := by
  induction h with
  | refl => exact ⟨rfl, rfl⟩
  | tail _ m ih => exact ⟨m.keys.1.trans ih.1, m.keys.2.trans ih.2⟩

/-- The head of LAUNCH is known by the keys. -/
theorem launchHead_of_keys {s t : State} (h : t.ct.queue.map Cabin.key = s.ct.queue.map Cabin.key)
    (hs : t.straps = s.straps) {c : Cabin} (hc : s.launchHead = some c) :
    ∃ d, t.launchHead = some d ∧ d.key = c.key := by
  have hz : t.launchZone = s.launchZone := by simp [State.launchZone, State.berthCount, hs]
  have find_map : ∀ (q : List Cabin) (z : Nat),
      (q.find? (fun c => c.zone == z)).map Cabin.key = (q.map Cabin.key).find? (fun x => x.2.2 == z) := by
    intro q z
    rw [List.find?_map]
    rfl
  have hk : (t.launchHead).map Cabin.key = (s.launchHead).map Cabin.key := by
    simp only [State.launchHead]
    rw [find_map, find_map, h, hz]
  rw [hc] at hk
  cases ht : t.launchHead with
  | none => simp [ht] at hk
  | some d =>
    simp only [ht, Option.map_some, Option.some.injEq] at hk
    exact ⟨d, rfl, hk⟩

/-! ## Records that leave -/

theorem gripGone_path {k : Allow} (id : Nat) (s : State) : Path k s (gripGone id s) := by
  unfold gripGone
  exact .ite (fun _ => .refl) fun _ => gone_path _ _ _

theorem recordGone_path {k : Allow} (c : Cabin) (s : State) : Path k s (recordGone c s) := by
  unfold recordGone
  extract_lets s1
  have h1 : Path k s s1 := .ite (fun _ => gripGone_path _ _) fun _ => .refl
  exact h1.trans (.ite (fun _ => (letGoWaiting_path _).trans (follow_path _ _)) fun _ => .refl)

theorem exitCheck_path {k : Allow} (j : Nat) (s : State) : Path k s (exitCheck j s) := by
  unfold exitCheck
  exact .ite (fun _ => .refl) fun _ => raise_path _ _

theorem olderLeft_path {k : Allow} (o : Option Cabin) (s : State) : Path k s (olderLeft? o s) := by
  unfold olderLeft?
  split
  · unfold olderLeft
    extract_lets s1
    have h1 : Path k s s1 := recordGone_path _ _
    exact h1.trans (.ite (fun _ => (exitCheck_path _ _).trans (berthVacated_path _ _)) fun _ => .refl)
  · exact .refl

/-! ## Cabin entry -/

section Level
variable {k : Allow} (hk : k.moves = true)
include hk

theorem enterUnregistered_path {x : Nat} {s : State} (hr : s.registered x = false)
    (hq : s.ct.queue.length < Config.queueCap) : Path k s (enterUnregistered x s) := by
  unfold enterUnregistered
  refine .ite (fun _ => (Move.path (.anonymous hk hq)).trans (setFlag_path _ _)) fun hx => ?_
  extract_lets s1
  have h1 : Path k s s1 := (Move.path (.foreign hk x hx hr hq)).trans ((setFlag_path _ _).trans (raise_path _ _))
  exact h1.trans ((olderLeft_path _ _).trans (evalRelease_path _))

theorem enterOldest_path {x : Nat} {e : DownEntry} {s : State} (hd : s.ct.downhill.head? = some e) (he : e.id = x)
    (hr : s.registered x = true) (hq : s.ct.queue.length < Config.queueCap) : Path k s (enterOldest x e s) := by
  unfold enterOldest
  extract_lets s1
  have h1 : Path k s s1 := (Move.path (.oldest hk x e hd he hr hq)).trans (setFlag_path _ _)
  exact .ite (fun _ => h1.trans (raise_path _ _)) fun _ => h1

theorem enterOutOfOrder_path {x : Nat} {s : State} (hd : ∃ e ∈ s.ct.downhill, e.id = x)
    (hr : s.registered x = true) (hq : s.ct.queue.length < Config.queueCap) : Path k s (enterOutOfOrder x s) :=
  (Move.path (.outOfOrder hk x hd hr hq)).trans
    ((setFlag_path _ _).trans ((setFlag_path _ _).trans (raise_path _ _)))

theorem enterUnknown_path {x : Nat} {s : State} (hd : ∀ e ∈ s.ct.downhill, e.id ≠ x)
    (hr : s.registered x = true) (hq : s.ct.queue.length < Config.queueCap) : Path k s (enterUnknown x s) := by
  unfold enterUnknown
  extract_lets s1
  have h1 : Path k s s1 := (Move.path (.unknown hk x hd hr hq)).trans ((setFlag_path _ _).trans (raise_path _ _))
  exact h1.trans ((olderLeft_path _ _).trans (evalRelease_path _))

theorem cabinIdEvent_path (x : Nat) (s : State) : Path k s (cabinIdEvent x s) := by
  unfold cabinIdEvent
  refine .ite (fun _ => raise_path _ _) fun hq => .ite (fun hr => ?_) fun hr => ?_
  · exact enterUnregistered_path hk (by simpa using hr) (Nat.lt_of_not_le hq)
  · have hr' : s.registered x = true := by simpa using hr
    have hq' := Nat.lt_of_not_le hq
    split
    · rename_i e rest hd
      refine .ite (fun he => enterOldest_path hk (by simp [hd]) he hr' hq') fun he => .ite (fun ha => ?_) fun ha => ?_
      · refine enterOutOfOrder_path hk ?_ hr' hq'
        simp only [List.any_eq_true, beq_iff_eq] at ha
        obtain ⟨f, hf, hx⟩ := ha
        exact ⟨f, by simp [hd, hf], hx⟩
      · refine enterUnknown_path hk ?_ hr' hq'
        intro f hf
        rw [hd] at hf
        cases hf with
        | head => exact he
        | tail _ hf =>
          intro hx
          exact ha (List.any_eq_true.2 ⟨f, hf, by simp [hx]⟩)
    · rename_i hd
      exact enterUnknown_path hk (by simp [hd]) hr' hq'

/-! ## Zones, grip test, launch -/

theorem zoneMove_path (z : Nat) (s : State) : Path k s (zoneMove z s) := by
  unfold zoneMove
  split
  · exact raise_path _ _
  · rename_i c _
    refine .ite (fun hr => ?_) fun _ => raise_path _ _
    unfold moveInto
    extract_lets left s1 s2
    have h1 : Path k s s1 := Move.path (.zone hk z _ hr)
    have h2 : Path k s s2 :=
      h1.trans (.ite (fun _ => (exitCheck_path _ _).trans (berthVacated_path _ _)) fun _ => .refl)
    exact h2.trans (.ite (fun _ => evalRelease_path _) fun _ => berthEntered_path _ _ _)

omit hk in
/-- A change of one record that keeps its key. -/
theorem modifyFirst_keys {p : Cabin → Bool} {f : Cabin → Cabin} (hf : ∀ c, (f c).key = c.key) (q : List Cabin) :
    (modifyFirst p f q).map Cabin.key = q.map Cabin.key := by
  induction q with
  | nil => rfl
  | cons c cs ih =>
    unfold modifyFirst
    split
    · simp [hf]
    · simp [ih]

omit hk in
theorem gripMark_path (force : Word16) (ok : Bool) (s : State) : Path k s (gripMark force ok s) := by
  refine queue_path (modifyFirst_keys ?_ _)
  exact fun _ => rfl

omit hk in
theorem gripTest_path (force : Word16) (ok : Bool) (s : State) : Path k s (gripTest force ok s) := by
  unfold gripTest
  split
  · exact (raise_path _ _).trans (evalRelease_path _)
  · refine .trans ?_ (evalRelease_path _)
    exact .ite (fun _ => gripMark_path _ _ _) fun _ => (gripMark_path _ _ _).trans (raise_path _ _)

omit hk in
theorem judgeLaunch_path (c : Cabin) (s : State) : Path k s (judgeLaunch c s) := by
  unfold judgeLaunch
  split
  · exact raise_path _ _
  · exact .refl

omit hk in
theorem launchNotice_path (c : Cabin) (s : State) : Path k s (launchNotice c s) := by
  unfold launchNotice
  refine .ite (fun _ => .refl) fun _ => ?_
  split
  rename_i taken s1 h
  have h1 : Path k s s1 := by
    have := txOffer_path (k := k) { type := msgCabinLaunched, payload := enc2 c.id } s
    rwa [h] at this
  refine h1.trans (.ite (fun _ => .refl) fun _ => .trans ?_ (raise_path _ _))
  exact .quiet rfl rfl

theorem launch_path (s : State) : Path k s (launch s) := by
  unfold launch
  split
  · exact raise_path _ _
  · rename_i c hc
    have h0 : Path Allow.line s (judgeLaunch c s) := judgeLaunch_path c s
    obtain ⟨d, hd, hkey⟩ := launchHead_of_keys h0.keys.1 h0.keys.2 hc
    have h1 : Path k s (launchMove c (judgeLaunch c s)) :=
      (h0.mono (Allow.line_le k)).trans (Move.path (.launched hk c d hd hkey))
    exact h1.trans ((recordGone_path _ _).trans ((launchNotice_path _ _).trans
      ((setFlag_path _ _).trans (evalRelease_path _))))

theorem passageEvent_path (z : Nat) (s : State) : Path k s (passageEvent z s) := by
  unfold passageEvent
  exact .ite (fun _ => launch_path hk _) fun _ => zoneMove_path hk _ _

/-! ## Desk cabin requests and fleet writes -/

theorem requestInsert_path (id : Nat) (s : State) : Accepts k s (requestInsert id s) := by
  unfold requestInsert
  refine .ite (fun _ => .error _ _) fun _ => .ite (fun _ => .error _ _) fun _ => .ite (fun _ => .error _ _) fun h => ?_
  obtain ⟨hl, hq⟩ := not_or.1 h
  exact .ok ((Move.path (.insert hk id (not_not.1 hl) (Nat.lt_of_not_le hq))).trans
    ((setFlag_path _ _).trans (evalRelease_path _)))

theorem requestWithdraw_path (id : Nat) (s : State) : Accepts k s (requestWithdraw id s) := by
  unfold requestWithdraw
  refine .ite (fun _ => .error _ _) fun _ => ?_
  split
  · exact .ite (fun _ => .error _ _) fun _ => .error _ _
  · rename_i c hc
    refine .ite (fun _ => .error _ _) fun _ => .ite (fun _ => .error _ _) fun _ => ?_
    extract_lets s1
    have h1 : Path k s s1 := (Move.path (.withdrawn hk id c hc)).trans (recordGone_path _ _)
    exact .ok (h1.trans ((Path.ite (fun _ => berthVacated_path _ _) fun _ => .refl).trans (evalRelease_path _)))

theorem requestAssign_path (id : Nat) (s : State) : Accepts k s (requestAssign id s) := by
  unfold requestAssign
  refine .ite (fun _ => .error _ _) fun hb => ?_
  split
  · exact .error _ _
  · rename_i c hc
    refine .ite (fun _ => .error _ _) fun hl => ?_
    extract_lets s1
    have h1 : Path k s s1 := Move.path (.assigned hk id c hc (by simpa using hb) (not_not.1 hl))
    exact .ok (h1.trans ((Path.ite (fun _ => (gripGone_path _ _).trans (raise_path _ _)) fun _ => .refl).trans
      (evalRelease_path _)))

omit hk in
theorem retestMark_path (id : Nat) (s : State) : Path k s (retestMark id s) := by
  refine queue_path (modifyFirst_keys ?_ _)
  exact fun _ => rfl

omit hk in
theorem requestRetest_path (id : Nat) (s : State) : Accepts k s (requestRetest id s) := by
  unfold requestRetest
  refine .ite (fun _ => .error _ _) fun _ => ?_
  split
  · exact .error _ _
  · exact .ite (fun _ => .error _ _) fun _ =>
      .ok ((retestMark_path _ _).trans ((gripGone_path _ _).trans (evalRelease_path _)))

theorem requestPlace_path (id : Nat) (loc : Location) (off : Nat) (s : State) :
    Accepts k s (requestPlace id loc off s) := by
  unfold requestPlace
  refine .ite (fun _ => .error _ _) fun hb => .ite (fun _ => .error _ _) fun hl => .ok ?_
  simp only [not_or, not_not, Bool.not_eq_true] at hb hl
  exact (Move.path (.placed hk id loc off hl.2.1 ⟨hb.2.1, hb.2.2.1⟩ hl.2.2)).trans (evalRelease_path _)

theorem fleetWrite_path (loader : Bool) (slot id : Nat) (s : State) : Accepts k s (fleetWrite loader slot id s) := by
  unfold fleetWrite
  refine .ite (fun _ => .error _ _) fun _ => ?_
  split
  · rename_i hs
    refine .ite (fun _ => .ok .refl) fun hx => .ite (fun _ => .error _ _) fun h => .ok (Move.path ?_)
    obtain ⟨hr, hq⟩ := not_or.1 h
    refine .registers hk slot id _ hs (Nat.one_le_iff_ne_zero.2 hx) (by simpa using hr) ?_ ?_
    · intro c hc he
      exact hq (List.any_eq_true.2 ⟨c, hc, by simp [he]⟩)
    · cases loader <;> simp
  · rename_i x hs
    refine .ite (fun _ => .ok .refl) fun _ => .ite (fun h => .ok (Move.path ?_)) fun _ => .error _ _
    exact .unregisters hk slot x hs h.2

/-! ## The summit's cabin notices -/

theorem cabinArrived_path (x : Nat) (s : State) : Path k s (cabinArrived x s) := by
  unfold cabinArrived
  split
  · exact raise_path _ _
  · rename_i e he
    extract_lets s1 s2 s3
    have h1 : Path k s s1 := Move.path (.arrived hk x e he)
    have h2 : Path k s s2 := h1.trans (.ite (fun _ => .refl) fun _ => (setFlag_path _ _).trans (raise_path _ _))
    have h3 : Path k s s3 := h2.trans (.ite (fun _ => raise_path _ _) fun _ => .refl)
    exact h3.trans (evalRelease_path _)

theorem cabinLaunched_path {x : Nat} {s : State} (hf : downhillRefuses x s = false) :
    Path k s (cabinLaunched x s) := by
  unfold cabinLaunched
  split
  · exact raise_path _ _
  · rename_i loc hl
    have hm : Path k s (summitMove x s) := Move.path (.summit hk x (by simp [State.registered, hl]) hf)
    exact .ite (fun _ => hm) fun _ => hm.trans ((raise_path _ _).trans ((olderLeft_path _ _).trans (evalRelease_path _)))

end Level

end Sys2Proof.Machine
end

