-- ==== Sys2Proof/Laws/PathsSummit.lean ====
section
/-! SUPPORT. SL's operations (Machine/Summit.lean) take paths of moves. -/

namespace Sys2Proof.Machine

variable {k : Allow}

theorem setLink_path (st : LinkState) (s : State) : Path k s (setLink st s) := by
  unfold setLink
  refine .ite (fun _ => .refl) fun _ => .trans ?_ (setFlag_path _ _)
  exact .quiet rfl rfl

/-! ## The transmit queue -/

/-- A change of the transmit queue that does not lengthen it. -/
theorem setTx_path {s : State} {q : List TxEntry} (h : q.length ≤ s.sl.txQueue.length) : Path k s (setTx q s) :=
  Tame.path ⟨rfl, fun b => { b with txQueue := h.trans b.txQueue }⟩

theorem reportRemoval_path (s : State) : Path k s (reportRemoval s) := (evalRelease_path _).trans (csDrain_path _)

theorem length_ageQueue (q : List TxEntry) : (ageQueue q).length = q.length := by
  unfold ageQueue
  extract_lets q1
  have h1 : q1.length = q.length := List.length_map _
  clear_value q1
  split
  · split
    · rw [List.length_map, h1]
    · exact h1
  · exact h1

theorem length_takeUnsent (n : Nat) (q : List TxEntry) : (takeUnsent n q).2.length = q.length := by
  induction q generalizing n with
  | nil => simp [takeUnsent]
  | cons e es ih =>
    unfold takeUnsent
    split
    · simp [ih]
    · split
      · rfl
      · simp [ih]

theorem length_renumber (n : Byte) (q : List TxEntry) : (renumber n q).length = q.length := by
  induction q generalizing n with
  | nil => rfl
  | cons e es ih => simp [renumber, ih]

theorem confirm_path (next : Byte) (hold : Bool) (s : State) : Path k s (confirm next hold s) := by
  unfold confirm
  extract_lets c s1
  have h1 : Path k s s1 := by
    refine .ite (fun _ => .refl) fun _ => .trans (setTx_path ?_) (reportRemoval_path _)
    rw [List.length_drop]
    exact Nat.sub_le _ _
  exact h1.trans (.quiet rfl rfl)

theorem resyncQueue_path (restart : Bool) (next : Byte) (s : State) : Path k s (resyncQueue restart next s) := by
  unfold resyncQueue
  extract_lets q _ c s1
  refine .ite (fun _ => ?_) fun _ => ?_
  · refine Tame.path ⟨rfl, fun b => { b with txQueue := ?_ }⟩
    have := b.txQueue
    simpa [length_renumber] using this
  · have h1 : Path k s s1 := by
      refine setTx_path ?_
      simp only [List.length_map, List.length_drop]
      exact Nat.sub_le _ _
    exact .ite (fun _ => h1) fun _ => h1.trans (reportRemoval_path _)

/-! ## Missed turns, loss, syncing -/

theorem enterLost_path (t : Nat) (s : State) : Path k s (enterLost t s) := by
  unfold enterLost
  extract_lets s1 _ s2
  have h1 : Path k s s1 := setLink_path _ _
  have h2 : Path k s s2 := h1.trans (.quiet rfl rfl)
  exact h2.trans ((raise_path _ _).trans ((gone_path _ _ _).trans (csLinkLost_path _)))

theorem missedTurn_path (t : Nat) (s : State) : Path k s (missedTurn t s) := by
  unfold missedTurn
  extract_lets m _ s1
  have h1 : Path k s s1 := .quiet rfl rfl
  exact h1.trans (.ite (fun _ => enterLost_path _ _) fun _ => .ite (fun _ => setLink_path _ _) fun _ => .refl)

theorem enterSyncing_path (s : State) : Path k s (enterSyncing s) := by
  unfold enterSyncing
  extract_lets s1
  have h1 : Path k s s1 := setLink_path _ _
  exact h1.trans (.quiet rfl rfl)

theorem lostPeriodEnd_path (s : State) : Path k s (lostPeriodEnd s) := by
  unfold lostPeriodEnd
  split
  · exact (reach_path _ _).trans (enterSyncing_path _)
  · exact .refl

/-! ## Turns -/

theorem formBurst_path (s : State) : Path k s (formBurst s) := by
  unfold formBurst
  extract_lets voice limit
  split
  rename_i taken q h
  refine Tame.path ⟨rfl, fun b => { b with txQueue := ?_, linkVoice := ?_ }⟩
  · have hl := length_takeUnsent limit s.sl.txQueue
    rw [h] at hl
    have := b.txQueue
    simp only at hl ⊢
    omega
  · have := b.linkVoice
    simp only [List.length_drop]
    omega

theorem beginTurn_path (t : Nat) (s : State) : Path k s (beginTurn t s) := by
  unfold beginTurn
  extract_lets _ s1
  have h1 : Path k s s1 := by
    refine Tame.path ⟨rfl, fun b => { b with txQueue := ?_ }⟩
    have := b.txQueue
    simpa [s1, length_ageQueue] using this
  exact .ite (fun _ => h1.trans (.quiet rfl rfl)) fun _ => h1.trans (formBurst_path _)

theorem turnStart_path (s : State) : Path k s (turnStart s) := by
  unfold turnStart
  split
  · exact .refl
  · rename_i t _
    refine .ite (fun _ => ?_) fun _ => .refl
    extract_lets s1 s2
    have h1 : Path k s s1 := reach_path _ _
    have h2 : Path k s s2 := h1.trans (.ite (fun _ => missedTurn_path _ _) fun _ => .refl)
    exact h2.trans (.ite (fun _ => .refl) fun _ => beginTurn_path _ _)

theorem burstSent_path (s : State) : Path k s (burstSent s) := by
  unfold burstSent
  split <;> first | exact .refl | exact .quiet rfl rfl

theorem breakSent_path (s : State) : Path k s (breakSent s) := by
  unfold breakSent
  exact .ite (fun _ => .quiet rfl rfl) fun _ => .refl

theorem windowClose_path (s : State) : Path k s (windowClose s) := by
  unfold windowClose
  split <;> first | exact .refl | exact (reach_path _ _).trans (missedTurn_path _ _)

theorem clash_path (s : State) : Path k s (clash s) := by
  unfold clash
  split
  · extract_lets _ s1
    have h1 : Path k s s1 := by
      refine .trans ?_ (setFlag_path _ _)
      exact .quiet rfl rfl
    exact h1.trans (.ite (fun _ => missedTurn_path _ _) fun _ => .refl)
  · refine .trans ?_ (setFlag_path _ _)
    exact .quiet rfl rfl
  · exact .refl
  · exact .refl

/-! ## The summit's demand, and messages -/

theorem summitDemand_path (d : Demand) (s : State) : Path k s (summitDemand d s) := by
  unfold summitDemand
  extract_lets _ s1
  have h1 : Path k s s1 := .quiet rfl rfl
  split
  · exact h1.trans (raise_path _ _)
  · exact h1.trans (.ite (fun _ => .refl) fun _ => .ite (fun _ => raise_path _ _) fun _ =>
      (gone_path _ _ _).trans (raise_path _ _))

section Level
variable (hk : k.moves = true)
include hk

theorem receiveLaunched_path (payload : List Byte) (s : State) : Path k s (receiveLaunched payload s).2 := by
  unfold receiveLaunched
  split
  · exact raise_path _ _
  · rename_i x _
    split
    · exact raise_path _ _
    · rename_i hf
      exact cabinLaunched_path hk (by simpa using hf)

theorem receiveArrived_path (payload : List Byte) (s : State) : Path k s (receiveArrived payload s) := by
  unfold receiveArrived
  split
  · exact raise_path _ _
  · exact cabinArrived_path hk _ _

omit hk in
theorem receiveNote_path (payload : List Byte) (s : State) : Path k s (receiveNote payload s).2 := by
  unfold receiveNote
  split
  · exact .refl
  · rename_i h
    extract_lets q
    refine .trans ?_ (setFlag_path _ _)
    refine Tame.path ⟨rfl, fun b => { b with rxQueue := ?_ }⟩
    simp only [q, List.length_append, List.length_singleton]
    omega

omit hk in
theorem receiveRing_path (payload : List Byte) (s : State) : Path k s (receiveRing payload s) := by
  unfold receiveRing
  refine .ite (fun _ => .refl) fun _ => ?_
  split
  · exact summitRing_path _ _
  · exact .refl

theorem processMessage_path (m : Message) (s : State) : Path k s (processMessage m s).2 := by
  unfold processMessage
  split
  · exact receiveLaunched_path hk _ _
  · split
    · exact receiveArrived_path hk _ _
    · split
      · exact receiveRing_path _ _
      · split
        · exact summitAnswer_path _
        · split
          · exact summitClear_path _ _
          · split
            · exact receiveNote_path _ _
            · exact .refl

theorem takeMessages_path (ms : List (Message × Byte)) (s : State) : Path k s (takeMessages ms s) := by
  induction ms generalizing s with
  | nil => exact .refl
  | cons m ms ih =>
    obtain ⟨m, q⟩ := m
    unfold takeMessages
    refine .ite (fun _ => ?_) fun _ => .ite (fun _ => (setFlag_path _ _).trans (ih _)) fun _ => ih _
    split
    rename_i done s1 h
    have h1 : Path k s s1 := by
      have := processMessage_path hk m s
      rwa [h] at this
    refine h1.trans (.ite (fun _ => .trans ?_ (ih _)) fun _ => .refl)
    exact .quiet rfl rfl

/-! ## The end of a summit burst -/

omit hk in
theorem goodTurn_path (s : State) : Path k s (goodTurn s) := by
  unfold goodTurn
  extract_lets _ s1
  have h1 : Path k s s1 := .quiet rfl rfl
  exact .ite (fun _ => h1.trans ((setLink_path _ _).trans (csLinkUp_path _))) fun _ => h1

theorem handOn_path (b : SummitBurst) (s : State) : Path k s (handOn b s) := by
  unfold handOn
  extract_lets s1 _ s2 s3
  have h1 : Path k s s1 := goodTurn_path _
  have h2 : Path k s s2 := by
    refine h1.trans (.trans ?_ (summitDemand_path _ _))
    exact .quiet rfl rfl
  have h3 : Path k s s3 := h2.trans ((confirm_path _ _ _).trans (takeMessages_path hk _ _))
  split
  · exact h3.trans (summitVoice_path _ _)
  · exact h3

theorem burstEnd_path (s : State) : Path k s (burstEnd s) := by
  unfold burstEnd
  split
  · split
    · exact handOn_path hk _ _
    · exact missedTurn_path _ _
  · exact .refl
  · exact .refl
  · exact .refl

end Level

/-! ## The attention sequence and breaks -/

theorem attentionInstant_path (s : State) : Path k s (attentionInstant s) := by
  unfold attentionInstant
  split
  · extract_lets s0 _ s1
    have h1 : Path k s s1 := (reach_path _ _).trans (.quiet rfl rfl)
    exact h1.trans (.ite (fun _ => .refl) fun _ => .ite (fun _ => .quiet rfl rfl) fun _ => .ite (fun _ => .refl)
      fun _ => .ite (fun _ => .quiet rfl rfl) fun _ => .quiet rfl rfl)
  · exact .refl

theorem attentionAfterIdle_path (s : State) : Path k s (attentionAfterIdle s) := by
  unfold attentionAfterIdle
  exact .ite (fun _ => (reach_path _ _).trans (.quiet rfl rfl)) fun _ => .refl

theorem attentionSent_path (s : State) : Path k s (attentionSent s) := by
  unfold attentionSent
  split <;> first | exact .refl | exact .quiet rfl rfl

theorem resync_path (restart : Bool) (next : Byte) (s : State) : Path k s (resync restart next s) := by
  unfold resync
  extract_lets was s1 _ s2 _ s3 s4 _
  have h1 : Path k s s1 := resyncQueue_path _ _ _
  have h2 : Path k s s2 := h1.trans (.ite (fun _ => .quiet rfl rfl) fun _ => .refl)
  have h3 : Path k s s3 := by
    refine h2.trans (.trans ?_ (setLink_path _ _))
    exact .quiet rfl rfl
  have h4 : Path k s s4 := h3.trans (.ite (fun _ => .refl) fun _ => (gone_path _ _ _).trans (csLinkUp_path _))
  exact h4.trans (.quiet rfl rfl)

theorem restartDetection_path (s : State) : Path k s (restartDetection s) := .quiet rfl rfl

theorem attentionDetected_path (s : State) : Path k s (attentionDetected s) := by
  unfold attentionDetected
  split
  · exact .ite (fun _ => .refl) fun _ =>
      (reach_path _ _).trans ((restartDetection_path _).trans (resync_path _ _ _))
  all_goals exact .refl

theorem attentionTimeout_path (s : State) : Path k s (attentionTimeout s) := by
  unfold attentionTimeout
  refine .ite (fun _ => .refl) fun _ => ?_
  split
  · refine (reach_path s.silenceEnd s).trans ?_
    exact .quiet rfl rfl
  · exact .refl
  · exact restartDetection_path s
  · exact restartDetection_path s
  · exact restartDetection_path s
  · exact restartDetection_path s
  · exact .refl

theorem characterReceived_path (char : Byte) (framing : Bool) (s : State) :
    Path k s (characterReceived char framing s) := by
  unfold characterReceived
  exact .ite (fun _ => .refl) fun _ => .quiet rfl rfl

theorem breakDetected_path (s : State) : Path k s (breakDetected s) := by
  unfold breakDetected
  refine .ite (fun _ => .refl) fun _ => ?_
  extract_lets turn
  refine .trans ?_ (raise_path _ _)
  exact .quiet rfl rfl

theorem breakEnded_path (s : State) : Path k s (breakEnded s) := by
  unfold breakEnded
  refine .ite (fun _ => .trans ?_ (gone_path _ _ _)) fun _ => .refl
  exact .quiet rfl rfl

end Sys2Proof.Machine
end

