-- ==== Sys2Proof/Laws/PathsDesk.lean ====
section
/-! SUPPORT. DR's operations (Machine/Desk.lean) take paths of moves. -/

namespace Sys2Proof.Machine

open Sys2Proof.Safety

variable {k : Allow}

/-! ## Requests -/

theorem setKey_path (key : KeyState) (s : State) : Path k s (setKey key s) := .quiet rfl rfl

theorem keyOut_path (s : State) : Path k s (keyOut s) := by
  unfold keyOut
  split
  · exact (reach_path _ _).trans (setKey_path _ _)
  · exact .refl

theorem joinReport_path (hk : k.report = true) (f : QFrame) {s : State} (h : s.lr.report.length < Config.doorCap) :
    Path k s (joinReport f s) := Move.path (.reported hk f h)

theorem reply_path (hk : k.report = true) {r : Request} {a : Answer} {restart : Bool} {s : State}
    (h : s.lr.report.length < Config.doorCap) : Path k s (reply r a restart s) := by
  unfold reply
  extract_lets code s1
  have h1 : Path k s s1 := .ite (fun _ => .quiet rfl rfl) fun _ => .refl
  have hr : s1.lr.report = s.lr.report := by
    unfold s1
    split <;> rfl
  exact h1.trans (joinReport_path hk _ (by rw [hr]; exact h))

/-! ## A judgement leaves the REPORT queue alone -/

theorem writeParams_report (p : LineParams) (s : State) : (writeParams p s).lr.report = s.lr.report := by
  unfold writeParams
  extract_lets _ s1 s2
  have h2 : s2.lr.report = s.lr.report := by
    unfold s2
    split <;> rfl
  split
  · exact (blind_lr_report.issueDrive _).trans h2
  · exact h2

theorem clearTrips_report (s : State) : (clearTrips s).lr.report = s.lr.report := by
  unfold clearTrips
  extract_lets _ s1 s2
  have h2 : s2.lr.report = s.lr.report := by
    unfold s2
    split
    · rw [setFlag_lr]
    · rfl
  split
  · exact (blind_lr_report.enterLine _ _).trans h2
  · exact (blind_lr_report.reform _).trans h2

theorem launchMove_lr (c : Cabin) (s : State) : (launchMove c s).lr = s.lr := by
  unfold launchMove
  extract_lets n _ _ s1
  split
  · rfl
  · split <;> rfl

theorem placeMove_lr (id : Nat) (loc : Location) (off : Nat) (s : State) : (placeMove id loc off s).lr = s.lr := by
  unfold placeMove
  cases loc <;> rfl

theorem withdrawMove_lr (id : Nat) (c : Cabin) (s : State) : (withdrawMove id c s).lr = s.lr := by
  unfold withdrawMove
  extract_lets s1
  split <;> rfl

theorem Move.report {s t : State} (hk : k.report = false) (hr : k.reset = false) (m : Move k s t) :
    t.lr.report = s.lr.report := by
  cases m with
  | tame h => exact congrArg Watched.report h.watch
  | raised f => simp
  | gone src code => simp
  | unbypass c => simp
  | params p hp => exact writeParams_report p s
  | startExit _ _ => exact blind_lr_report.enterLine _ _
  | rest _ _ => exact blind_lr_report.enterLine _ _
  | start _ _ _ _ => exact (blind_lr_report.enterLine _ _).trans rfl
  | desk _ _ _ _ => exact (blind_lr_report.reform _).trans rfl
  | cleared _ _ _ _ _ => exact (blind_lr_report.reform _).trans (by rw [setFlag_lr])
  | bypassed _ c b => simp
  | launched _ c d _ _ => rw [launchMove_lr]
  | withdrawn _ x c _ => rw [withdrawMove_lr]
  | placed _ x loc off _ _ _ => rw [placeMove_lr]
  | reported h _ _ => rw [hk] at h; cases h
  | reportSent h _ _ _ _ => rw [hk] at h; cases h
  | tripReset _ _ _ => exact clearTrips_report s
  | reset h _ => rw [hr] at h; cases h
  | _ => rfl

theorem Path.report {s t : State} (hk : k.report = false) (hr : k.reset = false) (h : Path k s t) :
    t.lr.report = s.lr.report := by
  induction h with
  | refl => rfl
  | tail _ m ih => exact (m.report hk hr).trans ih

/-! ## Taking a request -/

/-- What a judgement may do: `trip` for the one of TRIP_RESET. -/
def Allow.judging (trip : Bool) : Allow := { moves := true, report := false, trip := trip, reset := false }

theorem judging_le {trip : Bool} (hm : k.moves = true) (ht : trip = true → k.trip = true) :
    (Allow.judging trip).Le k :=
  ⟨fun _ => hm, (by intro h; cases h), ht, (by intro h; cases h)⟩

/-- A judgement whose state is the end of a path. -/
def JudgeOk (trip : Bool) (judge : List Byte → State → Answer × State) : Prop :=
  ∀ p s, Path (.judging trip) s (judge p s).2

/-- As `JudgeOk`, for a judgement that also minds the key. -/
def JudgeKeyOk (trip : Bool) (judge : Judge) : Prop := ∀ p s, Path (.judging trip) s (judge p s).2.2

theorem takeRequest_path {trip : Bool} (hm : k.moves = true) (hk : k.report = true) (ht : trip = true → k.trip = true)
    {mine fits : List Byte → Bool} {judge : Judge} (hj : JudgeKeyOk trip judge) (s : State) :
    Path k s (takeRequest mine fits judge s) := by
  unfold takeRequest
  split
  · exact .refl
  · rename_i r rest hq
    split
    · exact .refl
    · rename_i hn
      extract_lets _ _ s1
      have h1 : Path k s s1 := by
        refine Tame.path ⟨rfl, fun b => { b with requests := ?_ }⟩
        have := b.requests
        rw [hq] at this
        exact (Nat.le_succ _).trans this
      have hr : s1.lr.report.length < Config.doorCap := by
        simp only [State.takesRequest, Bool.or_eq_true, Bool.not_eq_true', not_or, Bool.not_eq_false,
          Bool.and_eq_true, decide_eq_true_eq] at hn
        exact hn.1.1
      refine .ite (fun _ => h1.trans (reply_path hk hr)) fun _ => .ite (fun _ => h1.trans (reply_path hk hr)) fun _ =>
        .ite (fun _ => h1.trans ((setKey_path _ _).trans (reply_path hk hr))) fun _ => ?_
      split
      rename_i a restart s2 he
      have h2 := hj r.payload s1
      rw [he] at h2
      have hr2 : s2.lr.report = s1.lr.report := h2.report rfl rfl
      exact h1.trans ((h2.mono (judging_le hm ht)).trans (reply_path hk (by rw [hr2]; exact hr)))

theorem plain_ok {trip : Bool} {judge : List Byte → State → Answer × State} (h : JudgeOk trip judge) :
    JudgeKeyOk trip (plain judge) := fun p s => (setKey_path _ _).trans (h p (setKey .none s))

theorem keyed_ok {trip : Bool} {judge : List Byte → State → Answer × State} (h : JudgeOk trip judge) :
    JudgeKeyOk trip (keyed judge) := by
  intro p s
  unfold keyed
  split
  · exact (setKey_path _ _).trans (h p (setKey .none s))
  · exact setKey_path _ _

theorem doneOr_ok {trip : Bool} {res : Except Reason State} {s : State} (h : Accepts (.judging trip) s res) :
    Path (.judging trip) s (doneOr res s).2 := by
  unfold doneOr
  split
  · exact h _ rfl
  · exact .refl

theorem acceptedOr_ok {trip : Bool} {res : Except Reason State} {s : State} (h : Accepts (.judging trip) s res) :
    Path (.judging trip) s (acceptedOr res s).2 := by
  unfold acceptedOr
  split
  · exact h _ rfl
  · exact .refl

/-! ## The judgements -/

theorem judgeStatusRequest_ok : JudgeOk false judgeStatusRequest := fun _ _ => .refl

theorem judgeRead_ok : JudgeOk false judgeRead := by
  intro p s
  unfold judgeRead
  extract_lets first
  split
  · exact .refl
  · split
    · exact .refl
    · extract_lets
      exact .ite (fun _ => .quiet rfl rfl) fun _ => .refl

theorem uncommission_path (a b : Bool) (before s : State) : Path k s (uncommission a b before s) := by
  unfold uncommission
  exact .ite (fun _ => .quiet rfl rfl) fun _ => .refl

theorem writeChannel_ok : JudgeOk false writeChannel := by
  intro p s
  unfold writeChannel
  extract_lets c
  split
  · exact .refl
  · split
    · exact .refl
    · exact (applyChan_path follow_path _ _ _).trans (uncommission_path _ _ _ _)

theorem writeLine_ok : JudgeOk false writeLine := by
  intro p s
  unfold writeLine
  split
  · exact .refl
  · rename_i e he
    extract_lets o
    split
    · exact .refl
    · exact (applyLine_path follow_path (validLine_inRange he) _).trans (uncommission_path _ _ _ _)

theorem writeBerth_ok : JudgeOk false writeBerth := by
  intro p s
  unfold writeBerth
  split
  · exact .refl
  · exact applyBerth_path _ _ _

theorem writeFleet_ok : JudgeOk false writeFleet := fun _ _ => doneOr_ok (fleetWrite_path rfl _ _ _ _)

theorem writePhone_ok : JudgeOk false writePhone := by
  intro p s
  unfold writePhone
  split
  · exact .refl
  · exact applyPhone_path _ _ _

theorem judgeLine_ok {d : Demand} (hd : d ≠ .trip) : JudgeOk false (fun _ t => judgeLine d t) := by
  intro p s
  have change : ∀ h : s.ls.line = .starting ∨ s.ls.line = .running ∨ s.ls.line = .slowed,
      Path (.judging false) s (changeDesk d s) :=
    fun h => (Move.path (.desk rfl d hd h)).trans (follow_path _ _)
  unfold judgeLine
  dsimp only
  split
  · rename_i hl
    split
    · exact .refl
    · split
      · rename_i ha
        exact (Move.path (.start rfl d hl ha)).trans (follow_path _ _)
      · exact .refl
  · rename_i hl
    exact change (.inl hl)
  · rename_i hl
    exact change (.inr (.inl hl))
  · rename_i hl
    exact change (.inr (.inr hl))
  · split <;> exact .refl
  · split <;> exact .refl

theorem judgeClear_ok : JudgeOk false judgeClear := by
  intro p s
  unfold judgeClear
  split
  · exact .refl
  · rename_i e he
    split
    · exact .refl
    · rename_i h
      simp only [Bool.not_eq_true', not_or, Bool.not_eq_false, Bool.not_eq_true] at h
      exact (Move.path (.cleared rfl _ e he h)).trans (follow_path _ _)

theorem judgeTripReset_ok : JudgeOk true judgeTripReset := by
  intro p s
  unfold judgeTripReset
  split
  · exact .refl
  · rename_i h
    simp only [not_or, Bool.not_eq_true] at h
    obtain ⟨hl, hp, -⟩ := h
    exact (Move.path (.tripReset rfl hp (by tauto))).trans (follow_path _ _)

theorem judgeBypass_ok : JudgeOk false judgeBypass := by
  intro p s
  unfold judgeBypass
  extract_lets c ch n s1
  split
  · exact .refl
  · split
    · exact .refl
    · split
      · exact .refl
      · dsimp only
        by_cases hb : ch.bypass.isSome = true
        · rw [if_pos hb]
          exact Tame.path (setChan_tame hb.symm)
        · rw [if_neg hb]
          exact (Move.path (.bypassed rfl c _)).trans (follow_path _ _)

theorem reinstate_path (c b : Nat) (s : State) : Path k s (reinstate c b s) := by
  unfold reinstate
  extract_lets _ s1 s2 _ s3 s4
  have h1 : Path k s s1 := by
    refine Tame.path ⟨rfl, fun x => { x with subst := ?_ }⟩
    exact (List.length_eraseP_le).trans x.subst
  have h2 : Path k s s2 := by
    refine h1.trans ?_
    unfold s2 standDown
    extract_lets _ t
    have ht : Path k s1 t := (setEntry_path _ _ _).trans (goneAll_path follow_path _ _ _)
    exact ht.trans (setRt_path _ _ _)
  have h3 : Path k s s3 := h2.trans ((setEntry_path _ _ _).trans (resetRuntime_path follow_path _ _))
  have h4 : Path k s s4 :=
    h3.trans ((staleGone_path follow_path _ _).trans ((determineEncoder_path follow_path _).trans (formBand_path _)))
  exact h4.trans ((captureWritten_path _ _).trans (captureWritten_path _ _))

theorem judgeReinstate_ok : JudgeOk false judgeReinstate := by
  intro p s
  unfold judgeReinstate
  extract_lets c
  split
  · exact .refl
  · split
    · exact .refl
    · exact reinstate_path _ _ _

theorem judgeCommission_ok : JudgeOk false judgeCommission := by
  intro p s
  unfold judgeCommission
  split
  · exact .refl
  · split
    · exact .refl
    · exact .quiet rfl rfl

theorem judgeRestart_ok : JudgeKeyOk false judgeRestart := by
  intro p s
  unfold judgeRestart
  extract_lets s1
  have h1 : Path (.judging false) s s1 := setKey_path _ _
  split
  · exact h1
  · split
    · exact h1
    · exact h1.trans (.quiet rfl rfl)

theorem judgeFlags_ok : JudgeOk false judgeFlags := fun _ _ => .quiet rfl rfl

theorem judgeCapture_ok : JudgeOk false judgeCapture := by
  intro p s
  unfold judgeCapture
  extract_lets c k
  split
  · exact .refl
  · split
    · exact .refl
    · exact capture_path fun _ => Nat.zero_le _

theorem judgeNote_ok : JudgeOk false judgeNote := by
  intro p s
  unfold judgeNote
  split
  rename_i taken s1 h
  split
  · exact txOffer_path_of h
  · exact .refl

theorem judgeKeyA_ok : JudgeKeyOk false judgeKeyA := fun _ _ => setKey_path _ _

theorem judgeKeyB_ok : JudgeKeyOk false judgeKeyB := by
  intro p s
  unfold judgeKeyB
  split <;> exact setKey_path _ _

theorem judgeUnknown_ok : JudgeOk false judgeUnknown := fun _ _ => .refl

theorem judgePlace_ok : JudgeOk false judgePlace := by
  intro p s
  unfold judgePlace
  split
  · exact doneOr_ok (requestPlace_path rfl _ _ _ _)
  · exact .refl

/-! ## Reports -/

section Report
variable (hk : k.report = true)
include hk

omit hk in
theorem mayReport_room {s : State} (h : s.mayReport = true) : s.lr.report.length < Config.doorCap := by
  simp only [State.mayReport, Bool.and_eq_true, decide_eq_true_eq] at h
  exact h.1.1.trans_le (Nat.sub_le _ _)

theorem flagReport_path (s : State) : Path k s (flagReport s) := by
  unfold flagReport
  split
  · rename_i h
    simp only [Bool.and_eq_true] at h
    refine .trans ?_ (joinReport_path hk _ (mayReport_room h.1))
    exact .quiet rfl rfl
  · exact .refl

theorem captureReport_path (s : State) : Path k s (captureReport s) := by
  unfold captureReport
  split
  · rename_i q hq
    split
    · rename_i h
      simp only [Bool.and_eq_true] at h
      unfold sendBlock
      extract_lets block rest cause s1
      have h1 : Path k s s1 := joinReport_path hk _ (mayReport_room h.1.1)
      refine h1.trans (.ite (fun _ => capture_path fun b => ?_) fun _ => .trans ?_ (setFlag_path _ _))
      · have hc : captured s1 = q.buffer.length := by
          show captured s = _
          unfold captured
          rw [hq]
        have := b.capture
        rw [hc] at this
        show rest.length ≤ _
        exact (by simp [rest] : rest.length ≤ q.buffer.length).trans this
      · exact capture_path fun _ => Nat.zero_le _
    · exact .refl
  · exact .refl

theorem noteReport_path (s : State) : Path k s (noteReport s) := by
  unfold noteReport
  split
  · rename_i note rest hq
    extract_lets blocked
    split
    · rename_i h
      simp only [Bool.and_eq_true] at h
      refine .trans ?_ (joinReport_path hk _ (mayReport_room h.1.1))
      refine Tame.path ⟨rfl, fun b => { b with rxQueue := ?_ }⟩
      have := b.rxQueue
      rw [hq] at this
      exact (Nat.le_succ _).trans this
    · exact .refl
  · exact .refl

end Report

end Sys2Proof.Machine
end

