-- ==== Sys2Proof/Laws/PathsLoader.lean ====
section
/-! SUPPORT. CL's operations and the reset (Machine/Loader.lean) take paths of moves. -/

namespace Sys2Proof.Machine

open Sys2Proof.Safety

variable {k : Allow}

theorem pendingProfile_path (s : State) : Path k s (pendingProfile s) := by
  unfold pendingProfile
  exact .ite (fun _ => afterProfile_path _) fun _ => .quiet rfl rfl

theorem loadEnd_path (o : StartOutcome) (s : State) : Path k s (loadEnd o s) := by
  unfold loadEnd
  extract_lets _ _ s1
  have h1 : Path k s s1 := .quiet rfl rfl
  have h2 : Path k s (restartDetection s1) := h1.trans (restartDetection_path _)
  exact h2.trans ((enterSyncing_path _).trans ((setFlag_path _ _).trans (pendingProfile_path _)))

theorem skipOne_path (s : State) : Path k s (skipOne s) := .quiet rfl rfl

theorem nextSegment_path (l : List Nat) (s : State) : Path k s (nextSegment l s) := by
  induction l generalizing s with
  | nil => exact loadEnd_path _ _
  | cons i rest ih =>
    unfold nextSegment
    split
    exact .ite (fun _ => ih _) fun _ => .ite (fun _ => (skipOne_path _).trans (ih _)) fun _ => .quiet rfl rfl

theorem descriptorRead_path (read : Option (List Byte)) (s : State) : Path k s (descriptorRead read s) := by
  unfold descriptorRead
  split
  · split
    · exact loadEnd_path _ _
    · split
      · exact loadEnd_path _ _
      · refine .trans ?_ (nextSegment_path _ _)
        exact .quiet rfl rfl
  · exact .refl

/-- A judgement turned into an option leads, where it accepts, to the end of a path. -/
theorem map_toOption_path {α : Type} {res : Except Reason α} {f : α → State} {s t : State}
    (hf : ∀ e, res = .ok e → Path k s (f e)) (h : res.toOption.map f = some t) : Path k s t := by
  cases hr : res with
  | error r => simp [hr, Except.toOption] at h
  | ok e =>
    simp only [hr, Except.toOption, Option.map_some, Option.some.injEq] at h
    exact h ▸ hf e hr

section Level
variable (hk : k.moves = true)
include hk

theorem applyRecord_path {r : MemRecord} {s t : State} (h : applyRecord r s = some t) : Path k s t := by
  unfold applyRecord at h
  extract_lets i at h
  split at h
  · exact map_toOption_path (fun e _ => applyChan_path follow_path _ _ _) h
  · exact map_toOption_path (fun e _ => applyBerth_path _ _ _) h
  · cases hf : fleetWrite true i (u16 r.contents 0) s with
    | error r => simp [hf, Except.toOption] at h
    | ok u =>
      simp only [hf, Except.toOption, Option.some.injEq] at h
      exact h ▸ fleetWrite_path hk _ _ _ _ u hf
  · exact map_toOption_path (fun e _ => applyPhone_path _ _ _) h
  · exact map_toOption_path (fun p hp => applyLine_path follow_path (validLine_inRange hp) _) h
  · cases h

theorem applyOrSkip_path (seg : Nat) (r : MemRecord) (s : State) : Path k s (applyOrSkip seg r s) := by
  unfold applyOrSkip
  refine .ite (fun _ => ?_) fun _ => skipOne_path _
  cases h : applyRecord r s with
  | none => exact skipOne_path _
  | some t => exact applyRecord_path hk h

omit hk in
theorem advance_path (seg addr : Nat) (rest : List Nat) (s : State) : Path k s (advance seg addr rest s) := by
  unfold advance
  extract_lets stop
  exact .ite (fun _ => nextSegment_path _ _) fun _ => .ite (fun _ => (skipOne_path _).trans (nextSegment_path _ _))
    fun _ => .quiet rfl rfl

theorem configRecord_path (r : MemRecord) (s : State) : Path k s (configRecord r s) := by
  unfold configRecord
  split
  · exact .ite (fun _ => .refl) fun _ => .ite (fun _ => (skipOne_path _).trans (nextSegment_path _ _)) fun _ =>
      (applyOrSkip_path hk _ _ _).trans (advance_path _ _ _ _)
  · exact .refl

omit hk in
/-- A record read is judged as its loader does, and other bytes are no event. -/
theorem withRecord_path {bytes : List Byte} {f : MemRecord → State → State} (hf : ∀ r s, Path k s (f r s)) (s : State) :
    Path k s (withRecord bytes f s) := by
  unfold withRecord
  split
  · exact hf _ _
  · exact .refl

end Level

/-! ## Profile loads -/

theorem applying_path (p : Profile) (s : State) : Path k s (applying p s) := by
  unfold applying
  extract_lets s1
  have h1 : Path k s s1 := enterApplying_path _ _
  exact .ite (fun _ => h1.trans (afterProfile_path _)) fun _ => h1

theorem skipProfile_path (s : State) : Path k s (skipProfile s) := .quiet rfl rfl

theorem profileRecord_path (r : MemRecord) (s : State) : Path k s (profileRecord r s) := by
  unfold profileRecord
  split
  · rename_i p addr hp
    extract_lets stop next s1
    refine .ite (fun _ => .refl) fun _ => .ite (fun _ => (skipProfile_path _).trans (applying_path _ _)) fun _ => ?_
    have h1 : Path k s s1 ∧ s1.cl.profile = s.cl.profile := by
      unfold s1 stage
      by_cases h : usable p.segment r = true ∧ s.cl.staging.length < Config.stagingCap
      · rw [if_pos h]
        refine ⟨Tame.path ⟨rfl, fun b => { b with staging := by simpa using h.2, deferred := ?_ }⟩, rfl⟩
        have := b.deferred
        unfold deferLoad at this ⊢
        dsimp only
        rw [hp] at this ⊢
        exact this
      · rw [if_neg h]
        exact ⟨skipProfile_path _, rfl⟩
    refine h1.1.trans (.ite (fun _ => applying_path _ _) fun _ =>
      .ite (fun _ => (skipProfile_path _).trans (applying_path _ _)) fun _ => loader_path le_rfl ?_)
    exact Nat.le_add_right _ _
  · exact .refl
  · exact .refl

/-- R46: the entry handed over leaves staging, and is dropped, applied or deferred. -/
theorem profileEntry_path {p : Profile} {r : MemRecord} {rest : List MemRecord} {s : State}
    (hp : s.cl.profile = .applying p) (hs : s.cl.staging = r :: rest) :
    Path k s (profileEntry r { s with cl := { s.cl with staging := rest } }) := by
  have h0 : Path k s { s with cl := { s.cl with staging := rest } } := by
    refine loader_path (by rw [hs]; simp) ?_
    unfold deferLoad
    dsimp only
    rw [hp, hs]
    simp
  unfold profileEntry
  refine .ite (fun _ => h0) fun _ => .ite (fun _ => h0.trans (applyLoaded_path follow_path _ _)) fun _ => ?_
  refine Tame.path ⟨rfl, fun b => { b with staging := ?_, deferred := ?_ }⟩
  · have := b.staging
    rw [hs] at this
    exact (Nat.le_succ _).trans this
  · have := b.deferred
    unfold deferLoad at this ⊢
    dsimp only
    rw [hp, hs] at this
    rw [hp]
    simp only [List.length_append, List.length_cons, List.length_nil] at this ⊢
    omega

theorem applyEnd_path (s : State) : Path k s (applyEnd s) := by
  refine .trans (.trans ?_ (setFlag_path _ _)) (afterProfile_path _)
  exact loader_path (Nat.zero_le _) (Nat.le_add_right _ _)

theorem profileApply_path (s : State) : Path k s (profileApply s) := by
  unfold profileApply
  split
  · rename_i hp hs
    extract_lets _ s1
    have h1 : Path k s s1 := profileEntry_path hp hs
    exact .ite (fun _ => h1.trans (applyEnd_path _)) fun _ => h1
  · exact .refl

theorem readFail_path (s : State) : Path k s (readFail s) := by
  unfold readFail
  split
  · exact loadEnd_path _ _
  · exact loadEnd_path _ _
  · refine .trans ?_ (afterProfile_path _)
    exact loader_path (Nat.zero_le _) (Nat.le_add_right _ _)
  · exact .refl

/-! ## Reset -/

theorem resetPart_path (hk : k.reset = true) (straps : Straps) (s : State) : Path k s (resetPart straps s) := by
  unfold resetPart
  extract_lets s1
  have h1 : Path k s s1 := Move.path (.reset hk straps)
  exact .ite (fun _ => h1) fun _ => h1.trans (loadEnd_path _ _)

theorem resetLow_path (s : State) : Path k s (resetLow s) :=
  Tame.path ⟨rfl, fun b => { b with outstanding := (Nat.le_add_right _ _).trans b.outstanding }⟩

end Sys2Proof.Machine
end

