-- ==== Sys2Proof/Laws/PathsSample.lean ====
section
/-! SUPPORT. RA's readings (Machine/Rope.lean) and CM's judging of samples (Machine/Sample.lean) take paths of moves. -/

namespace Sys2Proof.Machine

open Sys2Proof.Safety

variable {k : Allow}

/-! ## RA -/

theorem overspeedCheck_path (c : Nat) (s : State) : Path k s (overspeedCheck c s) := by
  unfold overspeedCheck
  exact .ite (fun _ => raise_path _ _) fun _ => gone_path _ _ _

theorem rollbackCheck_path (c : Nat) (s : State) : Path k s (rollbackCheck c s) := by
  unfold rollbackCheck
  exact .ite (fun _ => raise_path _ _) fun _ => gone_path _ _ _

/-- R147: marking an entry overdue changes no id of a list. -/
theorem overdueUp_path (s : State) : Path k s (overdueUp s) := by
  unfold overdueUp
  split
  · rename_i e es h
    refine .ite (fun _ => .trans ?_ (raise_path _ _)) fun _ => .refl
    refine .quiet ?_ rfl
    simp [watch, h]
  · exact .refl

theorem overdueDown_path (s : State) : Path k s (overdueDown s) := by
  unfold overdueDown
  split
  · rename_i e es h
    refine .ite (fun _ => .trans ?_ (raise_path _ _)) fun _ => .refl
    refine .quiet ?_ rfl
    simp [watch, h]
  · exact .refl

section Level
variable (hk : k.moves = true)
include hk

theorem lineOnUpdate_path (s : State) : Path k s (lineOnUpdate s) := by
  unfold lineOnUpdate
  exact .ite (fun h => (Move.path (.startExit hk h.1)).trans (follow_path _ _)) fun _ =>
    .ite (fun h => (Move.path (.rest hk h.1)).trans (follow_path _ _)) fun _ => .refl

theorem positionUpdate_path (s : State) : Path k s (positionUpdate s) := by
  unfold positionUpdate
  extract_lets _ s1
  have h1 : Path k s s1 := lineOnUpdate_path hk _
  refine .trans (h1.trans ?_) (evalRelease_path _)
  exact .ite (fun _ => (overdueUp_path _).trans (overdueDown_path _)) fun _ => .refl

theorem afterTravel_path (c : Nat) (s : State) : Path k s (afterTravel c s) :=
  (overspeedCheck_path _ _).trans ((rollbackCheck_path _ _).trans (positionUpdate_path hk _))

theorem encoderReading_path (c : Nat) (n t : Word16) (s : State) : Path k s (encoderReading c n t s) := by
  unfold encoderReading
  extract_lets e
  split
  rename_i v ra h
  extract_lets rt s1
  have h0 : Path k s { s with ra := ra } := by
    by_cases hc : s.ra.encoder = some c
    · rw [if_pos hc] at h
      have := Move.path (Move.rope (k := k) (s := s) hk e n t)
      rwa [h] at this
    · rw [if_neg hc] at h
      cases h
      exact .refl
  have h1 : Path k s s1 := h0.trans (setRt_path _ _ _)
  clear_value s1
  split
  · exact h1.trans (afterTravel_path hk _ _)
  · exact h1.trans (.ite (fun _ => failChannel_path follow_path _ _) fun _ => .refl)
  · exact h1
  · exact h1
  · exact h1

/-! ## CM's kinds -/

omit hk in
theorem windowReading_path (c x : Nat) (s : State) : Path k s (windowReading c x s) := by
  unfold windowReading
  extract_lets e rt rt1 s1 s2
  have h1 : Path k s s1 := setRt_path _ _ _
  refine .ite (fun _ => h1) fun _ => ?_
  have h2 : Path k s s2 := by
    refine h1.trans ?_
    unfold s2
    split
    · exact gone_path _ _ _
    · exact .refl
  split
  · exact h2.trans (raise_path _ _)
  · exact h2

omit hk in
theorem windReading_path (c x : Nat) (s : State) : Path k s (windReading c x s) := by
  unfold windReading
  extract_lets rt rt1 s1 s2 s3
  have h1 : Path k s s1 := setRt_path _ _ _
  refine .ite (fun _ => h1) fun _ => ?_
  have h2 : Path k s s2 := by
    refine h1.trans ?_
    unfold s2
    split
    · exact gone_path _ _ _
    · exact .refl
  have h3 : Path k s s3 := by
    refine h2.trans ?_
    unfold s3
    split
    · exact raise_path _ _
    · exact .refl
  exact h3.trans (formBand_path _)

theorem markReading_path (c : Nat) (x : Word16) (s : State) : Path k s (markReading c x s) := by
  unfold markReading
  extract_lets rt s1
  have h1 : Path k s s1 := setRt_path _ _ _
  clear_value s1
  split
  · exact h1
  · extract_lets d
    exact h1.trans (.ite (fun _ => .refl) fun _ => .ite
      (fun _ => (gone_path _ _ _).trans (passageEvent_path hk _ _)) fun _ => raise_path _ _)

omit hk in
theorem passageNotice_path (s : State) : Path k s (passageNotice s) := by
  unfold passageNotice
  refine .ite (fun _ => .trans ?_ (gone_path _ _ _)) fun _ => .refl
  exact .quiet rfl rfl

omit hk in
theorem passageReading_path (c : Nat) (x : Word16) (s : State) : Path k s (passageReading c x s) := by
  unfold passageReading
  extract_lets rt s1
  have h1 : Path k s s1 := setRt_path _ _ _
  clear_value s1
  split
  · exact h1
  · exact h1.trans (.ite (fun _ => .refl) fun _ => passageNotice_path _)

/-! ## Matching -/

omit hk in
theorem accepted_path (c : Nat) (s : State) : Path k s (accepted c s) := setRt_path _ _ _

theorem judgeReading_path (c : Nat) (x t : Word16) (s : State) : Path k s (judgeReading c x t s) := by
  unfold judgeReading
  split
  · exact encoderReading_path hk _ _ _ _
  · exact (accepted_path _ _).trans (windowReading_path _ _ _)
  · exact (accepted_path _ _).trans (windowReading_path _ _ _)
  · exact (accepted_path _ _).trans (windReading_path _ _ _)
  · exact (accepted_path _ _).trans (markReading_path hk _ _ _)
  · exact (accepted_path _ _).trans (passageReading_path _ _ _)
  · exact (accepted_path _ _).trans (cabinIdEvent_path hk _ _)
  · exact (accepted_path _ _).trans (gripTest_path _ _ _)

omit hk in
theorem captureReading_path (c : Nat) (x t : Word16) (s : State) : Path k s (captureReading c x t s) := by
  unfold captureReading
  split
  · rename_i q h
    refine .ite (fun _ => .refl) fun _ => .ite (fun _ => capture_same_path h rfl) fun hc =>
      capture_path fun _ => ?_
    show (q.buffer ++ _).length ≤ _
    rw [List.length_append]
    exact Nat.not_le.1 hc
  · exact .refl

theorem takeReading_path (c : Nat) (x t : Word16) (s : State) : Path k s (takeReading c x t s) := by
  unfold takeReading
  extract_lets s1 _ s2
  have h1 : Path k s s1 := captureReading_path _ _ _ _
  have h2 : Path k s s2 := h1.trans (setRt_path _ _ _)
  exact .ite (fun _ => h2.trans (judgeReading_path hk _ _ _ _)) fun _ => h2

omit hk in
theorem slotAbsent_path (c : Nat) (s : State) : Path k s (slotAbsent c s) := by
  unfold slotAbsent
  extract_lets e
  exact .ite (fun _ => accepted_path _ _) fun _ => .refl

theorem takeSlot_path (src : Byte) (t : Word16) (readings : List Word16) (s : State) (slot : Nat) :
    Path k s (takeSlot src t readings s slot) := by
  unfold takeSlot
  split
  · exact .refl
  · split
    · exact takeReading_path hk _ _ _ _
    · exact slotAbsent_path _ _

theorem sampleFrame_path (src : Byte) (payload : List Byte) (s : State) : Path k s (sampleFrame src payload s) := by
  unfold sampleFrame
  split
  · exact .refl
  · exact .foldl _ (fun u slot => takeSlot_path hk _ _ _ u slot) s

end Level

/-! ## Timers -/

theorem staleOut_path (c : Nat) (s : State) : Path k s (staleOut c s) := by
  unfold staleOut
  extract_lets ch
  exact .ite (fun _ => (reach_path _ _).trans (failChannel_path follow_path _ _)) fun _ => .refl

theorem bypassMinute_path (c : Nat) (s : State) : Path k s (bypassMinute c s) := by
  unfold bypassMinute
  split
  · exact .refl
  · rename_i b hb
    extract_lets s1
    have h1 : Path k s s1 := reach_path _ _
    refine .ite (fun _ => h1.trans (endBypass_path follow_path _ _)) fun _ => h1.trans (Tame.path (setChan_tame ?_))
    show true = (s.chan c).bypass.isSome
    rw [hb]
    rfl

end Sys2Proof.Machine
end

