-- ==== Sys2Proof/Laws/PathsLoop.lean ====
section
/-! SUPPORT. LR's operations (Machine/Loop.lean) take paths of moves. -/

namespace Sys2Proof.Machine

open Sys2Proof.Safety

variable {k : Allow}

/-- A change of LR's outstanding list and loop state that leaves its queues and no more outstanding. -/
theorem outstanding_path {s : State} {o : List OutEntry} {l : LoopState} (h : o.length ≤ s.lr.outstanding.length) :
    Path k s { s with lr := { s.lr with outstanding := o, loop := l } } :=
  Tame.path ⟨rfl, fun b => { b with outstanding := (Nat.add_le_add_right h _).trans b.outstanding }⟩

/-- A change of what LOOP-OUT is sending, while no insertion is running or begins. -/
theorem out_path {s : State} {o : LoopOut} {l : List (List Byte)} (h : ∀ bytes r, o ≠ .inserting bytes r)
    (hl : l.length ≤ s.lr.relay.length) : Path k s { s with lr := { s.lr with out := o, relay := l } } := by
  refine Tame.path ⟨rfl, fun b => { b with relay := hl.trans b.relay, outstanding := ?_ }⟩
  have := b.outstanding
  cases o with
  | inserting bytes r => exact absurd rfl (h bytes r)
  | idle => exact (Nat.le_add_right _ _).trans this
  | forwarding _ => exact (Nat.le_add_right _ _).trans this

theorem loopReturn_path (s : State) : Path k s (loopReturn s) := by
  unfold loopReturn
  extract_lets _ s1
  have h1 : Path k s s1 := .quiet rfl rfl
  exact .ite (fun _ => h1.trans (gone_path _ _ _)) fun _ => h1

theorem strip_path (f : Frame) (s : State) : Path k s (strip f s) := by
  unfold strip
  split
  · exact .refl
  · extract_lets _ s1
    have h1 : Path k s s1 := outstanding_path (by simp)
    exact h1.trans ((Path.ite (fun _ => .refl) fun _ => setFlag_path _ _).trans (loopReturn_path _))

theorem returnOverdue_path (s : State) : Path k s (returnOverdue s) := by
  unfold returnOverdue
  split
  · exact .refl
  · rename_i h
    extract_lets _ s1
    have h1 : Path k s s1 := by
      refine .trans ?_ (reach_path _ _)
      exact outstanding_path (by rw [h]; simp)
    exact .ite (fun _ => h1) fun _ => h1.trans (raise_path _ _)

theorem queueRequest_path (f : Frame) (s : State) : Path k s (queueRequest f s) := by
  unfold queueRequest
  refine .ite (fun h => Tame.path ⟨rfl, fun b => { b with requests := ?_ }⟩) fun _ => setFlag_path _ _
  simpa using h

theorem forwardFrame_path (bytes : List Byte) (s : State) : Path k s (forwardFrame bytes s) := by
  unfold forwardFrame
  refine .ite (fun _ => out_path (fun _ _ h => by cases h) le_rfl) fun _ =>
    .ite (fun h => Tame.path ⟨rfl, fun b => { b with relay := ?_ }⟩) fun _ => setFlag_path _ _
  simpa using h

theorem outIdle_path (s : State) : Path k s (outIdle s) := by
  unfold outIdle
  split
  · exact out_path (fun _ _ h => by cases h) le_rfl
  · rename_i h
    exact out_path (fun _ _ h => by cases h) (by rw [h]; simp)

theorem forwardSent_path (s : State) : Path k s (forwardSent s) := by
  unfold forwardSent
  split
  · exact outIdle_path _
  · exact .refl
  · exact .refl

/-- R173: the queues give up a frame, and the rest of the relay is as it was. -/
theorem chooseFrame_path (hk : k.report = true) {s t : State} {f : QFrame} (h : chooseFrame s = some (f, t)) :
    Path k s t ∧ t.lr.outstanding = s.lr.outstanding ∧ t.lr.out = s.lr.out := by
  unfold chooseFrame at h
  split at h <;> simp only [Option.some.injEq, Prod.mk.injEq, reduceCtorEq] at h <;> obtain ⟨-, rfl⟩ := h <;>
    refine ⟨?_, rfl, rfl⟩
  · rename_i hs
    refine Tame.path ⟨rfl, fun b => { b with safety := ?_ }⟩
    have := b.safety
    rw [hs] at this
    exact ⟨(List.nodup_cons.1 this.1).2, fun g hg => this.2 g (List.mem_cons_of_mem _ hg)⟩
  · rename_i hd
    refine Tame.path ⟨rfl, fun b => { b with door := ?_ }⟩
    have := b.door
    rw [hd] at this
    exact (Nat.le_succ _).trans this
  · rename_i hv
    refine Tame.path ⟨rfl, fun b => { b with voice := ?_ }⟩
    have := b.voice
    rw [hv] at this
    exact (Nat.le_succ _).trans this
  · rename_i hr
    exact Move.path (.reportSent hk _ _ _ hr)

theorem insertionStart_path (hk : k.report = true) (s : State) : Path k s (insertionStart s) := by
  unfold insertionStart
  refine .ite (fun hi => ?_) fun _ => .refl
  split
  · rename_i f t h
    obtain ⟨h1, h2, -⟩ := chooseFrame_path hk h
    refine h1.trans (Tame.path ⟨rfl, fun b => { b with outstanding := ?_ }⟩)
    show t.lr.outstanding.length + 1 ≤ _
    rw [h2]
    exact hi.2.2
  · exact .refl

/-- R176: the outstanding list takes the entry of the insertion that has ended. -/
theorem outEntry_path {s : State} {bytes : List Byte} {r : Bool} (e : OutEntry) (h : s.lr.out = .inserting bytes r) :
    Path k s (outIdle { s with lr := { s.lr with outstanding := s.lr.outstanding ++ [e] } }) := by
  have hb : ∀ b : Bounded s, s.lr.outstanding.length + 1 ≤ Config.doorCap := fun b => by
    have := b.outstanding
    unfold outLoad at this
    rwa [h] at this
  unfold outIdle
  split
  · refine Tame.path ⟨rfl, fun b => { b with outstanding := ?_ }⟩
    have := hb b
    show (s.lr.outstanding ++ [e]).length + 0 ≤ _
    rwa [List.length_append]
  · rename_i hr
    refine Tame.path ⟨rfl, fun b => { b with relay := ?_, outstanding := ?_ }⟩
    · have := b.relay
      have hr' : s.lr.relay = _ := hr
      rw [hr'] at this
      exact (Nat.le_succ _).trans this
    · have := hb b
      show (s.lr.outstanding ++ [e]).length + 0 ≤ _
      rwa [List.length_append]

section Level
variable (hk : k.moves = true)
include hk

theorem consume_path (f : Frame) (s : State) : Path k s (consume f s) := by
  unfold consume
  exact .ite (fun _ => sampleFrame_path hk _ _ _) fun _ => .ite (fun _ => doorStatus_path _ _ _) fun _ =>
    .ite (fun _ => callFrame_path _ _ _) fun _ => .ite (fun _ => voiceFrame_path _ _ _) fun _ =>
    .ite (fun _ => queueRequest_path _ _) fun _ => .refl

theorem frameReceived_path (bytes : List Byte) (s : State) : Path k s (frameReceived bytes s) := by
  unfold frameReceived
  split
  · exact setFlag_path _ _
  · exact .ite (fun _ => strip_path _ _) fun _ => .ite (fun _ => consume_path hk _ _) fun _ =>
      .ite (fun _ => (sampleFrame_path hk _ _ _).trans (forwardFrame_path _ _)) fun _ => forwardFrame_path _ _

end Level

theorem insertionEnd_path (hk : k.reset = true) (straps : Straps) (s : State) : Path k s (insertionEnd straps s) := by
  unfold insertionEnd
  split
  · rename_i h
    exact .ite (fun _ => resetPart_path hk _ _) fun _ => outEntry_path _ h
  · exact .refl
  · exact .refl

/-- R176: the end of an insertion that is not the reply to a RESTART. -/
theorem insertionEnd_path_plain (straps : Straps) {s : State}
    (h : ∀ bytes, s.lr.out ≠ .inserting bytes true) : Path k s (insertionEnd straps s) := by
  unfold insertionEnd
  split
  · rename_i bytes restart ho
    exact .ite (fun hr => absurd ho (hr ▸ h bytes)) fun _ => outEntry_path _ ho
  · exact .refl
  · exact .refl

end Sys2Proof.Machine
end

