-- ==== Sys2Proof/Laws/Paths.lean ====
section
/-! SUPPORT. Every command answers a next state, and that state is the end of a path of moves. An invariant that each move
keeps is so kept by every step. -/

namespace Sys2Proof.Machine

/-- What a command may do: TRIP_RESET alone leaves TRIPPED, and only the two ends of a reset reset the part. -/
def allowed : Instr → Allow
  | .tripReset => { moves := true, report := true, trip := true, reset := false }
  | .resetEnd _ => { moves := true, report := true, trip := false, reset := true }
  | .insertionEnd _ => { moves := true, report := true, trip := false, reset := true }
  | _ => Allow.plain

theorem event_path {k : Allow} {f : State → State} {s t : State} (hf : Path k s (f s)) (h : event f s = .next t) :
    Path k s t := by
  unfold event at h
  split at h <;> cases h
  · exact .refl
  · exact hf

/-- A request of any code but TRIP_RESET's. -/
theorem request_path {mine fits : List Byte → Bool} {judge : Judge} (hj : JudgeKeyOk false judge) (s : State) :
    Path Allow.plain s (takeRequest mine fits judge s) :=
  takeRequest_path rfl rfl (fun h => by cases h) hj s

/-- The meaning of every command, as a path. -/
theorem exec_path {c : Instr} {s t : State} (h : exec c s = .next t) : Path (allowed c) s t := by
  cases c with
  | resetPinLow => exact event_path (resetLow_path _) h
  | resetEnd straps =>
    simp only [exec, execResetEnd] at h
    cases h
    exact .ite (fun _ => resetPart_path rfl _ _) fun _ => .refl
  | descriptorRead read => exact event_path (.ite (fun _ => descriptorRead_path _ _) fun _ => .refl) h
  | configRecordRead bytes => exact event_path (withRecord_path (configRecord_path rfl) _) h
  | memoryReadFail => exact event_path (readFail_path _) h
  | profileRecordRead bytes => exact event_path (withRecord_path profileRecord_path _) h
  | profileEntryApply => exact event_path (profileApply_path _) h
  | loopFrameReceived bytes => exact event_path (frameReceived_path rfl _ _) h
  | staleTimeExpiry c => exact event_path (staleOut_path _ _) h
  | bypassMinuteTick c => exact event_path (bypassMinute_path _ _) h
  | startTimeLimitExpiry => exact event_path (startLimitOut_path _) h
  | stopTimeLimitExpiry => exact event_path (stopLimitOut_path _) h
  | autoSlowExpiry => exact event_path (autoSlowPeriodOut_path _) h
  | driveRefreshExpiry => exact event_path (refreshOut_path _) h
  | openDelayExpiry j => exact event_path (forBerth_path (openDelayEnd_path _ _)) h
  | dwellExpiry j => exact event_path (forBerth_path (dwellOut_path _ _)) h
  | gatherWindowExpiry => exact event_path (windowOut_path _) h
  | gatherCapExpiry => exact event_path (capOut_path _) h
  | ackTimerExpiry j => exact event_path (forBerth_path (ackOut_path _ _)) h
  | motionTimerExpiry j => exact event_path (forBerth_path (motionOut_path _ _)) h
  | holdTimerExpiry j => exact event_path (forBerth_path (holdOut_path _ _)) h
  | doorQueuePlace => exact event_path (placeLongestWaiting_path _) h
  | ringTimerExpiry => exact event_path (ringOut_path _) h
  | ringRepeat => exact event_path (ringAgain_path _) h
  | turnStart => exact event_path (turnStart_path _) h
  | valleyBurstSent => exact event_path (burstSent_path _) h
  | breakSent => exact event_path (breakSent_path _) h
  | replyWindowClose => exact event_path (windowClose_path _) h
  | lostPeriodEnd => exact event_path (lostPeriodEnd_path _) h
  | summitBurstEnd => exact event_path (burstEnd_path rfl _) h
  | clash => exact event_path (clash_path _) h
  | attentionInstant => exact event_path (attentionInstant_path _) h
  | attentionSendAfterIdle => exact event_path (attentionAfterIdle_path _) h
  | attentionSent => exact event_path (attentionSent_path _) h
  | attentionDetected => exact event_path (attentionDetected_path _) h
  | summitBreakDetect => exact event_path (breakDetected_path _) h
  | summitBreakEnd => exact event_path (breakEnded_path _) h
  | forwardSent => exact event_path (forwardSent_path _) h
  | insertionStart => exact event_path (insertionStart_path rfl _) h
  | insertionEnd straps => exact event_path (insertionEnd_path rfl _ _) h
  | returnDeadlineExpiry => exact event_path (returnOverdue_path _) h
  | status => exact event_path (request_path (plain_ok judgeStatusRequest_ok) _) h
  | readEntry => exact event_path (request_path (plain_ok judgeRead_ok) _) h
  | writeEntryChannel => exact event_path (request_path (plain_ok writeChannel_ok) _) h
  | writeEntryLineParams => exact event_path (request_path (plain_ok writeLine_ok) _) h
  | writeEntryBerth => exact event_path (request_path (plain_ok writeBerth_ok) _) h
  | writeEntryFleet => exact event_path (request_path (plain_ok writeFleet_ok) _) h
  | writeEntryPhone => exact event_path (request_path (plain_ok writePhone_ok) _) h
  | lineRun => exact event_path (request_path (plain_ok (judgeLine_ok (by decide))) _) h
  | lineSlow => exact event_path (request_path (plain_ok (judgeLine_ok (by decide))) _) h
  | lineStop => exact event_path (request_path (plain_ok (judgeLine_ok (by decide))) _) h
  | doorOpen =>
    exact event_path (request_path (plain_ok fun _ _ => acceptedOr_ok (requestOpen_path _ _)) _) h
  | doorClose =>
    exact event_path (request_path (plain_ok fun _ _ => acceptedOr_ok (requestClose_path _ _)) _) h
  | doorHold =>
    exact event_path (request_path (plain_ok fun _ _ => acceptedOr_ok (requestHold_path _ _)) _) h
  | doorRelease =>
    exact event_path
      (request_path (plain_ok fun _ _ => acceptedOr_ok (requestRelease_path _ _)) _) h
  | doorReset =>
    exact event_path (request_path (plain_ok fun _ _ => doneOr_ok (requestDoorReset_path _ _)) _) h
  | cabinInsert =>
    exact event_path (request_path (plain_ok fun _ _ => doneOr_ok (requestInsert_path rfl _ _)) _) h
  | cabinWithdraw =>
    exact event_path
      (request_path (plain_ok fun _ _ => doneOr_ok (requestWithdraw_path rfl _ _)) _) h
  | cabinAssign =>
    exact event_path (request_path (plain_ok fun _ _ => doneOr_ok (requestAssign_path rfl _ _)) _) h
  | cabinRetest =>
    exact event_path (request_path (plain_ok fun _ _ => doneOr_ok (requestRetest_path _ _)) _) h
  | cabinPlace => exact event_path (request_path (plain_ok judgePlace_ok) _) h
  | clearFault => exact event_path (request_path (plain_ok judgeClear_ok) _) h
  | flags => exact event_path (request_path (plain_ok judgeFlags_ok) _) h
  | capture => exact event_path (request_path (plain_ok judgeCapture_ok) _) h
  | summitNote => exact event_path (request_path (plain_ok judgeNote_ok) _) h
  | keyA => exact event_path (request_path judgeKeyA_ok _) h
  | keyB => exact event_path (request_path judgeKeyB_ok _) h
  | tripReset => exact event_path (takeRequest_path rfl rfl (fun _ => rfl) (keyed_ok judgeTripReset_ok) _) h
  | bypass => exact event_path (request_path (keyed_ok judgeBypass_ok) _) h
  | reinstate => exact event_path (request_path (keyed_ok judgeReinstate_ok) _) h
  | commission => exact event_path (request_path (keyed_ok judgeCommission_ok) _) h
  | restart => exact event_path (request_path judgeRestart_ok _) h
  | unknownRequest => exact event_path (request_path (plain_ok judgeUnknown_ok) _) h
  | keyTimerExpiry => exact event_path (keyOut_path _) h
  | flagReport => exact event_path (flagReport_path rfl _) h
  | captureBlockReport => exact event_path (captureReport_path rfl _) h
  | noteReport => exact event_path (noteReport_path rfl _) h
  | summitCharacterReceived char framing => exact event_path (characterReceived_path _ _ _) h
  | attentionIdleTimeout => exact event_path (attentionTimeout_path _) h

/-- Every command answers a next state. -/
theorem exec_next (c : Instr) (s : State) : ∃ t, exec c s = .next t := by
  cases c <;> exact ⟨_, rfl⟩

/-- A step is a path: the queue and the time are watched by no invariant of the moves. -/
theorem step_path {s t : State} (h : step s = .next t) :
    (∃ c rest, s.pending = c :: rest ∧ Path (allowed c) s t) ∨ (s.pending = [] ∧ t = tick s) := by
  unfold step at h
  split at h
  · rename_i hp
    cases h
    exact .inr ⟨hp, rfl⟩
  · rename_i c rest hp
    refine .inl ⟨c, rest, hp, .trans (t := { s with pending := rest }) ?_ (exec_path h)⟩
    exact .quiet rfl rfl

/-- Every permission. -/
def Allow.all : Allow := { moves := true, report := true, trip := true, reset := true }

theorem Allow.le_all (a : Allow) : a.Le Allow.all := ⟨fun _ => rfl, fun _ => rfl, fun _ => rfl, fun _ => rfl⟩

/-- An invariant that every move keeps is kept by every step. -/
theorem step_keeps {Inv : State → Prop} (hm : ∀ s t, Move .all s t → Inv s → Inv t) {s t : State}
    (h : step s = .next t) (hs : Inv s) : Inv t := by
  rcases step_path h with ⟨c, rest, -, hp⟩ | ⟨-, rfl⟩
  · exact (hp.mono (Allow.le_all _)).keeps hm hs
  · exact hm s _ (.tame (.of_eq rfl rfl)) hs

end Sys2Proof.Machine
end

