-- ==== Sys2Proof/Laws/Raised.lean ====
section
/-! SUPPORT. What the raising of a fault and the report that it is gone leave, in a settled state: `Raised` and
`Withdrawn`. -/

namespace Sys2Proof.Machine

open Sys2Proof.Safety

/-! ## The drive request record -/

/-- R62: the record with the content of the line state answers it, given the levels a STARTING line may have. -/
theorem driveAnswers_of_content {s : State} (h : s.ls.drive = driveContent s) : DriveAnswers s := by
  unfold driveContent at h
  constructor <;> rw [h] <;> cases s.ls.line <;> simp_all [State.params]
  split <;> rfl

/-- R62: a record that answers the line state has its content. -/
theorem content_of_driveAnswers {s : State} (h : DriveAnswers s)
    (hs : s.ls.line = .starting → s.ls.effDemand = .run ∨ s.ls.effDemand = .slow) : s.ls.drive = driveContent s := by
  obtain ⟨h1, h2, h3, h4, h5⟩ := h
  cases hd : s.ls.drive with
  | mk level setpoint line =>
    unfold driveContent
    rw [hd] at h1 h2 h3 h4 h5
    cases hl : s.ls.line <;> rw [hl] at h1 h2 h3 h4 h5 hs <;> simp_all [State.params]
    rcases hs with he | he <;> simp_all

/-- R62: in a state that obeys its demand the record has the content of the line state. -/
theorem content_of_demandKept {s : State} (h : DemandKept s) : s.ls.drive = driveContent s :=
  content_of_driveAnswers h.drive h.starting

/-! ## The effective demand -/

theorem imposes_iff (s : State) (e : FaultEntry) : imposes s e = true ↔ Stands s e := by
  unfold imposes Stands
  rw [Bool.and_eq_true, Bool.or_eq_true]
  refine and_congr Iff.rfl ?_
  cases h : e.source with
  | channel c =>
    simp only [Source.channel.injEq, forall_eq', Bool.or_eq_true, Bool.not_eq_true', beq_iff_eq]
  | berth n => simp
  | cabin id => simp
  | link => simp
  | loop => simp
  | line => simp

/-- R54: the demand as its inputs stand is the most severe of them. -/
theorem demandNow_mostSevere (s : State) : MostSevere s s.demandNow := by
  obtain ⟨h1, h2, h3, h4⟩ := demandWith_spec s.ls.deskDemand s
  refine ⟨?_, h2, h3, fun e he hs => h4 e he ((imposes_iff s e).2 hs)⟩
  rcases h1 with h1 | h1 | ⟨e, he, hi, h1⟩
  · exact .inl h1
  · exact .inr (.inl h1)
  · exact .inr (.inr ⟨e, he, (imposes_iff s e).1 hi, h1⟩)

/-- R54: the most severe level is one level. -/
theorem MostSevere.code_le {s : State} {d d' : Demand} (h : MostSevere s d) (h' : MostSevere s d') : d.code ≤ d'.code := by
  obtain ⟨h1, -⟩ := h
  obtain ⟨-, h2, h3, h4⟩ := h'
  rcases h1 with rfl | rfl | ⟨e, he, hs, rfl⟩
  · exact h2
  · exact h3
  · exact h4 e he hs

theorem MostSevere.unique {s : State} {d d' : Demand} (h : MostSevere s d) (h' : MostSevere s d') : d = d' :=
  Demand.code_injective (Nat.le_antisymm (MostSevere.code_le h h') (MostSevere.code_le h' h))

/-! ## The line state change -/

/-- R59: LS after the line's entry into STOPPING, with the at-rest test made at once. -/
theorem enterStopping_spec (s : State) :
    (enterStopping s).ls.line = (if s.atRest then .stopped else .stopping)
      ∧ (enterStopping s).ls.overflow = s.ls.overflow
      ∧ (enterStopping s).ls.faults = (listGone .line .autoSlow s.ls.faults).1
      ∧ (enterStopping s).ls.nextFault = s.ls.nextFault
      ∧ (enterStopping s).ls.effDemand = (enterStopping s).demandNow := by
  have hf : (enterLine .stopping s).ls.faults = (listGone .line .autoSlow s.ls.faults).1 := by
    rw [(enterLine_spec _ _).2.2.2.1]
    rfl
  have hn : ∀ (st : LineState) (u : State), (enterLine st u).ls.nextFault = u.ls.nextFault :=
    fun st u => (enterLine_spec st u).2.2.2.2.2.2.2.2.1
  refine ⟨enterStopping_line s, ?_⟩
  unfold enterStopping
  extract_lets t
  have ht : t.ls.faults = (listGone .line .autoSlow s.ls.faults).1 := hf
  split
  · refine ⟨by simp [t], ?_, by rw [hn, hn], (enterLine_formed _ _).1⟩
    rw [(enterLine_spec _ _).2.2.2.1, ht]
    rfl
  · exact ⟨by simp [t], ht, hn _ _, (enterLine_formed _ _).1⟩

/-- R54, R55, R58 to R60: LS after the effective demand is formed again. -/
theorem reform_spec (s : State) :
    (reform s).ls.line = obeying s.ls.line s.demandNow s.atRest
      ∧ (reform s).ls.overflow = s.ls.overflow
      ∧ ((reform s).ls.faults = s.ls.faults
        ∨ (LineEnds s (reform s) ∧ (reform s).ls.faults = (listGone .line .autoSlow s.ls.faults).1))
      ∧ (reform s).ls.nextFault = s.ls.nextFault
      ∧ (reform s).ls.effDemand = (reform s).demandNow := by
  unfold reform
  extract_lets d _ s1
  have hr : s1.atRest = s.atRest := rfl
  have hd : d = s.demandNow := rfl
  have hs : s1.ls = { s.ls with effDemand := d } := rfl
  have hgo : ∀ st : LineState, st ≠ s.ls.line →
      (enterLine st s1).ls.line = st ∧ (enterLine st s1).ls.overflow = s.ls.overflow
      ∧ ((enterLine st s1).ls.faults = s.ls.faults
        ∨ (LineEnds s (enterLine st s1) ∧ (enterLine st s1).ls.faults = (listGone .line .autoSlow s.ls.faults).1))
      ∧ (enterLine st s1).ls.nextFault = s.ls.nextFault
      ∧ (enterLine st s1).ls.effDemand = (enterLine st s1).demandNow := by
    intro st hne
    obtain ⟨e1, -, e3, e4, -, e6, -, -, e9, -⟩ := enterLine_spec st s1
    refine ⟨e1, e3, ?_, e9, e6⟩
    rw [e4, hs]
    split
    · rename_i h
      refine .inr ⟨⟨by rw [e1]; exact hne, ?_⟩, rfl⟩
      rw [e1]
      cases st <;> simp [LineState.ends] at h ⊢
    · exact .inl rfl
  have hstop : s.ls.line ≠ .stopping → s.ls.line ≠ .stopped →
      (enterStopping s1).ls.line = (if s.atRest then .stopped else .stopping)
      ∧ (enterStopping s1).ls.overflow = s.ls.overflow
      ∧ ((enterStopping s1).ls.faults = s.ls.faults
        ∨ (LineEnds s (enterStopping s1) ∧ (enterStopping s1).ls.faults = (listGone .line .autoSlow s.ls.faults).1))
      ∧ (enterStopping s1).ls.nextFault = s.ls.nextFault
      ∧ (enterStopping s1).ls.effDemand = (enterStopping s1).demandNow := by
    intro h1 h2
    obtain ⟨e1, e2, e3, e4, e5⟩ := enterStopping_spec s1
    rw [hr] at e1
    refine ⟨e1, e2, .inr ⟨⟨?_, ?_⟩, e3⟩, e4, e5⟩ <;> rw [e1] <;> split
    · exact Ne.symm h2
    · exact Ne.symm h1
    · exact .inr (.inl rfl)
    · exact .inl rfl
  have hsame : ∀ t, t = (if s.ls.line = .starting ∧ d ≠ s.ls.effDemand then issueDrive s1 else s1) →
      t.ls.line = s.ls.line ∧ t.ls.overflow = s.ls.overflow ∧ t.ls.faults = s.ls.faults
      ∧ t.ls.nextFault = s.ls.nextFault ∧ t.ls.effDemand = t.demandNow := by
    rintro t rfl
    have hn : s1.demandNow = s.demandNow := rfl
    split
    · refine ⟨by rw [issueDrive_ls, hs], by rw [issueDrive_ls, hs], by rw [issueDrive_ls, hs], by rw [issueDrive_ls, hs],
        ?_⟩
      rw [demandNow_congr (s := s1) (by rw [issueDrive_ls]) (by rw [issueDrive_ls]) (by rw [issueDrive_ls])
        (issueDrive_cm _), issueDrive_ls, hs, hn, hd]
    · exact ⟨rfl, rfl, rfl, rfl, by rw [hn, hs, hd]⟩
  rw [← hd]
  clear_value d
  have hsame' := hsame _ rfl
  cases hl : s.ls.line <;> cases d <;> simp only [lineTarget, obeying] <;>
    first
    | (simp only [hl] at hsame'; exact ⟨hsame'.1, hsame'.2.1, .inl hsame'.2.2.1, hsame'.2.2.2⟩)
    | exact hgo _ (by rw [hl]; decide)
    | exact hstop (by rw [hl]; decide) (by rw [hl]; decide)

/-! ## The list -/

theorem mem_listGone_other {src : Source} {code : FaultCode} {l : List FaultEntry} {e : FaultEntry} (he : e ∈ l)
    (hn : ¬ (e.source = src ∧ e.code = code)) : e ∈ (listGone src code l).1 := by
  unfold listGone
  extract_lets hit
  have hh : hit e = false := by simpa [hit] using hn
  split
  · exact List.mem_filter.2 ⟨he, by simp [hh]⟩
  · exact List.mem_map.2 ⟨e, he, by simp [hh]⟩

theorem updateEntry_eq (f : Raise) (e : FaultEntry) : updateEntry f e = raisedAgain f e := by
  unfold updateEntry raisedAgain FaultClass.max
  congr 1
  by_cases h : f.cls.code ≤ e.cls.code
  · rw [if_pos h, if_neg (Nat.not_lt.2 h)]
  · rw [if_neg h, if_pos (Nat.not_le.1 h)]

theorem any_names (f : Raise) (l : List FaultEntry) :
    l.any (fun e => decide (e.source = f.source ∧ e.code = f.code)) = true ↔ ∃ e ∈ l, Names f e := by
  simp [Names]

/-- R50, R52: LS after a raising, before the demand is formed. -/
theorem listFault_spec (f : Raise) (s : State) :
    (listFault f s).ls.faults = listAfter f s
      ∧ (listFault f s).ls.line = s.ls.line
      ∧ ((∀ e ∈ s.ls.faults, ¬ Names f e) → s.ls.faults.length < 32 →
          (listFault f s).ls.nextFault = s.ls.nextFault + 1 ∧ (listFault f s).flag .faultNew = true)
      ∧ ((∃ e ∈ s.ls.faults, Names f e ∧ e.present = false) → f.present = true →
          (listFault f s).flag .faultNew = true)
      ∧ ((∃ e ∈ s.ls.faults, Names f e) ∨ 32 ≤ s.ls.faults.length →
          (listFault f s).ls.nextFault = s.ls.nextFault)
      ∧ ((∀ e ∈ s.ls.faults, ¬ Names f e) → 32 ≤ s.ls.faults.length →
          (listFault f s).ls.overflow = s.ls.overflow.max f.cls.demand ∧ (listFault f s).flag .overflow = true)
      ∧ ((∃ e ∈ s.ls.faults, Names f e) ∨ s.ls.faults.length < 32 →
          (listFault f s).ls.overflow = s.ls.overflow) := by
  have hany := any_names f s.ls.faults
  unfold listFault listAfter
  extract_lets hit again _ s1
  by_cases h : ∃ e ∈ s.ls.faults, Names f e
  · have hn : ¬ ∀ e ∈ s.ls.faults, ¬ Names f e := fun x => h.elim fun e he => x e he.1 he.2
    have hm : s1.ls.faults = s.ls.faults.map fun e =>
        if e.source = f.source ∧ e.code = f.code then raisedAgain f e else e := by
      simp only [s1, hit, updateEntry_eq, decide_eq_true_eq]
    rw [if_pos (hany.2 h), if_pos (hany.2 h)]
    have hls : (if again = true then setFlag .faultNew s1 else s1).ls = s1.ls := by
      split
      · exact setFlag_ls _ _
      · rfl
    refine ⟨by rw [hls, hm], by rw [hls], fun x => absurd x hn, fun hx hp => ?_, fun _ => by rw [hls],
      fun x => absurd x hn, fun _ => by rw [hls]⟩
    obtain ⟨e, he, hen, hep⟩ := hx
    have : again = true := by
      simp only [again, hp, Bool.true_and, List.any_eq_true, Bool.and_eq_true, Bool.not_eq_true', hit, decide_eq_true_eq]
      exact ⟨e, he, hen, hep⟩
    rw [if_pos this]
    simp
  · have hn : ∀ e ∈ s.ls.faults, ¬ Names f e := fun e he hx => h ⟨e, he, hx⟩
    have hx : ¬ ∃ e ∈ s.ls.faults, Names f e ∧ e.present = false := fun ⟨e, he, hy, _⟩ => hn e he hy
    rw [if_neg (fun y => h (hany.1 y)), if_neg (fun y => h (hany.1 y))]
    by_cases hlen : s.ls.faults.length < 32
    · have hlen' : s.ls.faults.length < Config.faultCap := hlen
      rw [if_pos hlen', if_pos hlen]
      refine ⟨by rw [setFlag_ls]; rfl, by rw [setFlag_ls], fun _ _ => ⟨by rw [setFlag_ls], by simp⟩, fun y => absurd y hx,
        fun y => y.elim (fun y => absurd y h) fun y => absurd hlen (Nat.not_lt.2 y),
        fun _ y => absurd hlen (Nat.not_lt.2 y), fun _ => by rw [setFlag_ls]⟩
    · have hlen' : ¬ s.ls.faults.length < Config.faultCap := hlen
      rw [if_neg hlen', if_neg hlen]
      exact ⟨by rw [setFlag_ls], by rw [setFlag_ls], fun _ y => absurd y hlen, fun y => absurd y hx,
        fun _ => by rw [setFlag_ls], fun _ _ => ⟨by rw [setFlag_ls], by simp⟩,
        fun y => y.elim (fun y => absurd y h) fun y => absurd y hlen⟩

/-- R51: the list after a report of gone, before the demand is formed. -/
theorem dropFault_spec (src : Source) (code : FaultCode) (s : State) :
    (∀ e ∈ (dropFault src code s).ls.faults, e.source = src → e.code = code → e.latched = true)
      ∧ ((∀ e ∈ s.ls.faults, e.source = src → e.code = code → e.latched = true) →
          ∀ e ∈ s.ls.faults, e.source = src → e.code = code →
            { e with present := false } ∈ (dropFault src code s).ls.faults)
      ∧ ((∃ e ∈ s.ls.faults, e.source = src ∧ e.code = code ∧ e.latched = false) →
          (dropFault src code s).flag .faultGone = true)
      ∧ (∀ e ∈ s.ls.faults, ¬ (e.source = src ∧ e.code = code) → e ∈ (dropFault src code s).ls.faults)
      ∧ (∀ e ∈ (dropFault src code s).ls.faults, e ∈ s.ls.faults ∨ (e.source = src ∧ e.code = code)) := by
  have hls := dropFault_ls src code s
  have hm : (dropFault src code s).ls.faults = (listGone src code s.ls.faults).1 := by rw [hls]
  refine ⟨?_, ?_, ?_, ?_, ?_⟩
  · intro e he h1 h2
    rw [hm] at he
    unfold listGone at he
    extract_lets hit at he
    split at he
    · have := (List.mem_filter.1 he).2
      simp [hit, h1, h2] at this
      exact this
    · rename_i hn
      obtain ⟨e', he', rfl⟩ := List.mem_map.1 he
      by_cases hh : hit e' = true
      · rw [if_pos hh]
        by_contra hl
        exact hn (List.any_eq_true.2 ⟨e', he', by simp [hh]; simpa [hh] using hl⟩)
      · rw [if_neg hh] at h1 h2
        exact absurd (by simp [hit, h1, h2]) hh
  · intro hall e he h1 h2
    rw [hm]
    unfold listGone
    extract_lets hit
    rw [if_neg]
    · exact List.mem_map.2 ⟨e, he, by simp [hit, h1, h2]⟩
    · intro hn
      obtain ⟨x, hx, hxx⟩ := List.any_eq_true.1 hn
      simp only [hit, Bool.and_eq_true, decide_eq_true_eq, Bool.not_eq_true'] at hxx
      rw [hall x hx hxx.1.1 hxx.1.2] at hxx
      cases hxx.2
  · rintro ⟨e, he, h1, h2, h3⟩
    unfold dropFault
    split
    rename_i l left heq
    have : left = true := by
      have h4 : (listGone src code s.ls.faults).2 = true := by
        unfold listGone
        extract_lets hit
        rw [if_pos (List.any_eq_true.2 ⟨e, he, by simp [hit, h1, h2, h3]⟩)]
      rw [heq] at h4
      exact h4
    simp [this]
  · intro e he hn
    rw [hm]
    exact mem_listGone_other he hn
  · intro e he
    rw [hm] at he
    rcases mem_listGone he with h | ⟨g, -, h1, h2, -, rfl⟩
    · exact .inl h
    · exact .inr ⟨h1, h2⟩

/-! ## A fault raised, a fault gone -/

/-- What R54's forming of the demand keeps of the list. -/
theorem reform_faults (s : State) :
    (∀ e ∈ s.ls.faults, ¬ IsAutoSlow e → e ∈ (reform s).ls.faults)
      ∧ ∀ e ∈ (reform s).ls.faults, e ∈ s.ls.faults
        ∨ ∃ g ∈ s.ls.faults, IsAutoSlow g ∧ g.latched = true ∧ e = { g with present := false } := by
  rcases (reform_spec s).2.2.1 with h | ⟨-, h⟩ <;> rw [h]
  · exact ⟨fun e he _ => he, fun e he => .inl he⟩
  · refine ⟨fun e he hn => mem_listGone_other he hn, fun e he => ?_⟩
    rcases mem_listGone he with h | ⟨g, hg, h1, h2, h3, rfl⟩
    · exact .inl h
    · exact .inr ⟨g, hg, ⟨h1, h2⟩, h3, rfl⟩

/-- R50, R52, R54: the raising of a fault at LS, with what follows it outside LS. -/
theorem raised_of_core {s t : State} (f : Raise) (hL : t.ls = (raiseCore f s).ls) (h : LineOnly (raiseCore f s) t) :
    Raised f s t := by
  obtain ⟨l1, l2, l3, l4, l5, l6, l7⟩ := listFault_spec f s
  obtain ⟨r1, r2, r3, r4, r5⟩ := reform_spec (listFault f s)
  replace hL : t.ls = (reform (listFault f s)).ls := hL
  have hcm : t.cm = (reform (listFault f s)).cm := h.others .cm (by decide)
  have hra : (listFault f s).atRest = s.atRest := by
    unfold State.atRest State.params
    rw [show (listFault f s).ra = s.ra from blind_ra.listFault f s, (listFault_lineOnly f s).params]
  have hfl : ∀ g, (listFault f s).flag g = true → t.flag g = true := fun g hg =>
    h.flags _ ((reform_lineOnly (listFault f s)).flags _ hg)
  refine ⟨?_, ?_, fun hx hp => hfl _ (l4 hx hp), fun hx => ?_, ?_, fun hx => ?_, ?_, ?_, (raiseCore_lineOnly f s).trans h⟩
  · rw [hL]
    rcases r3 with r3 | ⟨⟨e1, e2⟩, r3⟩
    · exact .inl (r3.trans l1)
    · refine .inr ⟨⟨?_, ?_⟩, by rw [r3, l1]⟩
      · rw [hL, ← l2]
        exact e1
      · rw [hL]
        exact e2
  · intro hn hlen
    exact ⟨by rw [hL, r4, (l3 hn hlen).1], hfl _ (l3 hn hlen).2⟩
  · rw [hL, r4, l5 hx]
  · intro hn hlen
    exact ⟨by rw [hL, r2, (l6 hn hlen).1], hfl _ (l6 hn hlen).2⟩
  · rw [hL, r2, l7 hx]
  · rw [show t.ls.effDemand = t.demandNow from ?_]
    · exact demandNow_mostSevere _
    · rw [demandNow_congr (s := reform (listFault f s)) (by rw [hL]) (by rw [hL]) (by rw [hL]) hcm, hL, r5]
  · refine ⟨_, demandNow_mostSevere (listFault f s), ?_⟩
    rw [hL, r1, hra, l2]

/-- R50, R52, R54: the raising of a fault at LS alone. -/
theorem raiseCore_raised (f : Raise) (s : State) : Raised f s (raiseCore f s) := raised_of_core f rfl (.refl _)

/-- R50, R52, R54: the raising of a fault, in a settled state. -/
theorem raise_raised {s : State} (f : Raise) (h : Settled s) : Raised f s (raise f s) :=
  raised_of_core f (raise_ls f h) (follow_lineOnly (h.after (raiseCore_lineOnly f s)))

/-- R51, R54: the report to LS that a fault is gone, with what follows it outside LS. -/
theorem withdrawn_of_core {s t : State} (src : Source) (code : FaultCode) (hL : t.ls = (goneCore src code s).ls)
    (h : LineOnly (goneCore src code s) t) : Withdrawn src code s t := by
  obtain ⟨l1, l2, l3, l4, l5⟩ := dropFault_spec src code s
  obtain ⟨r1, r2, -, -, r4⟩ := reform_spec (dropFault src code s)
  obtain ⟨k1, k2⟩ := reform_faults (dropFault src code s)
  replace hL : t.ls = (reform (dropFault src code s)).ls := hL
  have hcm : t.cm = (reform (dropFault src code s)).cm := h.others .cm (by decide)
  have hra : (dropFault src code s).atRest = s.atRest := by
    unfold State.atRest State.params
    rw [show (dropFault src code s).ra = s.ra from blind_ra.dropFault src code s, (dropFault_lineOnly src code s).params]
  have hls := dropFault_ls src code s
  refine ⟨?_, ?_, ?_, ?_, ?_, ?_, ?_, ?_, (goneCore_lineOnly src code s).trans h⟩
  · intro e he h1 h2
    rw [hL] at he
    rcases k2 e he with he | ⟨g, hg, -, hl, rfl⟩
    · exact l1 e he h1 h2
    · exact hl
  · intro hall e he h1 h2
    have hin := l2 hall e he h1 h2
    rw [hL]
    rcases (reform_spec (dropFault src code s)).2.2.1 with hr | ⟨-, hr⟩ <;> rw [hr]
    · exact hin
    · by_cases ha : e.source = .line ∧ e.code = .autoSlow
      · obtain ⟨rfl, rfl⟩ : src = .line ∧ code = .autoSlow := ⟨h1.symm.trans ha.1, h2.symm.trans ha.2⟩
        unfold listGone
        extract_lets hit
        rw [if_neg]
        · exact List.mem_map.2 ⟨_, hin, by simp [hit, ha]⟩
        · intro hx
          obtain ⟨x, hx, hxx⟩ := List.any_eq_true.1 hx
          simp only [hit, Bool.and_eq_true, decide_eq_true_eq, Bool.not_eq_true'] at hxx
          rw [l1 x hx hxx.1.1 hxx.1.2] at hxx
          cases hxx.2
      · exact mem_listGone_other hin ha
  · intro hx
    have := (reform_lineOnly (dropFault src code s)).flags _ (l3 hx)
    exact h.flags _ this
  · intro e he hn ha
    rw [hL]
    exact k1 e (l4 e he hn) ha
  · intro e he
    rw [hL] at he
    rcases k2 e he with he | ⟨g, hg, ha, -, rfl⟩
    · rcases l5 e he with h | h
      · exact .inl h
      · exact .inr (.inl h)
    · exact .inr (.inr ha)
  · rw [hL, r2, hls]
  · rw [show t.ls.effDemand = t.demandNow from ?_]
    · exact demandNow_mostSevere _
    · rw [demandNow_congr (s := reform (dropFault src code s)) (by rw [hL]) (by rw [hL]) (by rw [hL]) hcm, hL, r4]
  · exact ⟨_, demandNow_mostSevere (dropFault src code s), by rw [hL, r1, hra, hls]⟩

/-- R51, R54: the report to LS alone that a fault is gone. -/
theorem goneCore_withdrawn (src : Source) (code : FaultCode) (s : State) : Withdrawn src code s (goneCore src code s) :=
  withdrawn_of_core src code rfl (.refl _)

/-- R51, R54: the report that a fault is gone, in a settled state. -/
theorem gone_withdrawn {s : State} (src : Source) (code : FaultCode) (h : Settled s) :
    Withdrawn src code s (gone src code s) :=
  withdrawn_of_core src code (gone_ls src code h) (follow_lineOnly (h.after (goneCore_lineOnly src code s)))

end Sys2Proof.Machine
end

