-- ==== Sys2Proof/Tests/Slice0.lean ====
section
/-! SUPPORT. Tests: the checks of WellFormed, cases the manual works out, and for each statement of Obligations that has
hypotheses a witness that they can all be met, clause by clause. -/

namespace Sys2Proof.Tests

-- The tests run in the kernel one after another: all at once, their threads fill the memory.
set_option Elab.async false

open Sys2Proof Sys2Proof.Machine Sys2Proof.Safety

/-! ## Helpers -/

/-- The state a command answers with. -/
def after (c : Instr) (s : State) : State :=
  match exec c s with
  | .next t => t
  | .fault _ => s
  | .refused _ => s

/-- A part past its start-up load, with the line STOPPED, the link UP and no fault listed. -/
def ready : State :=
  { State.reset with
    cl := { Loader.reset with load := .ready, phase := .idle }
    ls := { LineSup.reset 0 with
      line := .stopped, effDemand := .stop, faults := [], drive := { level := .stop, setpoint := 0, line := .stopped } }
    sl := { SummitLink.reset 0 with link := .up, breakPending := false, restartFlag := false }
    lr := { LoopRelay.reset with loop := .closed } }

/-- The line in a state, with its desk demand and effective demand. -/
def lineAt (l : LineState) (d e : Demand) (s : State) : State :=
  { s with ls := { s.ls with
    line := l, deskDemand := d, effDemand := e, drive := { level := e, setpoint := 0, line := l } } }

/-- A request of the desk. -/
def request (p : List Byte) : Request := { source := 1, tag := 7, payload := p }

/-- The request stands alone in the request queue. -/
def asks (p : List Byte) (s : State) : State := { s with lr := { s.lr with requests := [request p] } }

/-- Berth 2, the last of a part with two berths, has a door drive and this door record. -/
def atBerth (d : Door) (s : State) : State :=
  let b : Berth := { entry := { Berth.reset.entry with mode := .openMode, doorNode := 9 }, door := d }
  { s with ds := { s.ds with berths := s.ds.berths.setIfInBounds 1 b } }

/-- A door record in a state. -/
def door (st : DoorState) : Door := { Berth.reset.door with state := st }

/-- Channel 47, the last of the table, has this entry. -/
def withChan (e : ChanEntry) (s : State) : State := setChan 47 { s.chan 47 with entry := e } s

/-- An ACTIVE channel of a kind at node 12, slot 0. -/
def active (k : ChanKind) : ChanEntry :=
  { Channel.reset.entry with
    state := .active, kind := k, node := 12, low := 400, high := 900, hysteresis := 50, persistence := 3
    staleTime := 50 }

/-- A fault entry of the line. -/
def fault (n : Word16) (code : FaultCode) (cls : FaultClass) (latched present : Bool) : FaultEntry :=
  { order := n, source := .line, code := code, cls := cls, latched := latched, present := present }

/-- A frame of one byte for a node. -/
def qframe (k : FrameKind) : QFrame := { dest := 9, kind := k, payload := [0], tag := 0, restart := false }

/-- A terminal queue record. -/
def record (id : Nat) (identity : Identity) (zone : Nat) : Cabin :=
  { id := id, identity := identity, zone := zone, entryPos := 0, grip := .none, force := none, locked := true
    orderMark := false }

/-- A registered cabin in the last slot of the fleet table. -/
def withCabin (id : Nat) (loc : Location) (s : State) : State :=
  { s with ct := { s.ct with fleet := s.ct.fleet.setIfInBounds 159 (some { id := id, location := loc }) } }

theorem asked_of {r : Request} {rest : List Request} {p : List Byte} {s : State}
    (h : s.resetHeld = false ∧ s.lr.requests = r :: rest ∧ r.payload = p ∧ s.lr.report.length < 8
      ∧ s.dr.restartWait = false ∧ r.source.toNat = s.params.deskNode ∧ s.cl.load = .ready) : Asked r rest p s :=
  ⟨h.1, h.2.1, h.2.2.1, h.2.2.2.1, h.2.2.2.2.1, h.2.2.2.2.2.1, h.2.2.2.2.2.2⟩

theorem settled_of {s : State} (h : s.cm.deferred = [] ∧ s.ct.backlogWaiting = none ∧ s.ct.backlogLaunched = []
    ∧ s.sl.txQueue.length < 16) : Settled s := ⟨h.1, h.2.1, h.2.2.1, h.2.2.2⟩

theorem kept_of {s : State} (h : s.demandNow = s.ls.effDemand
    ∧ (s.ls.effDemand = .trip → s.ls.line = .tripped) ∧ (s.ls.line = .running → s.ls.effDemand = .run)
    ∧ (s.ls.line = .slowed → s.ls.effDemand = .slow)
    ∧ (s.ls.line = .starting → s.ls.effDemand = .run ∨ s.ls.effDemand = .slow)
    ∧ (s.ls.deskDemand ≠ .trip
      ∧ (s.ls.line = .stopped ∨ s.ls.line = .stopping ∨ s.ls.line = .tripped → s.ls.deskDemand = .stop))
    ∧ s.ls.drive = driveContent s) : DemandKept s :=
  ⟨h.1 ▸ demandNow_mostSevere s, h.2.1, h.2.2.1, h.2.2.2.1, h.2.2.2.2.1, h.2.2.2.2.2.1, driveAnswers_of_content h.2.2.2.2.2.2⟩

theorem chanAllowed_of {s : State} {c : Nat} {e : ChanEntry}
    (h : chanInRange s.berthCount c e = true ∧ e.state ≠ .failed ∧ s.slotTaken c e = false) : ChanAllowed s c e :=
  (chanAllowed_iff c e s).2 ⟨h.1, fun g => absurd g h.2.1, fun _ => h.2.2⟩

/-! ## WellFormed: each check refuses an ill-formed command -/

theorem test_descriptor_short : Instr.wellFormed (.descriptorRead (some [0xAB, 0x5E])) = false := by decide
theorem test_config_record_short : Instr.wellFormed (.configRecordRead [2, 0, 0]) = false := by decide
theorem test_profile_record_empty : Instr.wellFormed (.profileRecordRead []) = false := by decide
theorem test_stale_channel : Instr.wellFormed (.staleTimeExpiry 48) = false := by decide
theorem test_bypass_channel : Instr.wellFormed (.bypassMinuteTick 48) = false := by decide
theorem test_open_delay_berth : Instr.wellFormed (.openDelayExpiry 0) = false := by decide
theorem test_dwell_berth : Instr.wellFormed (.dwellExpiry 9) = false := by decide
theorem test_ack_berth : Instr.wellFormed (.ackTimerExpiry 0) = false := by decide
theorem test_motion_berth : Instr.wellFormed (.motionTimerExpiry 9) = false := by decide
theorem test_hold_berth : Instr.wellFormed (.holdTimerExpiry 0) = false := by decide
theorem test_boundary_operands_pass :
    Instr.wellFormed (.staleTimeExpiry 47) = true ∧ Instr.wellFormed (.holdTimerExpiry 8) = true
      ∧ Instr.wellFormed (.configRecordRead [2, 0, 0, 2]) = true := by decide
/-- A part reading the record at 100 of a segment of the start-up load, the segments ending at `stop`. -/
def loading (phase : LoadPhase) (stop : Nat) : State :=
  let l := List.replicate 10 (100, stop)
  { State.reset with cl := { Loader.reset with phase := phase, pointers := some l } }
/-- An ill-formed command leaves the part as it is (log entry 3). -/
theorem test_ill_formed_has_no_effect :
    (after (.descriptorRead (some [])) State.reset).cl.load = .loading
      ∧ (after (.configRecordRead [2, 0, 0]) (loading (.segment 0 100 []) 200)).cl.skip = 0 := by
  decide

/-! ## Cases the manual works out -/

/-- 1.4.1: a forward step across both wraps. -/
theorem test_rope_forward_across_both_wraps :
    ropeStages { Channel.reset.entry with scale := 2500, step := 400, shift := 2 } 12000000 100 1000
        { Rope.reset with
          cLast := 65500, tLast := 65000, r := 750, p := 11999800, vf := 2100, baseValid := true, speedValid := true }
      = (.travel, { Rope.reset with
          cLast := 100, tLast := 1000, r := 750, p := 140, v := 2213, vf := 2128, baseValid := true
          speedValid := true }) := by
  decide
/-- 1.4.2: reverse travel past zero. -/
theorem test_rope_reverse_past_zero :
    ropeStages { Channel.reset.entry with scale := 2500, step := 400, shift := 3 } 12000000 3997 20160
        { Rope.reset with
          cLast := 4000, tLast := 20000, r := 200, p := 5, vf := 50, baseValid := true, speedValid := true }
      = (.travel, { Rope.reset with
          cLast := 3997, tLast := 20160, r := 700, p := 11999997, v := -468, vf := -15, baseValid := true
          speedValid := true }) := by
  decide

/-- The part with channel 7 as 2.3.1 has it, the line RUNNING. -/
def tension : State :=
  setChan 7 { Channel.reset with entry := { active .tension with cls := .slow } } (lineAt .running .run .run ready)
/-- A SAMPLE of one reading from node 12. -/
def sample (x : Nat) : Instr :=
  .loopFrameReceived (frameBytes 127 12 0x10 0 ([0, 0, 1] ++ enc2 x))
/-- 2.3.1: the third reading in a row below the window is OUT_LOW, and the line is SLOWED. -/
theorem test_tension_third_low_reading :
    let s := after (sample 380) (after (sample 385) (after (sample 390) tension))
    ((s.chan 7).rt.condition, s.ls.line, s.ls.faults.length) = (.outLow, .slowed, 1) := by decide +kernel
/-- 2.3.1: a reading in the window ends the run. -/
theorem test_tension_window_ends_the_run :
    let s := after (sample 410) (after (sample 370) (after (sample 380) tension))
    ((s.chan 7).rt.condition, (s.chan 7).rt.runCount) = (.normal, 0) := by decide +kernel

/-- The part after reset and load of 3.9.1, at rest. -/
def loaded : State :=
  { State.reset with
    cl := ready.cl, sl := ready.sl, lr := ready.lr, ra := { Rope.reset with speedValid := true }
    ls := { LineSup.reset 0 with
      commissioned := true
      params := { LineParams.reset with runSetpoint := 6000, slowSetpoint := 3000, startExit := 500, zeroBand := 50 } }
    dr := { DeskUnit.reset with key := .b } }
/-- 3.9.1: the keyed TRIP_RESET empties the list and the line is STOPPED, the drive request STOP 0. -/
theorem test_trip_reset_to_stopped :
    let s := after .tripReset (asks [0x0E] loaded)
    (s.ls.line, s.ls.faults, s.ls.drive.level, s.dr.key) = (.stopped, [], .stop, .none) := by decide +kernel
/-- 3.9.1: LINE SLOW starts the line with SLOW, 3,000; LINE RUN while STARTING changes only the drive request. -/
theorem test_line_slow_then_run :
    let s := after .lineSlow (asks [4, 1] (after .tripReset (asks [0x0E] loaded)))
    let t := after .lineRun (asks [4, 0] s)
    (s.ls.line, s.ls.drive.setpoint, t.ls.line, t.ls.drive.setpoint) = (.starting, 3000, .starting, 6000) := by
  decide +kernel
/-- 10.9.1: a keyed request with the key in no state is REFUSED, KEY. -/
theorem test_trip_reset_without_key :
    let s := after .tripReset (asks [0x0E] { loaded with dr := DeskUnit.reset })
    (s.ls.line, s.lr.report.map (·.payload)) = (.tripped, [[0x0E, 2, 6]]) := by decide +kernel
/-- 10.9.1: KEY_A, a STATUS from node 9, KEY_B: node 9 is refused with SOURCE and does not disturb the sequence. -/
theorem test_key_sequence_and_a_stranger :
    let s := after .keyA (asks [0x0C] { loaded with dr := DeskUnit.reset })
    let t := after .status { s with lr := { s.lr with requests := [{ source := 9, tag := 1, payload := [1] }] } }
    let u := after .keyB (asks [0x0D] t)
    (s.dr.key, t.dr.key, u.dr.key, t.lr.report.map (·.payload)) = (.a, .a, .b, [[0x0C, 0, 0], [1, 1 + 1, 1]]) := by
  decide +kernel

/-- 2.9.2: the writes to channel 7 while the line runs, their judgements only. -/
def narrowed (e : ChanEntry) : List (List Byte) :=
  (after .writeEntryChannel (asks ([3, 0] ++ enc2 7 ++ e.bytes) tension)).lr.report.map (·.payload)
theorem test_write_tighter_low : narrowed { (tension.chan 7).entry with low := 420 } = [[3, 0, 0]] := by decide +kernel
theorem test_write_looser_high : narrowed { (tension.chan 7).entry with high := 950 } = [[3, 2, 5]] := by decide +kernel
theorem test_write_empty_band :
    narrowed { (tension.chan 7).entry with hysteresis := 300 } = [[3, 2, 3]] := by decide +kernel
theorem test_write_structural_slot : narrowed { (tension.chan 7).entry with slot := 3 } = [[3, 2, 4]] := by decide +kernel

/-- The line of 4.10 with the cabins 57 and 31 on the way. -/
def terminal : State :=
  let s := lineAt .running .run .run ready
  { withCabin 31 .downhill s with
    ls := { s.ls with params := { LineParams.reset with
      loopLen := 12000000, downhillSpan := 3100000, tolerance := 6000, minSpacing := 72000 } }
    ra := { Rope.reset with p := 11202500, speedValid := true, vf := 5000 }
    ct := { (withCabin 31 .downhill s).ct with
      fleet := (withCabin 31 .downhill s).ct.fleet.setIfInBounds 0 (some { id := 57, location := .downhill })
      downhill := [{ id := 57, pos := 8100000, overdue := false }, { id := 31, pos := 8160000, overdue := false }] } }
/-- 4.10: cabin 31 before 57: ORDER for cabin 31, its record with the order mark, 57 left in the list. -/
theorem test_cabin_out_of_order :
    let s := cabinIdEvent 31 terminal
    (s.ct.queue.map (fun c => (c.id, c.zone, c.orderMark)), s.ct.downhill.map (·.id), s.ls.faults.map (·.code), s.ls.line)
      = ([(31, 0, true)], [57], [.order], .stopping) := by decide +kernel
/-- 4.10: a launch against HOLD with no last GO is a violation, and the line trips. -/
theorem test_launch_violation :
    let s := terminal
    let t := passageEvent 4 { s with ct := { s.ct with
      queue := [{ record 31 .registered 3 with grip := .pass }], downhill := [] } }
    (t.ct.queue, t.ct.uphill.map (·.id), t.ls.faults.map (·.code), t.ls.line) = ([], [31], [.launchViolation], .tripped) := by
  decide +kernel
/-- 7.6.1: the oldest uphill cabin is overdue at P = 156,001 and not at 156,000. -/
theorem test_overdue_boundary :
    let s := fun p : Nat =>
      { terminal with
        ls := { terminal.ls with params := { terminal.params with uphillSpan := 3150000 } }
        ra := { terminal.ra with p := p }
        ct := { CabinTracker.reset with uphill := [{ id := 214, pos := 9000000, order := 0, overdue := false }] } }
    ((positionUpdate (s 156000)).ct.uphill.map (·.overdue), (positionUpdate (s 156001)).ct.uphill.map (·.overdue))
      = ([false], [true]) := by decide +kernel

/-- 5.12: the dwell of berth 2 runs out at time 0 with gather window 10: window to 1,000, cap to 4,000. -/
theorem test_gather_window_and_cap :
    let d : Door := { door .open with dwellTimer := .running 0, cabin := some 88 }
    let s := atBerth d ready
    let b : Berth := { entry := { (s.berth 2).entry with gatherWindow := 10 }, door := d }
    let s := { s with ds := { s.ds with berths := s.ds.berths.setIfInBounds 1 b } }
    let t := after (.dwellExpiry 2) s
    ((t.door 2).state, t.ds.windowTimer, t.ds.capTimer) = (.pending, some 1000, some 4000) := by decide +kernel
/-- 5.12: an obstruction beyond the retries puts the record in FAULT, a latched STOP. -/
theorem test_obstruction_beyond_retries :
    let s := atBerth { door .closing with cabin := some 105, awaiting := false } (lineAt .slowed .slow .slow ready)
    let t := after (.loopFrameReceived (frameBytes 100 9 0x21 0 [4, 0])) s
    ((t.door 2).state, t.ls.faults.map (fun e => (e.code, e.latched, e.present)), t.ls.line)
      = (.fault, [(.doorFault, true, true)], .stopping) := by decide +kernel

/-- 6.8.1: the third empty reply window makes the link DEGRADED, the tenth LOST, with LINK_LOST a latched STOP. -/
theorem test_missed_turns :
    let s := fun n => { ready with sl := { ready.sl with
      missed := n, turn := .window 1, turnTimer := some 20, link := if n < 3 then .up else .degraded } }
    ((after .replyWindowClose (s 2)).sl.link, (after .replyWindowClose (s 9)).sl.link,
        (after .replyWindowClose (s 9)).ls.faults.map (·.code)) = (.degraded, .lost, [.linkLost]) := by decide +kernel
/-- 8.9: phone 1 lifts: OUTGOING, SERVICE, CALL_RING SERVICE to the summit and RINGING to the phone. -/
theorem test_phone_lifts :
    let s := { ready with cs := { ready.cs with
      phones := ready.cs.phones.setIfInBounds 1 { node := 61, priority := .service, ringGroup := false } } }
    let t := after (.loopFrameReceived (frameBytes 100 61 0x40 0 [0])) s
    (t.cs.call, t.cs.phone, t.sl.txQueue.map (fun e => (e.msg.type, e.msg.payload)), t.lr.voice.map (·.dest))
      = (.outgoing, some 1, [(3, [1])], [61]) := by decide +kernel
/-- 9.7: a frame that finds the relay buffer full is discarded with LOOP_OVERRUN. -/
theorem test_relay_overrun :
    let s := { ready with lr := { ready.lr with out := .inserting [] false, relay := [[1], [2], [3], [4]] } }
    let t := after (.loopFrameReceived (frameBytes 45 13 0x20 0 [])) s
    (t.lr.relay, t.flag .loopOverrun) = ([[1], [2], [3], [4]], true) := by decide +kernel
/-- 9.8: the deadline of the last outstanding frame opens the loop and raises LOOP_OPEN; the return of one closes it. -/
theorem test_loop_opens_and_closes :
    let e : OutEntry := { kind := 0x30, dest := 20, tag := 58, check := crc16 [20, 100, 0x30, 58, 0], deadline := 6 }
    let s := { lineAt .running .run .run ready with lr := { ready.lr with outstanding := [e] } }
    let t := after .returnDeadlineExpiry s
    let u := after (.loopFrameReceived (frameBytes 20 100 0x30 58 [])) { t with lr := { t.lr with outstanding := [e] } }
    (t.lr.loop, t.ls.faults.map (·.code), t.ls.line, u.lr.loop, u.ls.faults)
      = (.opened, [.loopOpen], .stopping, .closed, []) := by decide +kernel
/-- 11.4.1: the descriptor's signature begins the load; a bad TENSION record is skipped and counted. -/
theorem test_bad_record_skipped :
    let e := { active .tension with low := 400, high := 600, hysteresis := 150 }
    let l := [(0, 0), (100, 200), (0, 0), (0, 0), (0, 0), (0, 0), (0, 0), (0, 0), (0, 0), (0, 0)]
    let s := { State.reset with cl := { Loader.reset with phase := .segment 1 100 [4, 6, 7], pointers := some l } }
    let t := after (.configRecordRead (MemRecord.bytes { tableId := 0, index := 8, length := 21, contents := e.bytes })) s
    (t.cl.skip, (t.chan 8).entry.state, t.cl.phase) = (1, .unused, .segment 1 125 [4, 6, 7]) := by decide +kernel
/-- 12.1: the check of the nine digits, the value of CRC-16 with polynomial 1021h from FFFFh, unreflected. -/
theorem test_check_value : crc16 [0x31, 0x32, 0x33, 0x34, 0x35, 0x36, 0x37, 0x38, 0x39] = 0x29B1 := by decide +kernel

/-! ## Witnesses: the step, the load, the loop

Each states, clause by clause, that a concrete state and operands meet the hypotheses of the statement of Obligations
that it is named after. -/

theorem witness_ResetPinAndItsEnd : ready.resetHeld = false ∧ { ready with resetHeld := true }.resetHeld = true
    ∧ (∀ straps, Instr.keyA ≠ .resetEnd straps) ∧ Straps.atReset.memory = true
    ∧ { Straps.atReset with memory := false }.memory = false :=
  ⟨by decide, by decide, fun _ h => (by cases h), by decide, by decide⟩

theorem witness_TrippedUntilReset :
    Instr.keyA ≠ .tripReset ∧ (∀ x, Instr.keyA ≠ .resetEnd x) ∧ (∀ x, Instr.keyA ≠ .insertionEnd x)
      ∧ exec .keyA State.reset = .next State.reset ∧ State.reset.ls.line = .tripped :=
  ⟨by decide, fun _ h => (by cases h), fun _ h => (by cases h), rfl, rfl⟩

theorem ready_kept : DemandKept ready := kept_of (by decide)
theorem witness_DemandKeptByEveryStep :
    DemandKept ready ∧ step { ready with pending := [.driveRefreshExpiry] }
      = .next { ready with now := 40, ls := { ready.ls with refreshAt := 80 } } := ⟨ready_kept, rfl⟩

theorem witness_CabinsAccountedByEveryStep :
    Accounted (withCabin 999 .terminal { ready with ct := { ready.ct with queue := [record 999 .registered 0] } })
      ∧ ∃ t, step (withCabin 999 .terminal { ready with
        ct := { ready.ct with queue := [record 999 .registered 0] } }) = .next t := by
  refine ⟨⟨by decide +kernel, by decide +kernel, by decide +kernel, by decide +kernel, by decide +kernel,
    by decide +kernel, by decide +kernel, by decide +kernel⟩, ⟨_, rfl⟩⟩

/-- A terminal with a record in every zone, two of them in LAUNCH. -/
def full : State :=
  { ready with ct := { ready.ct with queue :=
    [record 1 .foreign 3, record 2 .foreign 3, record 3 .foreign 2, record 4 .foreign 1, record 5 .foreign 0] } }
theorem witness_TrackOrderedByEveryStep : TrackOrdered full ∧ ∃ t, step full = .next t := by
  refine ⟨⟨by decide, ?_, by decide⟩, ⟨_, rfl⟩⟩
  intro j h1 h2
  have : full.berthCount = 2 := by decide
  rw [this] at h2
  interval_cases j <;> decide

theorem witness_CapacitiesKeptByEveryStep :
    WithinCapacity { ready with lr := { ready.lr with report := List.replicate 8 (qframe .report) } }
      ∧ ∃ t, step { ready with lr := { ready.lr with report := List.replicate 8 (qframe .report) } } = .next t :=
  ⟨by constructor <;> first | decide | (unfold AtMostOneEach; decide), ⟨_, rfl⟩⟩

theorem witness_RopeInRangeByEveryStep :
    RopeInRange { ready with ra := { Rope.reset with p := 999, r := 999, vf := -32768 } }
      ∧ ∃ t, step { ready with ra := { Rope.reset with p := 999, r := 999, vf := -32768 } } = .next t :=
  ⟨⟨by decide, by decide, by decide, by decide⟩, ⟨_, rfl⟩⟩

theorem witness_TableEntriesReadBack :
    let e : ChanEntry := { active .tension with
      node := 255, slot := 255, low := 65535, high := 65535, hysteresis := 65535, persistence := 255, staleTime := 255
      standby := some 255, boundary := 255, scale := 65535, step := 65535, shift := 255 };
    (e.node < 256 ∧ e.slot < 256 ∧ e.low < 65536 ∧ e.high < 65536 ∧ e.hysteresis < 65536 ∧ e.persistence < 256
        ∧ e.staleTime < 256 ∧ (∀ b, e.standby = some b → b < 256) ∧ e.boundary < 256 ∧ e.scale < 65536
        ∧ e.step < 65536 ∧ e.shift < 256)
      ∧ LineAllowed LineParams.reset ∧ BerthAllowed Berth.reset.entry
      ∧ ({ Phone.reset with node := 255 }).node < 256 := by
  refine ⟨⟨by decide, by decide, by decide, by decide, by decide, by decide, by decide, ?_, by decide, by decide,
    by decide, by decide⟩, by constructor <;> decide, by constructor <;> decide, by decide⟩
  rintro b ⟨⟩
  decide

theorem witness_LoopFramesReadBack :
    (1 : Byte) ≠ 0 ∧ (126 : Byte) ≠ 0 ∧ (126 : Byte) ≠ 127 ∧ (List.replicate 60 (0 : Byte)).length ≤ 60 := by decide

/-- A FLEET record of cabin 999 for the last slot. -/
def fleetRecord : MemRecord := { tableId := 2, index := 159, length := 2, contents := enc2 999 }
/-- The PHONE, BERTH, CHANNEL and LINE_PARAMS records of the last phone, berth and channel, as reset has them. -/
def phoneRecord : MemRecord := { tableId := 3, index := 7, length := 3, contents := Phone.reset.bytes }
def berthRecord : MemRecord := { tableId := 1, index := 2, length := 10, contents := Berth.reset.entry.bytes }
def chanRecord (e : ChanEntry) : MemRecord := { tableId := 0, index := 47, length := 21, contents := e.bytes }
def lineRecord : MemRecord := { tableId := 4, index := 0, length := 46, contents := LineParams.reset.bytes }
theorem witness_StartUpLoadJudged :
    (State.reset.resetHeld = false ∧ State.reset.cl.load = .loading ∧ State.reset.cl.phase = .descriptor
        ∧ State.reset.sl.link = .down ∧ State.reset.cl.pending = none
        ∧ (let bs : List Byte := List.replicate 42 0; bs.length = 42 ∧ u16 bs 0 ≠ 0xAB5E)
        ∧ (let bs : List Byte := [0xAB, 0x5E, 0, 0, 0, 4] ++ List.replicate 36 0;
          bs.length = 42 ∧ u16 bs 0 = 0xAB5E ∧ u16 bs 2 + 4 ≤ u16 bs 4))
      ∧ (let s := loading (.segment 0 100 [1]) 105;
        s.resetHeld = false ∧ s.cl.load = .loading ∧ s.cl.phase = .segment 0 100 [1]
        ∧ (s.segment 0).2 < 100 + 4 + fleetRecord.length.toNat ∧ (s.segment 1).1 + 4 ≤ (s.segment 1).2)
      -- a record that the segment may not hold, and one whose length is not its table's
      ∧ (let s := loading (.segment 0 100 [1]) 110;
        segmentHolds 0 fleetRecord.tableId.toNat = false ∧ 100 + 4 + fleetRecord.length.toNat + 4 ≤ (s.segment 0).2
        ∧ entryLength fleetRecord.tableId.toNat ≠ some ({ fleetRecord with length := 3 }).length.toNat)
      ∧ (let s := loading (.segment 0 100 []) 106;
        s.cl.phase = .segment 0 100 [] ∧ s.sl.link = .down ∧ s.cl.pending = none
        ∧ segmentHolds 0 fleetRecord.tableId.toNat = false ∧ (s.segment 0).2 = 100 + 4 + fleetRecord.length.toNat)
      ∧ (let s := loading (.segment 6 100 []) 110;
        s.cl.phase = .segment 6 100 [] ∧ fleetRecord.contents.length = fleetRecord.length.toNat
        ∧ 100 + 4 + fleetRecord.length.toNat + 4 ≤ (s.segment 6).2
        ∧ fleetRecord.tableId = 2 ∧ fleetRecord.length = 2
        ∧ fleetRecord.index.toNat < 160 ∧ s.ct.fleet[fleetRecord.index.toNat]?.getD none = none
        ∧ 1 ≤ u16 fleetRecord.contents 0 ∧ u16 fleetRecord.contents 0 ≤ 999
        ∧ s.registered (u16 fleetRecord.contents 0) = false ∧ (∀ c ∈ s.ct.queue, c.id ≠ u16 fleetRecord.contents 0))
      -- a valid record of each other table, with more records after it
      ∧ (let s := loading (.segment 7 100 []) 111;
        phoneRecord.contents.length = phoneRecord.length.toNat ∧ 100 + 4 + phoneRecord.length.toNat + 4 ≤ (s.segment 7).2
        ∧ validPhone phoneRecord.index.toNat phoneRecord.contents s = .ok Phone.reset)
      ∧ (let s := loading (.segment 5 100 []) 118;
        berthRecord.contents.length = berthRecord.length.toNat ∧ 100 + 4 + berthRecord.length.toNat + 4 ≤ (s.segment 5).2
        ∧ validBerth true berthRecord.index.toNat berthRecord.contents s = .ok Berth.reset.entry
        ∧ (s.berth 2).entry = Berth.reset.entry)
      ∧ (let s := loading (.segment 1 100 []) 129; let r := chanRecord (active .tension);
        r.contents.length = r.length.toNat ∧ 100 + 4 + r.length.toNat + 4 ≤ (s.segment 1).2
        ∧ validChan r.index.toNat r.contents s = .ok (active .tension)
        ∧ (s.chan r.index.toNat).entry.staleTime ≤ (active .tension).staleTime)
      ∧ (let s := loading (.segment 0 100 []) 154;
        lineRecord.contents.length = lineRecord.length.toNat ∧ 100 + 4 + lineRecord.length.toNat + 4 ≤ (s.segment 0).2
        ∧ validLine lineRecord.index.toNat lineRecord.contents = .ok LineParams.reset)
      -- the last record of the load
      ∧ (let s := loading (.segment 7 100 []) 107;
        (s.segment 7).2 = 100 + 4 + phoneRecord.length.toNat ∧ s.cl.skip = 0 ∧ s.sl.link = .down ∧ s.cl.pending = none
        ∧ validPhone phoneRecord.index.toNat phoneRecord.contents s = .ok Phone.reset)
      ∧ (let s := { ready with cl := { ready.cl with profile := .reading .calm 100 } };
        s.cl.pending = none ∧ s.cl.load = .ready ∧ s.cl.profile = .reading .calm 100) := by decide +kernel
theorem witness_StartUpLoadJudged_settled : ∀ phase stop, Settled (loading phase stop) :=
  fun _ _ => settled_of ⟨rfl, rfl, rfl, Nat.succ_pos 15⟩

/-- A part reading the CALM profile, with `n` records staged and the segment ending at `stop`. -/
def reading (n stop : Nat) : State :=
  let l := List.replicate 10 (100, stop)
  let r := { fleetRecord with tableId := 0 }
  { ready with cl := { ready.cl with profile := .reading .calm 100, pointers := some l, staging := List.replicate n r } }
/-- A part applying the CALM profile. -/
def applying (l : LineState) (r : MemRecord) (rest : List MemRecord) : State :=
  withChan (active .tension) (lineAt l .run .run { ready with
    cl := { ready.cl with profile := .applying .calm, staging := r :: rest } })
theorem witness_ProfilesStagedAndApplied :
    (let r := chanRecord (active .tension);
      (reading 63 129).resetHeld = false ∧ r.contents.length = r.length.toNat ∧ (reading 63 129).cl.profile = .reading .calm 100
      ∧ r.tableId = 0 ∧ r.length = 21 ∧ (reading 63 129).cl.staging.length < 64
      ∧ 100 + 4 + r.length.toNat + 4 ≤ ((reading 63 129).segment Profile.calm.segment).2
      ∧ 64 ≤ (reading 64 129).cl.staging.length
      ∧ 100 + 4 + r.length.toNat = ((reading 63 125).segment Profile.calm.segment).2
      ∧ ¬ ((fleetRecord.tableId = 0 ∧ fleetRecord.length = 21) ∨ (fleetRecord.tableId = 4 ∧ fleetRecord.length = 46)))
    ∧ (∀ l r rest, let s := applying l r rest;
      s.resetHeld = false ∧ s.cl.profile = .applying .calm ∧ s.cl.staging = r :: rest ∧ s.cl.pending = none ∧ s.ls.line = l
        ∧ Settled s ∧ s.params = LineParams.reset)
    ∧ (∀ rest, let s := applying .running lineRecord rest;
      (s.chan 47).entry = active .tension ∧ s.bypassed 47 = false ∧ s.dr.capture = none
        ∧ ∀ x, ¬ ∃ y ∈ s.cm.subst, y.primary = x ∨ y.standby = x) :=
  ⟨by decide +kernel, fun _ _ _ => ⟨rfl, rfl, rfl, rfl, rfl, settled_of ⟨rfl, rfl, rfl, Nat.succ_pos 15⟩, rfl⟩,
    fun _ => ⟨rfl, rfl, rfl, fun _ h => (by obtain ⟨_, h, _⟩ := h; cases h)⟩⟩
/-- A channel entry that its owner accepts, as it stands and loosened; two that are not valid. -/
theorem witness_ProfilesStagedAndApplied_channels :
    (∀ n, n ≤ 4 → let e := { active .tension with persistence := n };
      let r := chanRecord e;
      r.tableId = 0 ∧ r.index.toNat = 47 ∧ r.contents.length = 21)
    ∧ (∀ n, 3 ≤ n → n ≤ 4 → let e := { active .tension with persistence := n };
      ChanEntry.ofBytes e.bytes = some e ∧ ChanAllowed (applying .running lineRecord []) 47 e
        ∧ ¬ ChanStructural (active .tension) e)
    ∧ ChanLoosens (active .tension) { active .tension with persistence := 4 }
    ∧ ¬ ChanLoosens (active .tension) (active .tension)
    ∧ (active .tension).state = .active ∧ (active .tension).staleTime ≤ (active .tension).staleTime
    ∧ (∀ e, ChanEntry.ofBytes { active .tension with node := 0 }.bytes = some e →
      ¬ ChanAllowed (applying .running lineRecord []) 47 e)
    ∧ ¬ (48 : Word16).toNat < 48 := by
  refine ⟨?_, ?_, by simp [ChanLoosens, active, Channel.reset], by simp [ChanLoosens, active, Channel.reset], by decide,
    by decide, ?_, by decide⟩
  · intro n _; exact ⟨rfl, rfl, by decide +revert⟩
  · intro n h1 h2
    have : n = 3 ∨ n = 4 := by omega
    rcases this with rfl | rfl
    all_goals exact ⟨by decide +kernel, chanAllowed_of (by decide +kernel), by simp [ChanStructural, active, Channel.reset]⟩
  · intro e h
    have h2 : ChanEntry.ofBytes { active .tension with node := 0 }.bytes = some { active .tension with node := 0 } := by
      decide +kernel
    obtain rfl := Option.some.inj (h2.symm.trans h)
    exact fun g => absurd g.node (by decide)
/-- The LINE_PARAMS entry of the record, loosened, tightened and not valid. -/
theorem witness_ProfilesStagedAndApplied_lines :
    (let p := fun n => { LineParams.reset with tolerance := n };
      let r := fun n => { lineRecord with contents := (p n).bytes };
      (r 101).tableId = 4 ∧ (r 101).index.toNat = 0 ∧ (r 101).contents.length = 46 ∧ LineParams.ofBytes (r 101).contents = p 101
        ∧ LineParams.ofBytes (r 100).contents = LineParams.reset
        ∧ LineAllowed (p 101) ∧ LineAllowed (p 100) ∧ LineLoosens LineParams.reset (p 101)
        ∧ ¬ LineLoosens LineParams.reset (p 100) ∧ ¬ LineStructural LineParams.reset (p 100)
        ∧ p 101 = { LineParams.reset with tolerance := (p 101).tolerance })
      ∧ ({ lineRecord with index := 1 } : MemRecord).index.toNat ≠ 0 := by
  refine ⟨⟨by decide, by decide, by decide, by decide +kernel, by decide +kernel, by constructor <;> decide, by constructor <;> decide,
    by simp [LineLoosens, LineParams.reset], by simp [LineLoosens, LineParams.reset],
    by simp [LineStructural, LineParams.reset], by decide⟩, by decide⟩

/-- An outstanding entry that matches a frame, or one that does not. -/
def outEntry (f : Frame) (tag : Byte) : OutEntry :=
  { kind := f.kind, dest := f.dest, tag := tag, check := f.check, deadline := 5 }
/-- The frame that these bytes spell. -/
def frameOf (dest source kind : Byte) : Frame :=
  { dest := dest, source := source, kind := kind, tag := 1, payload := [], check := crc16 [dest, source, kind, 1, 0] }
theorem witness_LoopFramesJudged :
    parseFrame [0] = none
      ∧ (let f := frameOf 9 100 0x20;
        parseFrame (frameBytes 9 100 0x20 1 []) = some f ∧ f.source = ready.ownAddress
        ∧ ready.lr.outstanding = []
        ∧ (let s := { ready with lr := { ready.lr with outstanding := [outEntry f 2, outEntry f 1] } };
          s.lr.outstanding = [outEntry f 2] ++ outEntry f 1 :: [] ∧ (outEntry f 1).kind = f.kind
          ∧ (outEntry f 1).dest = f.dest ∧ (outEntry f 1).tag = f.tag ∧ (outEntry f 1).check = f.check
          ∧ (outEntry f 2).tag ≠ f.tag ∧ s.lr.loop ≠ .opened
          ∧ { s.lr with loop := .opened }.loop = .opened))
      ∧ (let f := frameOf 100 1 0x50;
        parseFrame (frameBytes 100 1 0x50 1 []) = some f ∧ f.source ≠ ready.ownAddress ∧ f.dest = ready.ownAddress
        ∧ f.kind = 0x50 ∧ (frameOf 100 1 0x20).kind ∉ [0x10, 0x21, 0x40, 0x41, 0x50]
        ∧ { ready with lr := { ready.lr with requests := List.replicate 3 (request []) } }.lr.requests.length < 4
        ∧ 4 ≤ { ready with lr := { ready.lr with requests := List.replicate 4 (request []) } }.lr.requests.length)
      ∧ (let f := frameOf 127 1 0x20;
        parseFrame (frameBytes 127 1 0x20 1 []) = some f ∧ f.source ≠ ready.ownAddress ∧ f.dest ≠ ready.ownAddress
        ∧ ¬ (f.dest = 127 ∧ f.kind = 0x10) ∧ ready.lr.out = .idle ∧ ready.lr.relay = []
        ∧ { ready with lr := { ready.lr with relay := List.replicate 3 [] } }.lr.relay ≠ []
        ∧ { ready with lr := { ready.lr with relay := List.replicate 3 [] } }.lr.relay.length < 4
        ∧ 4 ≤ { ready with lr := { ready.lr with relay := List.replicate 4 [] } }.lr.relay.length) := by
  decide +kernel

theorem witness_LoopFramesJudged_settled : Settled ready := settled_of (by decide)

theorem witness_LoopOutSent :
    (let s := fun relay => { ready with lr := { ready.lr with out := .forwarding [1], relay := relay } };
      (s []).resetHeld = false ∧ (s []).lr.out = .forwarding [1] ∧ (s []).lr.relay = [] ∧ (s [[2]]).lr.relay = [2] :: [])
    ∧ (let p : List Byte := List.replicate 60 0;
      let s := fun relay => { ready with lr := { ready.lr with
        out := .inserting (frameBytes 9 100 0x20 1 p) false, relay := relay } };
      p.length ≤ 60 ∧ (s []).lr.out = .inserting (frameBytes 9 100 0x20 1 p) false ∧ (s []).lr.relay = []
      ∧ (s [[2]]).lr.relay = [2] :: [])
    ∧ { ready with lr := { ready.lr with out := .inserting [] true } }.lr.out = .inserting [] true
    ∧ Straps.atReset.memory = true := by decide +kernel

theorem witness_InsertionTakesTheFirstQueue :
    (let s := { ready with lr := { ready.lr with outstanding := List.replicate 8 (outEntry (frameOf 9 100 0x20) 1) } };
      s.resetHeld = false ∧ 8 ≤ s.lr.outstanding.length)
    ∧ (let s := { ready with lr := { ready.lr with
        outstanding := List.replicate 7 (outEntry (frameOf 9 100 0x20) 1), safety := [qframe .driveReq] } };
      s.lr.out = .idle ∧ s.lr.relay = [] ∧ s.lr.outstanding.length < 8 ∧ (qframe .driveReq).kind ≠ .reply
      ∧ s.lr.safety = qframe .driveReq :: [])
    ∧ (let s := { ready with lr := { ready.lr with door := [qframe .doorCmd] } };
      s.lr.out = .idle ∧ s.lr.relay = [] ∧ s.lr.outstanding.length < 8 ∧ (qframe .doorCmd).kind ≠ .reply
      ∧ s.lr.safety = [] ∧ s.lr.door = qframe .doorCmd :: [])
    ∧ (let s := { ready with lr := { ready.lr with voice := [qframe .voice] } };
      (qframe .voice).kind ≠ .reply ∧ s.lr.safety = [] ∧ s.lr.door = [] ∧ s.lr.voice = qframe .voice :: [])
    ∧ (let s := { ready with lr := { ready.lr with report := [qframe .reply] } };
      s.lr.safety = [] ∧ s.lr.door = [] ∧ s.lr.voice = [] ∧ s.lr.report = qframe .reply :: []) := by decide


/-! ## Witnesses: the rope, the channels, the line -/

theorem witness_CountStepRawSpeedAndSpeedTests :
    ((0x8000 : Word16) = 1 + BitVec.ofNat 16 32767 ∧ (0x8000 : Word16) = 0 - BitVec.ofNat 16 32768)
      ∧ (1 : Nat) ≤ 1 ∧ ((3276 : Int) * 10).natAbs < 32768 * 1 ∧ ((-7500 : Int) * 10).natAbs < 32768 * 160 := by decide

/-- The bytes of a SAMPLE of one reading from node 12. -/
def sampleTo (dest : Byte) (x t : Word16) : List Byte := frameBytes dest 12 0x10 0 (enc2 t.toNat ++ enc1 1 ++ enc2 x.toNat)
/-- The frame that they spell. -/
def sampleFrame (dest : Byte) (x t : Word16) : Frame :=
  let p := enc2 t.toNat ++ enc1 1 ++ enc2 x.toNat
  { dest := dest, source := 12, kind := 0x10, tag := 0, payload := p, check := crc16 ([dest, 12, 0x10, 0, 5] ++ p) }
/-- The runtime record that reset leaves. -/
abbrev still : Runtime := Channel.reset.rt
/-- Channel 47, at node 12 and slot 0, is ACTIVE of this kind with this runtime record. -/
def sensing (k : ChanKind) (rt : Runtime) (s : State) : State :=
  setChan 47 { s.chan 47 with entry := { active k with scale := 25, step := 100, shift := 4, boundary := 4 }, rt := rt } s
theorem sampled_of {dest : Byte} {x t : Word16} {s : State}
    (hp : parseFrame (sampleTo dest x t) = some (sampleFrame dest x t))
    (h : s.resetHeld = false ∧ s.dr.capture = none ∧ (12 : Byte) ≠ s.ownAddress ∧ s.channelAt 12 0 = some 47
      ∧ (∀ i, 1 ≤ i → i < 8 → s.channelAt 12 i = none) ∧ (s.chan 47).entry.state = .active) :
    Sampled dest (sampleTo dest x t) x t 47 s :=
  ⟨h.1, h.2.1, ⟨_, hp, h.2.2.1, rfl, rfl, rfl, h.2.2.2.1, h.2.2.2.2.1⟩, by decide, h.2.2.2.2.2⟩

/-- RA with a base. -/
def based : Rope := { Rope.reset with cLast := 65500, tLast := 65500, baseValid := true }
/-- The encoder is channel 47, and the line in this state; the limits are those of reset, 0. -/
def roping (ra : Rope) (l : LineState) (e : Demand) : State :=
  lineAt l e e { sensing .encoder still ready with ra := { ra with encoder := some 47 } }
theorem witness_EncoderReadingStages :
    (let e := { active .encoder with scale := 25, step := 100, shift := 4 };
      Rope.reset.baseValid = false ∧ based.baseValid = true ∧ timeStep 65500 based.tLast = 0
        ∧ timeStep 4 based.tLast ≠ 0 ∧ e.step < (countStep 65 based.cLast).natAbs
        ∧ (countStep 64 based.cLast).natAbs ≤ e.step ∧ 1 ≤ e.shift ∧ { e with shift := 0 }.shift = 0)
    ∧ (let s := roping based .slowed .slow;
      Sampled s.ownAddress (sampleTo 100 64 4) 64 4 47 s ∧ Settled s ∧ DemandKept s) :=
  ⟨by decide, sampled_of (by decide +kernel) (by decide +kernel), settled_of (by decide +kernel),
    kept_of (by decide +kernel)⟩
/-- A travel of 100 counts in 40 ms, the filtered speed 39; and one of 100 counts back, the speed −39. -/
theorem witness_EncoderReadingStages_travel :
    let stages := fun n t s => ropeStages (State.chan s 47).entry s.params.loopLen n t s.ra;
    let m := fun n t s => credited 47 n { (State.chan s 47).rt with runCount := 0 } { s with ra := (stages n t s).2 };
    let up := { id := 999, pos := 0, order := 1, overdue := false };
    (let s := roping based .slowed .slow;
      s.ra.encoder = some 47 ∧ (s.chan 47).entry.kind = .encoder ∧ (stages 64 4 { s with ra := Rope.reset }).1 = .base
      ∧ (stages 64 65500 s).1 = .repeated ∧ (stages 65 4 s).1 = .jump
      ∧ (s.chan 47).rt.runCount + 1 < (s.chan 47).entry.persistence
      ∧ (stages 64 4 s).1 = .travel ∧ s.params.slowedLimit < (m 64 4 s).ra.vf.natAbs
      ∧ (m 64 4 s).ra.vf = 39 ∧ ¬ (m 64 4 s).ra.vf < -(s.params.reverseLimit : Int)
      ∧ (m 65400 4 s).ra.vf < -(s.params.reverseLimit : Int) ∧ s.ct.downhill.head? = none
      ∧ ∀ y ∈ s.ls.faults, ¬ (y.source = .channel 47 ∧ (y.code = .overspeed ∨ y.code = .rollback)))
    ∧ (let s := roping based .starting .slow;
      let s := { s with ls := { s.ls with params := { s.params with startingLimit := 39, startExit := 39 } } };
      ¬ s.params.startingLimit < (m 64 4 s).ra.vf.natAbs ∧ (m 64 4 s).startExit = true)
    ∧ (let s := roping based .stopping .stop;
      let s := { s with ls := { s.ls with params := { s.params with stoppingLimit := 39, zeroBand := 39 } } };
      ¬ s.params.stoppingLimit < (m 64 4 s).ra.vf.natAbs ∧ (m 64 4 s).atRest = true)
    ∧ (let s := { roping { based with p := 100 } .slowed .slow with ct := { ready.ct with uphill := [up] } };
      s.ct.uphill = up :: [] ∧ (m 64 4 s).forward = true
      ∧ s.params.uphillSpan + s.params.tolerance < (m 64 4 s).forwardDist up.pos) := by decide +kernel

/-- Channel 47 is in a run of `n` readings below the window. -/
def running (n : Nat) (s : State) : State :=
  setChan 47 { s.chan 47 with rt := { (s.chan 47).rt with runCount := n, runSide := .low } } s
theorem witness_SampleReadingsJudged :
    (let s := ready; let f := sampleFrame 100 400 7;
      s.resetHeld = false ∧ s.dr.capture = none ∧ parseFrame (sampleTo 100 400 7) = some f
      ∧ f.source ≠ s.ownAddress ∧ f.dest = s.ownAddress
      ∧ f.payload = enc2 (7 : Word16).toNat ++ enc1 1 ++ enc2 (400 : Word16).toNat
      ∧ (∀ i, 1 ≤ i → i < 8 → s.channelAt f.source.toNat i = none) ∧ s.channelAt f.source.toNat 0 = none)
    ∧ (let s := withChan (active .tension) ready;
      (∀ i, 1 ≤ i → i < 8 → s.channelAt 12 i = none) ∧ s.channelAt 12 0 = some 47 ∧ (s.chan 47).entry.state = .active
      ∧ (s.chan 47).entry.kind = .tension ∧ (s.chan 47).rt.condition = .normal
      ∧ (s.chan 47).entry.low ≤ (400 : Word16).toNat ∧ (900 : Word16).toNat ≤ (s.chan 47).entry.high)
    ∧ (let s := running 1 (withChan (active .tension) ready);
      s.channelAt 12 0 = some 47 ∧ (399 : Word16).toNat < (s.chan 47).entry.low ∧ (s.chan 47).rt.runSide = .low
      ∧ (s.chan 47).rt.runCount ≠ 0 ∧ (s.chan 47).rt.runCount + 1 < (s.chan 47).entry.persistence)
    ∧ (let s := withChan (active .cabinId) ready;
      s.channelAt 12 0 = some 47 ∧ (s.chan 47).entry.kind = .cabinId ∧ 1000 ≤ (1000 : Word16).toNat
      ∧ s.ct.queue.length < 24 ∧ s.registered 0 = false) := by decide +kernel

/-- A wind channel with these levels and counts, the part-wide band its own. -/
def blowing (windy storm : Bool) (wn sn : Nat) (band : Band) : State :=
  let s := sensing .wind { still with windy := windy, storm := storm, windyCount := wn, stormCount := sn } ready
  { s with cm := { s.cm with windBand := band } }
theorem witness_SampleReadingsJudged_wind :
    (let s := blowing false false 2 2 .calm; Sampled s.ownAddress (sampleTo 100 899 7) 899 7 47 s ∧ Settled s ∧ DemandKept s)
    ∧ (let e := ((blowing false false 0 0 .calm).chan 47).entry;
      e.kind = .wind ∧ e.hysteresis ≤ e.low ∧ e.low ≤ e.high ∧ (399 : Word16).toNat < e.low ∧ e.low ≤ (400 : Word16).toNat
      ∧ (899 : Word16).toNat < e.high ∧ e.high ≤ (900 : Word16).toNat ∧ e.low - e.hysteresis ≤ (350 : Word16).toNat
      ∧ (349 : Word16).toNat < e.low - e.hysteresis ∧ (849 : Word16).toNat < e.high - e.hysteresis
      ∧ 1 + 1 < e.persistence ∧ e.persistence ≤ 2 + 1)
    ∧ (∀ c ∈ [blowing false false 2 2 .calm, blowing true false 2 2 .windy, blowing true true 2 2 .storm],
      c.cm.windBand = c.bandNow)
    ∧ (∀ i, i < 48 → i ≠ 47 → ((blowing true true 2 2 .storm).chan i).entry.state ≠ .active)
    -- another wind channel keeps the part-wide band WINDY
    ∧ (let s := blowing false false 2 2 .windy;
      let t := setChan 46 { s.chan 46 with
        entry := { active .wind with slot := 8 }, rt := { still with windy := true } } s;
      t.cm.windBand = t.bandNow ∧ t.cm.windBand ≠ .calm ∧ t.channelAt 12 0 = some 47)
    -- the loader ready with no pointers, and busy
    ∧ (let s := blowing false false 2 2 .calm;
      s.cl.load = .ready ∧ s.cl.profile = .idle ∧ s.cl.pointers = none
      ∧ { s.cl with profile := .reading .calm 100 }.profile ≠ .idle) :=
  ⟨⟨sampled_of (by decide +kernel) (by decide +kernel), settled_of (by decide +kernel), kept_of (by decide +kernel)⟩,
    by decide +kernel⟩

theorem witness_SampleReadingsJudged_passage :
    (∀ base, let s := sensing .passage { still with counterBase := base } (lineAt .running .run .run ready);
      (s.chan 47).entry.kind = .passage ∧ (s.chan 47).rt.counterBase = base ∧ s.ls.line = .running
        ∧ s.params.idleSlow = 0 ∧ s.lr.out = .idle ∧ s.lr.relay = [])
    ∧ (let s := sensing .passage still (lineAt .running .run .run ready);
      Sampled s.ownAddress (sampleTo 100 7 7) 7 7 47 s ∧ Sampled 127 (sampleTo 127 7 7) 7 7 47 s ∧ Settled s
        ∧ DemandKept s)
    ∧ { LineParams.reset with idleSlow := 12 }.idleSlow ≠ 0
    ∧ (List.replicate 3 ([1] : List Byte)).length < 4 ∧ 4 ≤ (List.replicate 4 ([1] : List Byte)).length :=
  ⟨fun _ => ⟨rfl, rfl, rfl, rfl, rfl, rfl⟩,
    ⟨sampled_of (by decide +kernel) (by decide +kernel), sampled_of (by decide +kernel) (by decide +kernel),
      settled_of (by decide +kernel), kept_of (by decide +kernel)⟩, by decide⟩

/-- A terminal queue, with channel 47 of this kind. -/
def queued (k : ChanKind) (rt : Runtime) (q : List Cabin) : State :=
  let s := sensing k rt (lineAt .slowed .slow .slow ready)
  { s with ct := { s.ct with queue := q } }
theorem witness_SampleReadingsJudged_grip :
    (let s := queued .gripForce still [record 9 .registered 3, record 8 .registered 2];
      Sampled s.ownAddress (sampleTo 100 900 7) 900 7 47 s ∧ Settled s ∧ DemandKept s
        ∧ s.ct.queue = [] ++ record 9 .registered 3 :: [record 8 .registered 2]
        ∧ (record 9 .registered 3).zone = s.launchZone ∧ (record 9 .registered 3).grip = .none
        ∧ (s.chan 47).entry.low ≤ (400 : Word16).toNat ∧ (900 : Word16).toNat ≤ (s.chan 47).entry.high
        ∧ (399 : Word16).toNat < (s.chan 47).entry.low ∧ (s.chan 47).entry.high < (901 : Word16).toNat)
    ∧ (let s := queued .gripForce still [{ record 9 .registered 3 with grip := .pass }, record 8 .registered 2];
      ∀ r ∈ s.ct.queue, r.zone = s.launchZone → r.grip ≠ .none) :=
  ⟨⟨sampled_of (by decide +kernel) (by decide +kernel), settled_of (by decide +kernel), kept_of (by decide +kernel),
    by decide +kernel⟩, by decide +kernel⟩

/-- Channel 47 takes window readings, its condition this one with `n` readings out on a side and `m` returned. -/
def windowed (k : ChanKind) (cond : Condition) (n m : Nat) : State :=
  sensing k { still with condition := cond, runCount := n, runSide := .low, returnCount := m } ready
theorem witness_WindowCabinIdAndCaptureReadings :
    (∀ k ∈ [ChanKind.tension, .ropeOffset], let s := windowed k .outHigh 2 2;
      (∀ x ∈ [(399 : Word16), 400, 850, 900, 901], Sampled s.ownAddress (sampleTo 100 x 7) x 7 47 s) ∧ Settled s)
    ∧ (∀ k c n m, let s := windowed k c n m;
      (s.chan 47).entry.kind = k ∧ (s.chan 47).rt.condition = c ∧ (s.chan 47).rt.runCount = n
        ∧ (s.chan 47).rt.runSide = .low ∧ (s.chan 47).rt.returnCount = m)
    -- the sides and the return band at their ends, and runs that reach the persistence or stay one short of it
    ∧ (let e := ((windowed .tension .normal 0 0).chan 47).entry;
      (399 : Word16).toNat < e.low ∧ e.low ≤ (400 : Word16).toNat ∧ (900 : Word16).toNat ≤ e.high ∧ e.high < (901 : Word16).toNat
      ∧ (449 : Word16).toNat < e.low + e.hysteresis ∧ e.low + e.hysteresis ≤ (450 : Word16).toNat
      ∧ (850 : Word16).toNat + e.hysteresis ≤ e.high ∧ e.high < (851 : Word16).toNat + e.hysteresis
      ∧ 1 + 1 < e.persistence ∧ e.persistence ≤ 2 + 1) := by
  refine ⟨?_, fun _ _ _ _ => ⟨rfl, rfl, rfl, rfl, rfl⟩, by decide +kernel⟩
  intro k hk
  simp only [List.mem_cons, List.not_mem_nil, or_false] at hk
  rcases hk with rfl | rfl
  all_goals
    refine ⟨fun x hx => ?_, settled_of ⟨rfl, rfl, rfl, Nat.succ_pos 15⟩⟩
    simp only [List.mem_cons, List.not_mem_nil, or_false] at hx
    rcases hx with rfl | rfl | rfl | rfl | rfl <;> exact sampled_of (by decide +kernel) (by decide +kernel)

theorem witness_WindowCabinIdAndCaptureReadings_cabins :
    (let s := queued .cabinId still [];
      Sampled s.ownAddress (sampleTo 100 999 7) 999 7 47 s ∧ Settled s ∧ (s.chan 47).entry.kind = .cabinId
        ∧ s.ct.queue.length < 24 ∧ (List.replicate 24 (record 1 .foreign 0)).length = 24 ∧ s.registered 999 = false
        ∧ ∀ y ∈ s.ct.queue, ¬ (y.identity = .foreign ∧ y.id = 999))
    -- the oldest of the downhill list at the end of its window and past it, and one behind it
    ∧ (let s := withCabin 999 .downhill (queued .cabinId still []);
      let s := fun p l => { s with ra := { s.ra with p := p }, ct := { s.ct with downhill := l } };
      let y : DownEntry := { id := 999, pos := 0, overdue := false };
      (s 101 [y]).registered 999 = true ∧ (s 101 [y]).ct.downhill = y :: []
      ∧ (∀ p ∈ [101, (102 : Nat)], (((s p [y]).ra.p : Int) - y.pos) % (s p [y]).params.loopLen = p)
      ∧ 101 ≤ (s 101 [y]).params.downhillSpan + (s 101 [y]).params.tolerance
      ∧ (s 102 [y]).params.downhillSpan + (s 102 [y]).params.tolerance < 102
      ∧ (∃ z ∈ (s 0 [{ y with id := 5 }, y]).ct.downhill.tail, z.id = 999) ∧ ({ y with id := 5 } : DownEntry).id ≠ 999
      ∧ ∀ z ∈ (s 0 []).ct.downhill, z.id ≠ 999)
    -- an older record of a cabin and of a FOREIGN id, which leaves
    ∧ (∀ i ∈ [Identity.registered, .foreign], let s := queued .cabinId still [record 999 i 0];
      s.ct.queue = [] ++ record 999 i 0 :: [] ∧ (record 999 i 0).grip ≠ .fail ∧ s.isBerth (record 999 i 0).zone = false)
    -- a capture of a PASSAGE channel: another channel's, with no samples left, with room, and with 16 samples
    ∧ (let k : Capture := { channel := 47, remaining := 1, block := 8, nextBlock := 0, gap := true, subst := true, written := false
                            buffer := List.replicate 15 { reading := 1, stamp := 2, gap := false, subst := false } };
      let s := sensing .passage still ready; let t := { s with dr := { s.dr with capture := some k } };
      Sampled s.ownAddress (sampleTo 100 7 7) 7 7 47 s ∧ t.dr.capture = some k ∧ { t with dr := { t.dr with capture := none } } = s
        ∧ Settled t ∧ (t.chan 47).entry.kind = .passage ∧ (t.chan 47).rt.counterBase = none ∧ { k with channel := 46 }.channel ≠ 47
        ∧ k.remaining ≠ 0 ∧ k.written = false ∧ k.buffer.length < 16
        ∧ ({ reading := 1, stamp := 2, gap := false, subst := false } :: k.buffer : List Sample).length = 16) := by
  refine ⟨⟨sampled_of (by decide +kernel) (by decide +kernel), settled_of (by decide +kernel), by decide +kernel⟩,
    by decide +kernel, by decide +kernel,
    ⟨sampled_of (by decide +kernel) (by decide +kernel), by decide +kernel, rfl, settled_of (by decide +kernel), by decide +kernel⟩⟩

/-- The boundary of channel 47 changed to this one. -/
def marking (k : Nat) (q : List Cabin) : State :=
  let s := queued .trackMark { still with counterBase := some 65535 } q
  setChan 47 { s.chan 47 with entry := { (s.chan 47).entry with boundary := k } } s
theorem witness_TrackMarksMoveAndLaunchCabins :
    (let s := marking 4 [record 9 .registered 3];
      Sampled s.ownAddress (sampleTo 100 0 7) 0 7 47 s ∧ Settled s ∧ DemandKept s)
    ∧ (∀ k q, ((marking k q).chan 47).entry.kind = .trackMark ∧ ((marking k q).chan 47).rt.counterBase = some 65535
        ∧ ((marking k q).chan 47).entry.boundary = k ∧ (marking k q).ct.queue = q ∧ (marking k q).ls.faults = []
        ∧ (marking k q).berthCount = 2 ∧ (marking k q).launchZone = 3)
    ∧ ((0 : Word16) = 65535 + 1 ∧ 2 ≤ ((1 : Word16) - 65535).toNat ∧ 2 ≤ ((65534 : Word16) - 65535).toNat)
    -- zone moves: an empty zone, a full one, and room; a door not closed
    ∧ ((∀ r ∈ (marking 1 []).ct.queue, r.zone ≠ 1 - 1)
      ∧ inZone 2 (marking 2 [record 8 .registered 2, record 9 .registered 1]) = 1
      ∧ inZone 3 (marking 3 [record 7 .registered 3, record 8 .registered 3, record 9 .registered 2]) = 2
      ∧ inZone 3 (marking 3 [record 8 .registered 3, record 9 .registered 2]) ≤ 1
      ∧ inZone 1 (marking 1 [record 9 .registered 0]) = 0
      ∧ ((marking 2 []).door 1).state = .closed ∧ (door .open).state ≠ .closed)
    -- launches: no cabin, a good one, a late one and a violation
    ∧ (let s := marking 4 [record 9 .registered 3];
      s.sl.txQueue.length < 15 ∧ (record 9 .registered 3).grip ≠ .fail
      ∧ { s.ct with release := .go, releaseCabin := 9 }.release = .go ∧ s.ct.release = .hold ∧ s.ct.lastGo = none
      ∧ { s with now := 299 }.now - 0 < 300 ∧ (record 9 .foreign 3).identity ≠ .registered) :=
  ⟨⟨sampled_of (by decide +kernel) (by decide +kernel), settled_of (by decide +kernel), kept_of (by decide +kernel)⟩,
    fun _ _ => ⟨rfl, rfl, rfl, rfl, rfl, rfl, rfl⟩, by decide, by decide +kernel, by decide +kernel⟩

theorem only_47 {k : ChanKind} {s : State} {i : Nat}
    (h : ∀ j, j < 48 → j ≠ 47 → (s.chan j).entry.state ≠ .active ∨ (s.chan j).entry.kind ≠ k) (g : ActiveOf k s i) : i = 47 := by
  by_contra n
  rcases h i g.1 n with h | h
  · exact h g.2.1
  · exact h g.2.2
theorem formed_of {s : State} (h : s.ra.encoder = s.encoderNow ∧ s.cm.windBand = s.bandNow) : ChannelsFormed s :=
  (channelsFormed_iff s).2 h
/-- Channel 47 is ACTIVE of this kind, channel 46 ACTIVE of it too or its standby, and RA's encoder channel this one. -/
def failing (k : ChanKind) (second : ChanState) (enc : Option Nat) : State :=
  let s := withChan { active k with standby := if second = .standby then some 46 else none, cls := .stop } ready
  { setChan 46 { s.chan 46 with entry := { active k with state := second, slot := 1 } } s with
    ra := { s.ra with encoder := enc } }
theorem witness_StaleChannelFails :
    (∀ a ∈ [(ChanKind.tension, ChanState.unused, none), (.tension, .standby, none), (.encoder, .unused, some 47),
        (.encoder, .standby, some 47), (.wind, .unused, none)],
      let s := failing a.1 a.2.1 a.2.2;
      (s.resetHeld = false ∧ (s.chan 47).entry.state = .active ∧ s.dr.capture = none ∧ s.ra.encoder = a.2.2
        ∧ (s.chan 47).rt.band = .calm ∧ (∀ x ∈ s.ls.faults, x.source ≠ .channel 47 ∧ x.source ≠ .channel 46)
        ∧ s.cm.subst.length < 8 ∧ ∀ x ∈ s.cm.subst, x.standby ≠ 47)
      ∧ (s.ra.encoder = s.encoderNow ∧ s.cm.windBand = s.bandNow))
    -- sound standbys, and eight pairs listed
    ∧ (let s := failing .tension .standby none;
      (s.chan 47).entry.standby = some 46 ∧ (s.chan 46).entry.state = .standby
      ∧ (s.chan 46).entry.kind = (s.chan 47).entry.kind ∧ (failing .tension .unused none).chan 47 ≠ s.chan 47
      ∧ 8 ≤ (List.replicate 8 ({ primary := 0, standby := 1, order := 0 } : SubstEntry)).length) := by decide +kernel
theorem witness_StaleChannelFails_kept :
    (∀ a ∈ [(ChanKind.tension, ChanState.unused, none), (.tension, .standby, none), (.encoder, .unused, some 47),
        (.encoder, .standby, some 47), (.encoder, .active, some 46)],
      let s := failing a.1 a.2.1 a.2.2; DemandKept s ∧ Settled s ∧ ChannelsFormed s)
    -- the encoder channels that are left: none, and channel 46
    ∧ Lowest (fun i => ActiveOf .encoder (failing .encoder .unused (some 47)) i ∧ i ≠ 47) none
    ∧ Lowest (fun i => (ActiveOf .encoder (failing .encoder .standby (some 47)) i ∧ i ≠ 47) ∨ i = 46) (some 46) := by
  refine ⟨?_, .inl ⟨rfl, fun i h => h.2 ?_⟩, .inr ⟨46, rfl, .inr rfl, fun i hi h => ?_⟩⟩
  · intro a ha
    simp only [List.mem_cons, List.not_mem_nil, or_false] at ha
    rcases ha with rfl | rfl | rfl | rfl | rfl <;>
      exact ⟨kept_of (by decide +kernel), settled_of (by decide +kernel), formed_of (by decide +kernel)⟩
  · exact only_47 (by decide +kernel) h.1
  · rcases h with h | rfl
    · exact h.2 (only_47 (by decide +kernel) h.1)
    · omega
/-- Channel 47 alone holds the wind band, listed as its fault. -/
def gusting (b : Band) (code : FaultCode) (cls : FaultClass) (d : Demand) (l : LineState) : State :=
  let s := lineAt l d d (failing .wind .unused none)
  let s := setChan 47 { s.chan 47 with rt := { still with windy := true, storm := decide (b = .storm) } } s
  { s with
    cm := { s.cm with windBand := b }
    ls := { s.ls with faults := [{ fault 0 code cls false true with source := .channel 47 }] } }
theorem witness_StaleChannelFails_wind :
    (∀ a ∈ [(Band.windy, FaultCode.windWindy, FaultClass.slow), (.storm, .windStorm, .stop)],
      let s := gusting a.1 a.2.1 a.2.2 .stop .stopped;
      (s.resetHeld = false ∧ (s.chan 47).entry.state = .active ∧ (s.chan 47).entry.kind = .wind ∧ (s.chan 47).rt.band = a.1
        ∧ (s.chan 47).entry.standby = none ∧ s.dr.capture = none ∧ (∀ x ∈ s.cm.subst, x.standby ≠ 47)
        ∧ (∀ x ∈ s.ls.faults, x.source = .channel 47 → x.code = a.2.1)
        ∧ s.cl.load = .ready ∧ s.cl.profile = .idle ∧ s.cl.pointers = none)
      ∧ Settled s ∧ DemandKept s ∧ ChannelsFormed s)
    ∧ ∀ i, ActiveOf .wind (gusting .windy .windWindy .slow .stop .stopped) i → i = 47 := by
  refine ⟨?_, fun i h => only_47 (by decide +kernel) h⟩
  intro a ha
  simp only [List.mem_cons, List.not_mem_nil, or_false] at ha
  rcases ha with rfl | rfl <;>
    exact ⟨by decide +kernel, settled_of (by decide +kernel), kept_of (by decide +kernel), formed_of (by decide +kernel)⟩
/-- The stale time of channel 47 written shorter, 49 for 50, at the time when it is reached, and a millisecond before. -/
theorem witness_StaleChannelFails_shorter :
    (let s := { failing .tension .unused none with now := 490 }; let o := (s.chan 47).entry; let e := { o with staleTime := 49 };
      let p := [0x03, 0] ++ enc2 47 ++ e.bytes;
      Asked (request p) [] p (asks p s) ∧ e.bytes.length = 21 ∧ ChanEntry.ofBytes e.bytes = some e ∧ ChanAllowed s 47 e
        ∧ o.state = .active ∧ 49 < o.staleTime ∧ (s.chan 47).bypass = none ∧ s.dr.capture = none
        ∧ 49 * 10 ≤ s.now - (s.chan 47).rt.lastAccepted ∧ 489 - (s.chan 47).rt.lastAccepted < 49 * 10
        ∧ o.standby = none ∧ (∀ x ∈ s.cm.subst, x.standby ≠ 47) ∧ o.kind ≠ .encoder ∧ o.kind ≠ .wind
        ∧ (∀ x ∈ s.ls.faults, x.source ≠ .channel 47)) :=
  ⟨asked_of ⟨rfl, rfl, rfl, Nat.succ_pos 7, rfl, rfl, rfl⟩, by decide +kernel, by decide +kernel, chanAllowed_of (by decide +kernel),
    by decide +kernel⟩

/-- Channel 47 is bypassed. -/
def bypassed (n : Nat) (s : State) : State :=
  setChan 47 { s.chan 47 with bypass := some { minutes := n, minuteEnd := 60000 } } s
theorem witness_BypassCountsDown :
    (bypassed 2 ready).resetHeld = false ∧ ((bypassed 2 ready).chan 47).bypass = some { minutes := 2, minuteEnd := 60000 }
      ∧ ((bypassed 1 ready).chan 47).bypass = some { minutes := 1, minuteEnd := 60000 } ∧ Settled (bypassed 1 ready) :=
  ⟨by decide +kernel, by decide +kernel, by decide +kernel, settled_of (by decide +kernel)⟩

/-- A part with this idle auto-slow time, in RUNNING with its auto-slow timer running. -/
def idling (n : Nat) : State :=
  let s := lineAt .running .run .run ready
  { s with ls := { s.ls with autoSlow := some 0, params := { s.ls.params with idleSlow := n } } }
theorem witness_TimersRaiseFaults :
    (let s := lineAt .starting .run .run { ready with ls := { ready.ls with startTimer := some 0 } };
      s.resetHeld = false ∧ s.ls.startTimer = some 0 ∧ s.ls.stopTimer = none ∧ Settled s)
    ∧ (let s := lineAt .stopping .stop .stop { ready with ls := { ready.ls with stopTimer := some 0 } };
      s.resetHeld = false ∧ s.ls.stopTimer = some 0 ∧ s.ls.startTimer = none ∧ Settled s)
    ∧ (let e := outEntry (frameOf 9 100 0x20) 1;
      let s := fun l => { ready with lr := { ready.lr with outstanding := [e], loop := l } };
      ((s .opened).resetHeld = false ∧ (s .opened).lr.outstanding = e :: [] ∧ (s .opened).lr.loop = .opened)
        ∧ (s .closed).lr.loop ≠ .opened ∧ (s .closed).lr.outstanding = e :: [] ∧ Settled (s .closed))
    ∧ (Settled (idling 11) ∧ DemandKept (idling 11) ∧ Settled (idling 12) ∧ DemandKept (idling 12))
    ∧ (idling 12).resetHeld = false ∧ (idling 12).ls.autoSlow = some 0 ∧ (idling 12).params.idleSlow ≠ 0
    ∧ (idling 12).ls.line = .running ∧ (idling 12).ls.faults.length < 32
    ∧ ∀ x ∈ (idling 12).ls.faults, ¬ (x.source = .line ∧ x.code = .autoSlow) :=
  ⟨⟨rfl, rfl, rfl, settled_of (by decide)⟩, ⟨rfl, rfl, rfl, settled_of (by decide)⟩,
    ⟨by decide +kernel, by decide +kernel, by decide +kernel, settled_of (by decide +kernel)⟩,
    ⟨settled_of (by decide), kept_of (by decide), settled_of (by decide), kept_of (by decide)⟩, by decide⟩

theorem witness_DriveRefreshIssuesTheRecord :
    let s : Nat → List QFrame → State := fun n q =>
      { ready with
        ls := { ready.ls with params := { ready.ls.params with driveNode := n } }, lr := { ready.lr with safety := q } };
    (s 0 []).resetHeld = false ∧ (s 0 []).params.driveNode = 0 ∧ (s 126 []).params.driveNode ≠ 0
      ∧ (∀ g ∈ (s 126 [qframe .launchRel]).lr.safety, g.kind ≠ .driveReq)
      ∧ (s 126 [qframe .launchRel, qframe .driveReq]).lr.safety = [qframe .launchRel] ++ qframe .driveReq :: []
      ∧ ∀ h ∈ [qframe .launchRel] ++ ([] : List QFrame), h.kind ≠ .driveReq := by decide

/-- A STARTING line at rest, with one deferred entry for channel 47. -/
def starting (r : MemRecord) : State :=
  let s := withChan (active .tension) (lineAt .starting .slow .slow ready)
  { s with
    ra := { s.ra with speedValid := true }, cm := { s.cm with deferred := [r] }
    ls := { s.ls with startTimer := some 0, drive := { level := .slow, setpoint := 0, line := .starting } } }
theorem witness_LineStateChangesBring :
    (∀ s : State, (s.ls.line = .starting ∨ s.ls.line ≠ .starting) ∧ (LineState.running = .running ∨ LineState.running = .slowed)
        ∧ (LineState.stopped ≠ .running ∧ LineState.stopped ≠ .slowed)
        ∧ ¬ (LineState.stopped = .stopping ∨ LineState.stopped = .tripped))
    ∧ (let s : List QFrame → State := fun q =>
        { ready with
          ls := { ready.ls with params := { ready.ls.params with driveNode := 126 } }, lr := { ready.lr with safety := q } };
      (s []).params.driveNode ≠ 0 ∧ ready.params.driveNode = 0 ∧ (∀ g ∈ (s [qframe .launchRel]).lr.safety, g.kind ≠ .driveReq)
      ∧ (s [qframe .driveReq, qframe .launchRel]).lr.safety = [] ++ qframe .driveReq :: [qframe .launchRel]
      ∧ (qframe .driveReq).kind = .driveReq ∧ ∀ h ∈ [] ++ [qframe .launchRel], h.kind ≠ .driveReq)
    -- the deferred list, with an entry that is valid and one that is not
    ∧ (let e := { active .tension with persistence := 4 };
      let r := chanRecord e; let bad := chanRecord { active .tension with node := 0 };
      (∀ r, (starting r).resetHeld = false ∧ (starting r).ls.line = .starting ∧ (starting r).ls.startTimer = some 0
        ∧ (starting r).cm.deferred = [r])
      ∧ DemandKept (starting r) ∧ DemandKept (starting bad)
      ∧ ((starting r).atRest = true ∧ (starting r).ls.faults.length < 32 ∧ r.tableId = 0 ∧ r.index.toNat = 47
        ∧ (∀ x ∈ (starting r).ls.faults, ¬ (x.source = .line ∧ x.code = .startTimeout))
        ∧ (starting r).ct.backlogWaiting = none ∧ (starting r).ct.backlogLaunched = [] ∧ (starting r).sl.txQueue.length < 16
        ∧ validChan 47 bad.contents (starting bad) = .error .range ∧ validChan 47 r.contents (starting r) = .ok e
        ∧ ((starting r).chan 47).entry = active .tension ∧ (active .tension).cls = e.cls
        ∧ (active .tension).staleTime = e.staleTime ∧ ((starting r).chan 47).bypass = none ∧ (starting r).dr.capture = none)
      ∧ ¬ ChanStructural (active .tension) e)
    ∧ (ready.resetHeld = false ∧ Settled ready ∧ DemandKept ready ∧ ready.sl.tx = .quiet ∧ ready.ls.line ≠ .tripped) := by
  refine ⟨fun s => ⟨by tauto, by decide⟩, by decide, ⟨fun r => ⟨rfl, rfl, rfl, rfl⟩, kept_of (by decide +kernel),
    kept_of (by decide +kernel), by decide +kernel, by simp [ChanStructural, active, Channel.reset]⟩, by decide, settled_of (by decide), ready_kept,
    by decide, by decide⟩

/-- A line that meets R80's conditions for this record, with `n` messages queued for the summit and `m` cabins uphill. -/
def going (c : Cabin) (n m : Nat) : State :=
  let s := lineAt .slowed .slow .slow ready
  { s with
    ct := { s.ct with queue := [c], uphill := List.replicate m { id := 5, pos := 0, order := 0, overdue := false } }
    sl := { s.sl with
      txQueue := List.replicate n { msg := { type := 1, payload := [0, 5] }, seq := 0, sent := false, age := 0 } } }
/-- The conditions of GO met at their ends, and missed by one message, one cabin and one millimetre. -/
theorem witness_LaunchReleaseFollowsItsConditions :
    (let c := { record 9 .registered 3 with grip := .pass };
      let s := { going c 15 63 with ra := { Rope.reset with qValid := true, p := 999 } };
      let s := { s with ls := { s.ls with params := { s.params with minSpacing := 999 } } };
      s.ct.queue = [] ++ c :: [] ∧ c.zone = s.launchZone ∧ (s.ls.line = .running ∨ s.ls.line = .slowed)
      ∧ c.identity = .registered ∧ c.locked = true ∧ c.grip = .pass
      ∧ (s.ra.qValid = true → s.params.minSpacing ≤ (((s.ra.p : Int) - s.ra.q) % s.params.loopLen).toNat)
      ∧ ¬ (((998 : Int) - s.ra.q) % s.params.loopLen).toNat ≥ s.params.minSpacing
      ∧ s.ct.uphill.length < 64 ∧ s.sl.txQueue.length < 16 ∧ ¬ (going c 16 63).sl.txQueue.length < 16
      ∧ ¬ (going c 15 64).ct.uphill.length < 64 ∧ s.ct.release = .hold ∧ s.ct.releaseCabin ≠ 9 ∧ s.params.conveyorNode = 0)
    ∧ (∀ c ∈ (going (record 9 .registered 2) 16 0).ct.queue, c.zone ≠ (going (record 9 .registered 2) 16 0).launchZone)
    -- a frame still queued, the SAFETY queue without one
    ∧ ([qframe .driveReq, qframe .launchRel] = [qframe .driveReq] ++ qframe .launchRel :: []
      ∧ (∀ g ∈ [qframe .driveReq] ++ [], g.kind ≠ .launchRel) ∧ { LineParams.reset with conveyorNode := 126 }.conveyorNode ≠ 0)
    -- the sources of LINK_BACKLOG, with the queue full and with room
    ∧ (let s := fun n w l => { going (record 9 .registered 3) n 0 with
        ct := { (going (record 9 .registered 3) n 0).ct with backlogWaiting := w, backlogLaunched := l } };
      (∀ n w l, (s n w l).ct.backlogWaiting = w ∧ (s n w l).ct.backlogLaunched = l)
      ∧ (∀ n, (s n none []).sl.txQueue.length = n) ∧ 16 ≤ 16 ∧ (9 : Nat) ≠ 8 ∧ 8 ∈ [8] ∧ 8 ∉ ([] : List Nat)
      ∧ DemandKept (s 16 none [])) :=
  ⟨by decide +kernel, by decide +kernel, by decide, fun _ _ _ => ⟨rfl, rfl⟩, fun _ => List.length_replicate, by decide, by decide,
    by decide, by decide, kept_of (by decide +kernel)⟩

/-! ## Witnesses: the doors -/

/-- A CLOSED door whose open delay runs. -/
def delayed (st : DoorState) : Door := { door st with openDelay := some 5 }
/-- A cabin stands in berth 2. -/
def boarded (locked : Bool) (s : State) : State :=
  { s with ct := { s.ct with queue := [{ record 7 .foreign 2 with locked := locked }] } }
/-- The DOOR queue holds this many frames. -/
def doorQueue (n : Nat) (s : State) : State :=
  { s with lr := { s.lr with door := List.replicate n (qframe .doorCmd) } }
/-- Berth 1 is PENDING too. -/
def gathering (s : State) : State :=
  { s with ds := { s.ds with
    berths := s.ds.berths.setIfInBounds 0 { Berth.reset with door := door .pending }
    windowTimer := some 5, capTimer := some 9 } }
theorem witness_OpenDelayOpensTheDoor :
    (∀ st, (atBerth (delayed st) ready).resetHeld = false ∧ (atBerth (delayed st) ready).isBerth 2 = true
        ∧ ((atBerth (delayed st) ready).door 2).openDelay = some 5 ∧ ((atBerth (delayed st) ready).door 2).state = st
        ∧ ((atBerth (delayed st) ready).door 2).hold = .no ∧ { delayed st with hold := .yes 0 }.hold ≠ .no
        ∧ Settled (boarded true (atBerth (delayed st) ready)))
      ∧ (let s := boarded false (doorQueue 7 (atBerth (delayed .closed) ready));
        s.lr.door.length < 8 ∧ DoorWait.command 2 ∉ s.ds.waiting ∧ ∀ c ∈ s.ct.queue, c.zone = 2 → c.locked = false)
      ∧ (∃ c ∈ (boarded true (atBerth (delayed .closed) ready)).ct.queue, c.zone = 2 ∧ c.locked = true)
      ∧ (let s := doorQueue 8 (atBerth (delayed .closing) ready);
        8 ≤ s.lr.door.length ∧ DoorWait.command 2 ∉ s.ds.waiting ∧ ∀ c ∈ s.ct.queue, c.zone = 2 → c.locked = false)
      ∧ (∃ i, (gathering (atBerth (delayed .pending) ready)).isBerth i = true ∧ i ≠ 2
        ∧ ((gathering (atBerth (delayed .pending) ready)).door i).state = .pending)
      ∧ ∀ i, 1 ≤ i → i ≤ ready.berthCount → i ≠ 2 → ((atBerth (delayed .pending) ready).door i).state ≠ .pending :=
  ⟨fun _ => ⟨rfl, rfl, rfl, rfl, rfl, fun h => (by cases h), settled_of ⟨rfl, rfl, rfl, Nat.succ_pos 15⟩⟩, by decide,
    ⟨_, List.mem_singleton.mpr rfl, by decide⟩, by decide, ⟨1, by decide⟩, by decide⟩

/-- The warning frames go to node 3. -/
def warned (s : State) : State := { s with ls := { s.ls with params := { s.ls.params with warnNode := 3 } } }
theorem witness_GatherFillsAndCloses :
    (let s := atBerth { door .open with dwellTimer := .running 5 } ready;
      s.resetHeld = false ∧ s.isBerth 2 = true ∧ (s.door 2).dwellTimer = .running 5
      ∧ (∀ i, 1 ≤ i → i ≤ s.berthCount → (s.door i).state ≠ .pending)
      ∧ ((gathering s).door 2).dwellTimer = .running 5 ∧ 1 ≤ (gathering s).berthCount
      ∧ ((gathering s).door 1).state = .pending)
    ∧ ((atBerth (door .open) ready).door 2).dwellTimer = .stopped
    ∧ ((atBerth { door .open with dwellTimer := .suspended } ready).door 2).dwellTimer = .suspended
    ∧ (let s := warned (doorQueue 5 (gathering (atBerth (door .pending) ready)));
      s.resetHeld = false ∧ s.ds.windowTimer = some 5 ∧ s.ds.capTimer = some 9 ∧ s.ds.waiting = [] ∧ s.params.warnNode ≠ 0
      ∧ s.ds.warnLast = s.closingSet ∧ (s.berthList.filter fun j => (s.door j).state == .pending) = [1, 2]
      ∧ s.lr.door.length + 1 + (s.berthList.filter fun j => (s.door j).state == .pending).length ≤ 8) := by decide

theorem witness_DoorTimersAndHoldsRunOut :
    (let s := doorQueue 7 (atBerth { door .closing with ackTimer := some 5, command := some (.close, .placedOnce) } ready);
      s.resetHeld = false ∧ s.isBerth 2 = true ∧ (s.door 2).ackTimer = some 5
      ∧ (s.door 2).command = some (.close, .placedOnce) ∧ s.lr.door.length < 8)
    ∧ (let s := atBerth { door .opening with
        ackTimer := some 5, motionTimer := some 5, command := some (.open, .placedTwice) } ready;
      (s.door 2).ackTimer = some 5 ∧ (s.door 2).motionTimer = some 5 ∧ (s.door 2).command = some (.open, .placedTwice)
      ∧ (s.door 2).state = .opening ∧ DoorWait.command 2 ∉ s.ds.waiting ∧ s.ds.windowTimer = none ∧ s.ds.capTimer = none
      ∧ Settled s)
    ∧ (∀ st hold, let s := atBerth { door st with holdTimer := some 5, hold := hold } ready;
      s.resetHeld = false ∧ s.isBerth 2 = true ∧ (s.door 2).holdTimer = some 5 ∧ (s.door 2).state = st
      ∧ (s.door 2).hold = hold)
    ∧ ∀ i, 1 ≤ i → i ≤ ready.berthCount →
      ((atBerth { door .open with holdTimer := some 5, hold := .yes 0 } ready).door i).state ≠ .pending :=
  ⟨by decide, ⟨by decide, by decide, by decide, by decide, by decide, by decide, by decide, settled_of (by decide)⟩,
    fun _ _ => ⟨rfl, rfl, rfl, rfl, rfl⟩, by decide⟩

theorem witness_DoorQueuePlaceFilled :
    ready.ds.notices = 0 ∧
    (let s : List DoorWait → State := fun w =>
      let t := doorQueue 7 (atBerth { door .opening with command := some (.open, .waiting) } ready)
      { t with ds := { t.ds with notices := 1, waiting := w } };
      (s []).resetHeld = false ∧ (s []).ds.notices = 0 + 1 ∧ (s []).lr.door.length < 8
      ∧ (s [.command 2]).ds.waiting = .command 2 :: [] ∧ (s [.command 2]).isBerth 2 = true
      ∧ ((s [.command 2]).door 2).command = some (.open, .waiting)
      ∧ (s [.warning 3 0]).ds.waiting = .warning 3 0 :: []) := by decide

/-- The head request asks for a door operation of berth 2, whose door record this is. -/
def doorAsk (op : Byte) (d : Door) : State := asks [0x05, BitVec.ofNat 8 2, op] (atBerth d ready)
theorem doorAsk_asked (op : Byte) (d : Door) :
    Asked (request [0x05, BitVec.ofNat 8 2, op]) [] [0x05, BitVec.ofNat 8 2, op] (doorAsk op d) :=
  asked_of ⟨rfl, rfl, rfl, Nat.succ_pos 7, rfl, rfl, rfl⟩

theorem nine_ne_zero : (9 : Nat) ≠ 0 := by decide
theorem witness_DeskOpensAndCloses :
    (∀ op d, (doorAsk op d).isBerth 2 = true ∧ ((doorAsk op d).berth 2).entry.doorNode ≠ 0 ∧ (doorAsk op d).door 2 = d
        ∧ DoorWait.command 2 ∉ (doorAsk op d).ds.waiting)
      ∧ (door .closed).cabin = none ∧ ({ door .closed with cabin := some 7 }).cabin.isSome = true
      ∧ ((door .open).hold = .no ∧ { door .open with hold := StaffHold.yes 0 }.hold ≠ .no)
      ∧ (∃ i, (gathering (doorAsk 0 (door .pending))).isBerth i = true ∧ i ≠ 2
        ∧ ((gathering (doorAsk 0 (door .pending))).door i).state = .pending)
      ∧ (∀ i, (doorAsk 0 (door .pending)).isBerth i = true → i ≠ 2 → ((doorAsk 0 (door .pending)).door i).state ≠ .pending)
      ∧ (∃ i, (gathering (doorAsk 1 (door .open))).isBerth i = true
        ∧ ((gathering (doorAsk 1 (door .open))).door i).state = .pending)
      ∧ ∀ i, (doorAsk 1 (door .open)).isBerth i = true → ((doorAsk 1 (door .open)).door i).state ≠ .pending := by
  refine ⟨fun _ _ => ⟨rfl, nine_ne_zero, rfl, List.not_mem_nil⟩, by decide, by decide, by decide, ⟨1, by decide⟩, ?_, ⟨1, by decide⟩, ?_⟩ <;>
    · intro i hi
      obtain ⟨h1, h2⟩ : 1 ≤ i ∧ i ≤ 2 := of_decide_eq_true hi
      interval_cases i <;> decide

theorem witness_DeskHoldsAndReleases :
    (∀ op d, (doorAsk op d).isBerth 2 = true ∧ ((doorAsk op d).berth 2).entry.doorNode ≠ 0 ∧ (doorAsk op d).door 2 = d
        ∧ DoorWait.command 2 ∉ (doorAsk op d).ds.waiting)
      ∧ { door .open with dwellTimer := .running 5 }.dwellTimer = .running 5
      ∧ { door .open with dwellTimer := .suspended }.dwellTimer = .suspended
      ∧ { door .open with hold := .yes (0 + 1) }.hold = .yes (0 + 1) ∧ { door .open with hold := .yes 0 }.hold = .yes 0
      ∧ { door .opening with hold := .beforeOpen }.hold ≠ .no
      ∧ ((gathering (doorAsk 2 (door .pending))).isBerth 1 = true ∧ 1 ≠ 2
        ∧ ((gathering (doorAsk 2 (door .pending))).door 1).state = .pending) :=
  ⟨fun _ _ => ⟨rfl, nine_ne_zero, rfl, List.not_mem_nil⟩, by decide, by decide, by decide, by decide, by decide, by decide⟩

theorem witness_DoorRequestsChecked :
    let p : Byte → List Byte := fun j => [0x05, j, 3];
    (∀ j, Asked (request (p j)) [] (p j) (asks (p j) ready)) ∧ (Instr.doorRelease, (3 : Byte)) ∈
        [(Instr.doorOpen, 0), (.doorClose, 1), (.doorHold, 2), (.doorRelease, 3)]
      ∧ (∀ j, j = 0 ∨ j = 3 ∨ j = 255 → (asks (p (BitVec.ofNat 8 j)) ready).isBerth j = false)
      ∧ (asks (p 2) ready).isBerth 2 = true ∧ ((asks (p 2) ready).berth 2).entry.doorNode = 0
      ∧ ((doorAsk 3 (door .fault)).door 2).state = .fault :=
  ⟨fun _ => asked_of ⟨rfl, rfl, rfl, Nat.succ_pos 7, rfl, rfl, rfl⟩, by decide, by rintro _ (rfl | rfl | rfl) <;> decide,
    by decide, by decide, by decide⟩

theorem witness_DoorResetTakesTheStateShown :
    (∀ d, let s := asks [0x06, BitVec.ofNat 8 2] (atBerth d ready);
      Asked (request [0x06, BitVec.ofNat 8 2]) [] [0x06, BitVec.ofNat 8 2] s ∧ s.isBerth 2 = true ∧ s.door 2 = d
        ∧ Settled s ∧ s.ls.line = .stopped ∧ DoorWait.command 2 ∉ s.ds.waiting
        ∧ (doorQueue 7 s).lr.door.length < 8 ∧ 8 ≤ (doorQueue 8 s).lr.door.length)
      ∧ (ready.isBerth 0 = false ∧ ready.isBerth 3 = false)
      ∧ (∀ st g, { door .fault with lastStatus := some (st, g) }.lastStatus = some (st, g))
      ∧ ((door .fault).lastStatus = none ∧ (door .fault).cabin = none)
      ∧ ({ door .fault with cabin := some 7 }.cabin.isSome = true ∧ (ready.door 1).state ≠ .pending)
      ∧ (∃ i, (gathering (atBerth (door .fault) ready)).isBerth i = true ∧ i ≠ 2
        ∧ ((gathering (atBerth (door .fault) ready)).door i).state = .pending)
      -- a waiting open, its fault reported gone with the line RUNNING
      ∧ (let d := { door .fault with cabin := some 7, waitingOpen := true };
        let s := gone (.berth 2) .doorFault (lineAt .running .run .run (atBerth d ready));
        s.ls.line = .running ∧ (s.door 2).waitingOpen = true) :=
  ⟨fun _ => ⟨asked_of ⟨rfl, rfl, rfl, Nat.succ_pos 7, rfl, rfl, rfl⟩, rfl, rfl,
      settled_of ⟨rfl, rfl, rfl, Nat.succ_pos 15⟩, rfl, List.not_mem_nil, Nat.lt_succ_self 7, Nat.le_refl 8⟩, by decide, fun _ _ => rfl,
    by decide, by decide, ⟨1, by decide⟩, by decide +kernel⟩

/-- The frame of kind `k` from a node to the part, with this payload. -/
def heardFrom (node k : Byte) (p : List Byte) : Frame :=
  { dest := 100, source := node, kind := k, tag := 0, payload := p,
    check := crc16 ([100, node, k, 0, BitVec.ofNat 8 p.length] ++ p) }
theorem nine_ne : (9 : Byte) ≠ ready.ownAddress := by decide
theorem witness_DoorAndPhoneFramesJudged :
    (∀ st : DoorStatus, let p := enc1 st.code ++ encMark true;
      parseFrame (frameBytes 100 9 0x21 0 p) = some (heardFrom 9 0x21 p))
    ∧ (∀ d, let s := atBerth d ready;
      s.resetHeld = false ∧ (9 : Byte) ≠ s.ownAddress ∧ 100 = s.ownAddress ∧ s.isBerth 2 = true
      ∧ (s.berth 2).entry.doorNode = (9 : Byte).toNat ∧ DoorWait.command 2 ∉ s.ds.waiting ∧ s.door 2 = d ∧ Settled s
      ∧ s.lr.door.length < 8 ∧ s.ds.windowTimer = none ∧ s.ds.capTimer = none ∧ (s.berth 2).entry.retries < 0 + 1)
    ∧ (∀ j, ready.isBerth j = true → (ready.berth j).entry.doorNode ≠ (9 : Byte).toNat)
    ∧ (∀ i, (atBerth (door .open) ready).isBerth i = true → i ≠ 2 →
        ((atBerth (door .open) ready).berth i).entry.doorNode ≠ (9 : Byte).toNat)
    ∧ (([0] : List Byte).length ≠ 2 ∧ 5 < u8 ([6, 0] : List Byte) 0)
    -- a first status, with and without a cabin, and with and without another PENDING berth
    ∧ ((door .closed).awaiting = true ∧ (door .closed).state = .closed ∧ (door .closed).command = none
      ∧ (door .closed).cabin = none ∧ { door .closed with cabin := some 7 }.cabin.isSome = true)
    ∧ (let s := gathering (atBerth (door .closed) ready);
      (∃ i, s.isBerth i = true ∧ (s.door i).state = .pending) ∧ ∃ i, s.isBerth i = true ∧ i ≠ 2 ∧ (s.door i).state = .pending)
    ∧ (∀ i, (atBerth (door .closed) ready).isBerth i = true → ((atBerth (door .closed) ready).door i).state ≠ .pending)
    -- the third repeated toggle
    ∧ (let d := { door .opening with lastStatus := some (.opening, true), stallCount := 2 };
      d.lastStatus = some (.opening, true) ∧ 3 ≤ d.stallCount + 1 ∧ ¬ 3 ≤ (door .opening).stallCount)
    -- doors unlocked and locked as a door closes and reopens, within its retries
    ∧ (∀ locked, let s := boarded locked (atBerth { door .closing with cabin := some 7 } ready);
      Settled s ∧ ∃ c ∈ s.ct.queue, c.zone = 2 ∧ c.locked = locked)
    ∧ (door .closing).retryCount + 1 ≤ { Berth.reset.entry with doorNode := 9, retries := 1 }.retries := by
  refine ⟨fun st => by cases st <;> decide +kernel,
    fun _ => ⟨rfl, nine_ne, rfl, rfl, rfl, List.not_mem_nil, rfl, settled_of ⟨rfl, rfl, rfl, Nat.succ_pos 15⟩,
      Nat.succ_pos 7, rfl, rfl, Nat.succ_pos 0⟩,
    fun j hj => ?_, fun j hj => ?_, by decide, by decide, ⟨⟨1, by decide⟩, ⟨1, by decide⟩⟩, fun j hj => ?_,
    by decide, fun _ => ⟨settled_of ⟨rfl, rfl, rfl, Nat.succ_pos 15⟩, ⟨_, List.mem_singleton.mpr rfl, rfl, rfl⟩⟩,
    by decide⟩ <;>
  · obtain ⟨h1, h2⟩ : 1 ≤ j ∧ j ≤ 2 := of_decide_eq_true hj
    interval_cases j <;> decide


/-! ## Witnesses: calls and the summit link -/

/-- Phone 7 is at node 20, in the ring group, with this call in place and `n` frames for the phones queued. -/
def calling (c : CallState) (phone : Option Nat) (rung : List Nat) (backlog : List Message) (n : Nat) : State :=
  { ready with
    cs := { ready.cs with
      phones := ready.cs.phones.setIfInBounds 7 { node := 20, priority := .service, ringGroup := true }
      call := c, phone := phone, rung := rung, backlog := backlog, ringTimer := some 30000, repeatTimer := some 1000 }
    lr := { ready.lr with voice := List.replicate n (qframe .call) } }
theorem witness_RingTimersRunOut :
    (∀ c phone rung backlog n, let s := calling c phone rung backlog n;
      s.resetHeld = false ∧ s.cs.ringTimer = some 30000 ∧ s.cs.repeatTimer = some 1000 ∧ s.cs.waiting = [] ∧ Settled s
        ∧ s.sl.txQueue.length < 15 ∧ s.cs.call = c ∧ s.cs.phone = phone ∧ s.cs.rung = rung ∧ s.cs.backlog = backlog)
      ∧ (let s := calling .outgoing (some 7) [] [] 3; (s.phoneEntry 7).node ≠ 0 ∧ s.lr.voice.length < 4)
      ∧ (let s := calling .incoming none [7] [] 3;
        (∀ h ∈ s.cs.rung, (s.phoneEntry h).node ≠ 0) ∧ s.lr.voice.length + s.cs.rung.length ≤ 4
        ∧ ((List.range 8).filter fun h => (s.phoneEntry h).ringGroup && (s.phoneEntry h).node != 0) = [7]) :=
  ⟨fun _ _ _ _ _ => ⟨rfl, rfl, rfl, rfl, settled_of ⟨rfl, rfl, rfl, Nat.succ_pos 15⟩, Nat.succ_pos 14, rfl, rfl, rfl,
    rfl⟩, by decide, by decide⟩

/-- A phone at node 21 waits, as phone 6, with this priority. -/
def callWaits (p : Priority) (s : State) : State :=
  { s with cs := { s.cs with
    phones := s.cs.phones.setIfInBounds 6 { node := 21, priority := p, ringGroup := false }
    waiting := [{ phone := 6, priority := p }] } }
theorem twenty_ne : (20 : Byte) ≠ ready.ownAddress := by decide
theorem witness_DoorAndPhoneFramesJudged_phones :
    ([([0] : List Byte), [1], [2]].all fun p => parseFrame (frameBytes 100 20 0x40 0 p) = some (heardFrom 20 0x40 p))
    ∧ (let p : List Byte := List.replicate 40 9; p.length = 40
      ∧ parseFrame (frameBytes 100 20 0x41 0 p) = some (heardFrom 20 0x41 p))
    ∧ (∀ h, h < 8 → (ready.phoneEntry h).node ≠ (20 : Byte).toNat)
    ∧ (∀ c phone rung backlog n, let s := calling c phone rung backlog n;
      s.resetHeld = false ∧ (20 : Byte) ≠ s.ownAddress ∧ 100 = s.ownAddress ∧ (s.phoneEntry 7).node = (20 : Byte).toNat
      ∧ Settled s ∧ s.sl.link = .up ∧ s.sl.txQueue.length < 14 ∧ s.cs.call = c ∧ s.cs.phone = phone ∧ s.cs.rung = rung
      ∧ s.cs.backlog = backlog ∧ s.cs.waiting = [] ∧ s.cs.voice = [])
    ∧ (let s := calling .idle none [] [] 2;
      (∀ i, i < 8 → i ≠ 7 → (s.phoneEntry i).node ≠ (20 : Byte).toNat) ∧ s.lr.voice.length < 3
      ∧ (s.phoneEntry 7).priority = .service ∧ ((List.replicate 3 [1] : List (List Byte))).length = 3)
    -- phone 7 waits; the list holds phone 6 alone, in order, or four of them, the last of class SERVICE
    ∧ (let s := callWaits .service (calling .connected (some 5) [] [] 0);
      s.cs.phone ≠ some 7 ∧ (∀ w ∈ s.cs.waiting, w.phone ≠ 7) ∧ s.cs.waiting.length < 4
      ∧ s.cs.waiting = (s.cs.waiting.filter fun w => w.priority == .emergency)
        ++ s.cs.waiting.filter fun w => w.priority == .service)
    ∧ (let w := fun h p => ({ phone := h, priority := p } : WaitReq);
      let l := [w 0 .emergency, w 1 .emergency, w 2 .emergency, w 6 .service];
      l.length = 4 ∧ (l.filter fun w => w.priority == .service) = [] ++ [w 6 .service]
      ∧ l = (l.filter fun w => w.priority == .emergency) ++ l.filter fun w => w.priority == .service)
    ∧ ((callWaits .service (calling .outgoing (some 7) [] [] 0)).phoneEntry 6).node ≠ 0
    -- phone 7 waits itself
    ∧ (let s := { ready with cs := { ready.cs with waiting := [{ phone := 7, priority := .service }] } };
      s.cs.phone ≠ some 7 ∧ ∃ w ∈ s.cs.waiting, w.phone = 7)
    -- an EMERGENCY phone meets a SERVICE call of phone 6
    ∧ (let s := callWaits .service (calling .connected (some 6) [] [] 0);
      (s.phoneEntry 6).node ≠ 0 ∧ s.cs.priority = .service)
    ∧ (let s := calling .incoming none [7] [] 2;
      s.lr.voice.length + s.cs.rung.length < 4 ∧ ∀ i ∈ s.cs.rung, (s.phoneEntry i).node ≠ 0) :=
  ⟨by decide +kernel, by decide +kernel, by decide,
    fun _ _ _ _ _ => ⟨rfl, twenty_ne, rfl, rfl, settled_of ⟨rfl, rfl, rfl, Nat.succ_pos 15⟩, rfl, Nat.succ_pos 13, rfl, rfl,
      rfl, rfl, rfl, rfl⟩,
    by decide, by decide, by decide, by decide, ⟨by decide, ⟨_, List.mem_singleton.mpr rfl, rfl⟩⟩, by decide, by decide⟩

/-- A part at a turn start, with a break pending or not and this transmit queue. -/
def turning (pending : Bool) (q : List TxEntry) : State :=
  { ready with sl := { ready.sl with turnTimer := some 20, breakPending := pending, txQueue := q } }
/-- A note in the transmit queue. -/
def note (seq : Byte) (sent : Bool) (age : Nat) : TxEntry :=
  { msg := { type := 6, payload := [1] }, seq := seq, sent := sent, age := age }
theorem witness_TurnsStartAndSendingEnds :
    (∀ pending q, let s := turning pending q;
      s.resetHeld = false ∧ s.sl.turnTimer = some 20 ∧ s.sl.tx = .quiet ∧ s.sl.turn = .none ∧ s.sl.link = .up
        ∧ s.sl.breakPending = pending ∧ s.sl.txQueue = q)
      ∧ (∀ e ∈ [note 0 true 8, note 1 false 0], e.sent = true → e.age < 9)
      ∧ (∀ e ∈ List.replicate 8 (note 0 false 0), e.sent = false)
      ∧ (note 0 true 9).sent = true ∧ (note 0 true 9).age = 9
      ∧ (let s := fun tx turn => { ready with sl := { ready.sl with tx := tx, turn := turn } };
        (s (.burst [1]) .sending).resetHeld = false ∧ (s (.burst [1]) .sending).sl.tx = .burst [1]
        ∧ (s (.burst [1]) .sending).sl.turn = .sending ∧ (s (.burst [1]) .none).sl.turn ≠ .sending
        ∧ (s .breaking .none).sl.tx = .breaking ∧ (s (.attention [1]) .none).sl.tx = .attention [1]) :=
  ⟨fun _ _ => ⟨rfl, rfl, rfl, rfl, rfl, rfl, rfl⟩, by decide, by decide, rfl, rfl, by decide⟩

/-- A turn whose window is open, after `n` missed turns. -/
def missing (l : LinkState) (n : Nat) (turn : TurnPhase) : State :=
  { ready with sl := { ready.sl with link := l, missed := n, turn := turn, tx := .burst [1], turnTimer := some 20 } }
theorem witness_MissedTurnsLoseTheLink :
    (∀ l n turn, (missing l n turn).resetHeld = false ∧ (missing l n turn).sl.turn = turn
        ∧ (missing l n turn).sl.tx = .burst [1] ∧ (missing l n turn).sl.missed = n ∧ (missing l n turn).sl.link = l
        ∧ (missing l n turn).sl.turnTimer = some 20 ∧ Settled (missing l n turn) ∧ (missing l n turn).cs.call = .idle)
      ∧ 1 + 1 < 3 ∧ (LinkState.degraded ≠ .up ∧ 8 + 1 < 10) ∧ (3 ≤ 2 + 1 ∧ 2 + 1 < 10)
      ∧ (10 ≤ 9 + 1 ∧ LinkState.degraded ≠ .lost)
      -- calls in progress, with room for their frames
      ∧ (∀ c phone rung, let s := calling c phone rung [] 3;
        let s := { s with sl := (missing .degraded 9 (.window 5)).sl };
        s.resetHeld = false ∧ s.sl.turn = .window 5 ∧ s.cs.call = c ∧ s.cs.phone = phone ∧ s.cs.rung = rung ∧ Settled s)
      ∧ (let s := calling .outgoing (some 7) [] [] 3; (s.phoneEntry 7).node ≠ 0 ∧ s.lr.voice.length < 4)
      ∧ (let s := calling .incoming none [7] [] 3;
        (∀ h ∈ s.cs.rung, (s.phoneEntry h).node ≠ 0) ∧ s.lr.voice.length + s.cs.rung.length ≤ 4) :=
  ⟨fun _ _ _ => ⟨rfl, rfl, rfl, rfl, rfl, rfl, settled_of ⟨rfl, rfl, rfl, Nat.succ_pos 15⟩, rfl⟩, by decide, by decide,
    by decide, by decide, fun _ _ _ => ⟨rfl, rfl, rfl, rfl, rfl, settled_of ⟨rfl, rfl, rfl, Nat.succ_pos 15⟩⟩, by decide, by decide⟩

theorem witness_AttentionSequencesAndDetector :
    let s := fun tx (pending waiting : Bool) => { ready with now := 10, sl := { ready.sl with
      link := .syncing, attnTimer := some 20, tx := tx, breakPending := pending, attnWaiting := waiting
      lastChar := some 10 } };
    let lost := { ready with sl := { ready.sl with link := .lost, lostUntil := some 20 } };
    (lost.resetHeld = false ∧ lost.sl.link = .lost ∧ lost.sl.lostUntil = some 20)
      ∧ (s .quiet false true).sl.link = .syncing ∧ (s .quiet false true).sl.attnTimer = some 20
      ∧ (s .breaking false true).sl.tx ≠ .quiet ∧ (s .quiet true true).sl.breakPending = true
      ∧ (s .quiet false true).sl.attnWaiting = true ∧ (s .quiet false false).sl.attnWaiting = false
      -- at time 20 the line has been idle for 10 ms exactly; with a timer of 19 it has not
      ∧ (∀ c, (s .quiet false false).sl.lastChar = some c → c + 10 ≤ max (s .quiet false false).now 20)
      ∧ (∀ c, (s .quiet false false).sl.lastChar = some c → max (s .quiet false false).now 19 < c + 10) := by
  refine ⟨by decide, by decide, by decide, by decide, by decide, by decide, by decide, ?_, ?_⟩ <;>
    · rintro c ⟨⟩; decide

theorem witness_AttentionSequencesAndDetector_stages :
    let s := fun d turn => { ready with sl := { ready.sl with detector := d, turn := turn } };
    (∀ d turn, (s d turn).resetHeld = false ∧ (s d turn).sl.link ≠ .down ∧ (s d turn).sl.tx = .quiet
      ∧ (s d turn).sl.detector = d ∧ (s d turn).sl.turn = turn) :=
  fun _ _ => ⟨rfl, fun h => LinkState.noConfusion h, rfl, rfl, rfl⟩

theorem witness_DetectionResynchronises :
    let s := fun r l => { ready with sl := { ready.sl with
      detector := .trail r 255, link := l, txQueue := [note 255 true 3] } };
    (∀ r l, (s r l).resetHeld = false ∧ (s r l).sl.detector = .trail r 255 ∧ (s r l).sl.link = l
        ∧ (s r l).cs.waiting = [] ∧ Settled (s r l) ∧ (s r l).sl.txQueue = note 255 true 3 :: [])
      ∧ LinkState.syncing ≠ .down ∧ LinkState.syncing ≠ .up ∧ (255 : Byte) = (note 255 true 3).seq :=
  ⟨fun _ _ => ⟨rfl, rfl, rfl, rfl, settled_of ⟨rfl, rfl, rfl, Nat.succ_lt_succ (Nat.succ_pos 14)⟩,
    rfl⟩, by decide⟩

/-- The characters of a summit burst for turn 7. -/
def burst (demand next hold : Byte) (msgs : List Byte) : List Byte :=
  let body : List Byte := [0xA5, 2, 7, demand, 0x85, next, hold] ++ msgs
  body ++ enc2 (crc16 body).toNat
/-- What they carry. -/
def burstWord (d : Demand) : SafetyWord := { demand := d, line := .tripped, tripLatched := true }
/-- The burst is in reception. -/
def hearing (chars : List Byte) (framing : Bool) (held : Option Demand) (q : List TxEntry) (rx : Nat) : State :=
  { ready with sl := { ready.sl with
    turn := .receiving chars framing, turnNumber := 7, summitHeld := held, txQueue := q, rxQueue := List.replicate rx [1]
    missed := 1 } }
theorem witness_SummitBurstsJudged :
    (∀ chars framing held q rx, let s := hearing chars framing held q rx;
      s.resetHeld = false ∧ s.sl.turn = .receiving chars framing ∧ s.sl.turnNumber = 7 ∧ s.sl.summitHeld = held
        ∧ s.sl.link = .up ∧ s.sl.txQueue = q ∧ s.sl.missed + 1 < 3 ∧ s.sl.nextExpected = 0 ∧ s.cs.backlog = [])
      ∧ parseSummitBurst 0 (burst 0 1 1 [0])
        = some { turn := 7, word := burstWord .run, next := 1, hold := true, voice := none, msgs := [] }
      ∧ parseSummitBurst 0 (burst 3 0 0 [1, 6, 0, 1, 9])
        = some { turn := 7, word := burstWord .trip, next := 0, hold := false, voice := none,
                 msgs := [({ type := 6, payload := [9] }, 0)] }
      ∧ parseSummitBurst 0 [0xA5] = none ∧ (1 - (note 0 true 1).seq).toNat = 1 ∧ (0 - (note 0 true 1).seq).toNat = 0
      ∧ (hearing [] false none [] 7).sl.rxQueue.length < 8 ∧ 8 ≤ (hearing [] false none [] 8).sl.rxQueue.length
      ∧ Demand.stop.code < Demand.trip.code
      ∧ Settled (hearing (burst 0 1 1 [0]) false (some .run) [note 0 true 1] 0)
      ∧ Settled (hearing (burst 3 0 0 [0]) false (some .stop) [] 0) := by
  refine ⟨fun _ _ _ _ _ => ⟨rfl, rfl, rfl, rfl, rfl, rfl, by show 1 + 1 < 3; decide, rfl, rfl⟩, by decide +kernel,
    by decide +kernel, by decide +kernel, by decide, by decide, by decide, by decide, by decide,
    settled_of (by decide +kernel), settled_of (by decide +kernel)⟩

/-- What the burst of one message carries. -/
def oneMessage (type : Byte) (p : List Byte) (seq : Byte) : SummitBurst :=
  { turn := 7, word := burstWord .run, next := 0, hold := false, voice := none, msgs := [({ type := type, payload := p }, seq)] }
theorem witness_SummitBurstsJudged_messages :
    -- messages: one beyond the expected, and those of the cabin, of the call
    ([(6, [9], 1), (6, [9], 127), (2, enc2 999, 0), (1, enc2 1, 0), (3, [1], 0), (4, [], 0), (5, [0], 0)].all
      fun m : Byte × List Byte × Byte =>
        parseSummitBurst 0 (burst 0 0 0 ([1, m.1, m.2.2, BitVec.ofNat 8 m.2.1.length] ++ m.2.1))
          = some (oneMessage m.1 m.2.1 m.2.2))
    ∧ parseSummitBurst 0 (burst 0 0 2 (List.replicate 40 9 ++ [0]))
      = some { turn := 7, word := burstWord .run, next := 0, hold := false, voice := some (List.replicate 40 9), msgs := [] }
    ∧ 1 ≤ ((127 : Byte) - 0).toNat ∧ ((127 : Byte) - 0).toNat ≤ 127
    -- cabins: none on the way, one at the near end of its window, one on the summit, and a full downhill list
    ∧ (let s := hearing [] false (some .run) [] 0;
      (∀ e ∈ s.ct.uphill, e.id ≠ 999) ∧ s.location 999 = none ∧ s.ct.downhill.length < 64)
    ∧ (let e := { id := 999, pos := 0, order := 1, overdue := false };
      let s := { ready with ra := { ready.ra with p := 101 }, ct := { ready.ct with uphill := [e] } };
      let d := (((s.ra.p : Int) - e.pos) % s.params.loopLen).toNat;
      s.ct.uphill = [] ++ e :: [] ∧ s.params.uphillSpan ≤ d + s.params.tolerance ∧ d ≤ s.params.uphillSpan + s.params.tolerance
      ∧ ¬ d + 1 ≤ s.params.uphillSpan + s.params.tolerance
      ∧ [{ e with id := 5 }, e] = [{ e with id := 5 }] ++ e :: [] ∧ ∀ y ∈ [{ e with id := 5 }], y.id ≠ 999)
    ∧ (let s := withCabin 1 .summit ready;
      s.location 1 = some .summit ∧ s.registered 1 = true ∧ (∀ c ∈ s.ct.queue, c.id ≠ 1) ∧ (∀ e ∈ s.ct.uphill, e.id ≠ 1)
      ∧ ∀ e ∈ s.ct.downhill, e.id ≠ 1)
    ∧ (let l : List DownEntry := List.replicate 64 { id := 2, pos := 0, overdue := false };
      (∀ e ∈ l, e.id ≠ 1) ∧ 64 ≤ l.length ∧ ∃ e ∈ l, e.id = 2)
    -- calls
    ∧ (let s := calling .idle none [] [] 3;
      s.cs.call = .idle
      ∧ s.lr.voice.length + ((List.range 8).filter fun h => (s.phoneEntry h).ringGroup && (s.phoneEntry h).node != 0).length ≤ 4)
    ∧ (let s := calling .connected (some 7) [] [] 3;
      s.cs.call = .connected ∧ s.cs.phone = some 7 ∧ (s.phoneEntry 7).node ≠ 0 ∧ s.lr.voice.length < 4 ∧ s.cs.waiting = []
      ∧ s.cs.backlog = [] ∧ (calling .outgoing (some 7) [] [] 3).cs.call = .outgoing ∧ Cause.normal ≠ .link) := by
  decide +kernel

/-- Cabins registered elsewhere: uphill, and in a berth with its doors open or closed, its grip test failed. Calls that a
ring or a clear meets: INCOMING, and CONNECTED with nothing waiting and with phone 6 waiting. -/
theorem witness_SummitBurstsJudged_elsewhere :
    (let s := withCabin 1 .uphill ready; s.location 1 = some .uphill ∧ Location.uphill ≠ .summit ∧ ∀ c ∈ s.ct.queue, c.id ≠ 1)
    ∧ (∀ d ∈ [door .closed, door .open], let c := { record 1 .registered 2 with grip := .fail };
      let s := atBerth d (withCabin 1 .terminal ready); let s := { s with ct := { s.ct with queue := [c] } };
      s.location 1 = some .terminal ∧ s.ct.queue = [] ++ c :: [] ∧ c.id = 1 ∧ c.grip = .fail ∧ s.isBerth c.zone = true
      ∧ s.isBerth (record 1 .registered 3).zone = false ∧ (record 1 .registered 2).grip ≠ .fail
      ∧ (s.door c.zone).state = d.state)
    ∧ (let s := calling .incoming none [7] [] 3;
      s.cs.call = .incoming ∧ s.cs.call ≠ .idle ∧ s.cs.phone = none ∧ (∀ h ∈ s.cs.rung, (s.phoneEntry h).node ≠ 0)
      ∧ s.lr.voice.length + s.cs.rung.length ≤ 4)
    -- a ring in CONNECTED, with nothing waiting and with phone 6 waiting
    ∧ (let s := calling .connected (some 7) [] [] 2;
      s.lr.voice.length + ((List.range 8).filter fun h => (s.phoneEntry h).ringGroup && (s.phoneEntry h).node != 0).length < 4
      ∧ (let t := callWaits .emergency (calling .connected (some 7) [] [] 1);
        t.cs.waiting = { phone := 6, priority := .emergency } :: [] ∧ (t.phoneEntry 6).node ≠ 0 ∧ (t.phoneEntry 7).node ≠ 0
        ∧ t.lr.voice.length < 2)) := by
  decide +kernel

theorem witness_SummitBreakTrips :
    let s := { ready with sl := { ready.sl with summitBreak := true, turn := .receiving [1] false } };
    s.resetHeld = false ∧ Settled s ∧ s.sl.tx = .quiet ∧ s.sl.summitBreak = true :=
  ⟨rfl, settled_of (by decide), rfl, rfl⟩

/-! ## Witnesses: the desk -/

/-- The part asked, whatever the rest of its state. -/
theorem asks_asked {p : List Byte} {s : State} (h : s.resetHeld = false ∧ s.lr.report.length < 8
    ∧ s.dr.restartWait = false ∧ s.params.deskNode = 1 ∧ s.cl.load = .ready) :
    Asked (request p) [] p (asks p s) := asked_of ⟨h.1, rfl, rfl, h.2.1, h.2.2.1, h.2.2.2.1.symm, h.2.2.2.2⟩
theorem ready_asked (p : List Byte) : Asked (request p) [] p (asks p ready) := asks_asked (by decide)
/-- The key state. -/
def keyed (k : KeyState) (s : State) : State := { s with dr := { s.dr with key := k, keyTimer := some 2000 } }
theorem keyed_asked (k : KeyState) (l : LineState) (p : List Byte) :
    Asked (request p) [] p (asks p (keyed k { ready with ls := { ready.ls with line := l } })) :=
  asks_asked ⟨rfl, Nat.succ_pos 7, rfl, rfl, rfl⟩

theorem witness_KeySequence :
    (∀ k p, Asked (request p) [] p (asks p (keyed k { ready with ls := { ready.ls with line := .stopped } })))
      ∧ (keyed .a ready).dr.key = .a ∧ (keyed .b ready).dr.key ≠ .a ∧ (keyed .a ready).dr.key ≠ .b
      ∧ (keyed .a ready).dr.keyTimer = some 2000 ∧ (keyed .a ready).resetHeld = false
      ∧ (Instr.bypass, (0x0F : Byte), ([47, 120] : List Byte).length) ∈
        [(Instr.tripReset, 0x0E, 0), (.bypass, 0x0F, 2), (.reinstate, 0x10, 1), (.commission, 0x11, 0), (.restart, 0x12, 0)]
      ∧ u8 [47, 120] 0 ≤ 47 ∧ u8 [47, 120] 1 ≤ 120 :=
  ⟨fun k p => keyed_asked k .stopped p, by decide⟩

theorem witness_StatusReturnsTheRecord : Asked (request [0x01]) [] [0x01] (asks [0x01] ready) := ready_asked _

/-- A part with an entry in every list that READ_ENTRY reads, and a berth held with its doors OPEN. -/
def listed : State :=
  let s := atBerth { door .open with hold := .yes 5 } ready
  { s with
    cm := { s.cm with subst := [{ primary := 47, standby := 46, order := 1 }] }
    ls := { s.ls with faults := [fault 3 .startTimeout .stop true true] }
    ct := { s.ct with
      queue := [record 0 .anonymous 0], uphill := [{ id := 1, pos := 2, order := 3, overdue := true }]
      downhill := [{ id := 4, pos := 5, overdue := false }] } }
theorem witness_ReadEntryReturnsEntries :
    (∀ (table : Byte) (first count : Nat), let p := [0x02, table] ++ enc2 first ++ enc1 count;
      Asked (request p) [] p (asks p listed))
      ∧ (9 < (10 : Byte).toNat ∧ ¬ 9 < (9 : Byte).toNat ∧ 4 < 5)
      -- the last entry of each table and list, the entry after it being none
      ∧ (47 < 48 ∧ 2 < listed.berthCount + 1 ∧ 159 < 160 ∧ 7 < 8 ∧ 0 < listed.ls.faults.length
        ∧ 0 < listed.ct.queue.length ∧ 0 < listed.ct.uphill.length ∧ 0 < listed.ct.downhill.length
        ∧ 0 < listed.cm.subst.length ∧ listed.ls.faults.length ≤ 1 ∧ listed.berthCount + 1 ≤ 3)
      ∧ ((listed.door 2).hold = .yes 5 ∧ (door .open).hold = .no) :=
  ⟨fun _ _ _ => asks_asked ⟨rfl, Nat.succ_pos 7, rfl, rfl, rfl⟩, by decide, by decide, by decide⟩

/-- Channel 47 ACTIVE, with the line in this state. -/
def judged (l : LineState) : State := withChan (active .tension) (lineAt l .slow .slow ready)
theorem judged_asked (l : LineState) (p : List Byte) : Asked (request p) [] p (asks p (judged l)) :=
  asks_asked ⟨rfl, Nat.succ_pos 7, rfl, rfl, rfl⟩
theorem witness_TableWritesJudged :
    (∀ p, Asked (request p) [] p (asks p ready))
      ∧ (let e : BerthEntry := { Berth.reset.entry with doorNode := 126 };
        e.bytes.length = 10 ∧ BerthEntry.ofBytes e.bytes = some e ∧ BerthAllowed e ∧ ¬ BerthAllowed { e with dwell := 121 }
        ∧ ready.isBerth 2 = true ∧ ready.isBerth 3 = false ∧ (ready.berth 2).entry.doorNode ≠ e.doorNode
        ∧ (ready.berth 1).entry.doorNode ≠ e.doorNode ∧ (judged .slowed).ls.line ≠ .stopped
        ∧ ((atBerth (door .open) ready).door 2).state ≠ .closed ∧ ((atBerth (door .open) ready).door 2).state ≠ .fault)
      -- an entry that takes berth 2's node to berth 1, and accepted changes of berth 2: of its mode alone, and of its node
      ∧ (let s := atBerth (door .closed) ready; let o := (s.berth 2).entry; let e := { o with mode := .passMode };
        (∀ p, Asked (request p) [] p (asks p s)) ∧ Settled (asks [] s) ∧ s.isBerth 2 = true ∧ s.isBerth 1 = true
        ∧ o.doorNode ≠ 0 ∧ s.ls.line = .stopped ∧ (s.door 2).state = .closed
        ∧ BerthAllowed e ∧ BerthEntry.ofBytes e.bytes = some e ∧ o.mode = .openMode ∧ e.doorNode = o.doorNode
        ∧ BerthAllowed { e with doorNode := 126 } ∧ BerthAllowed { e with doorNode := 0 }
        ∧ (s.berth 1).entry.doorNode ≠ 126 ∧ (s.berth 1).entry.doorNode ≠ o.doorNode)
      ∧ (ready.ct.fleet[159]?.getD none = none ∧ ready.registered 999 = false ∧ (∀ c ∈ ready.ct.queue, c.id ≠ 999))
      ∧ (let s := withCabin 999 .garage ready;
        s.ct.fleet[159]?.getD none = some { id := 999, location := .garage } ∧ s.registered 999 = true)
      ∧ (let e : Phone := { node := 126, priority := .emergency, ringGroup := true };
        e.bytes.length = 3 ∧ Phone.ofBytes e.bytes = some e ∧ (∀ i, i < 8 → i ≠ 7 → (ready.phoneEntry i).node ≠ e.node)
        ∧ ready.cs.phone ≠ some 7 ∧ (∀ w ∈ ready.cs.waiting, w.phone ≠ 7)
        ∧ (calling .outgoing (some 7) [] [] 0).cs.phone = some 7)
      -- a node that phone 7 has already, written to phone 6
      ∧ ((calling .outgoing none [] [] 0).phoneEntry 7).node = 20 :=
  ⟨ready_asked, by simp only [berthAllowed_iff]; decide +kernel,
    ⟨fun _ => asks_asked ⟨rfl, Nat.succ_pos 7, rfl, rfl, rfl⟩, settled_of (by decide), by simp only [berthAllowed_iff]; decide +kernel⟩,
    by decide +kernel, by decide +kernel, by decide +kernel, by decide +kernel⟩

/-- A commissioned part, the desk demand RUN named. -/
def allowed : State := { ready with ls := { ready.ls with commissioned := true } }
theorem witness_LineStateJudgesWritesAndRequests_writes :
    (∀ l p, Asked (request p) [] p (asks p (judged l)))
      ∧ ((active .tension).bytes.length = 21 ∧ ChanEntry.ofBytes (active .tension).bytes = some (active .tension))
      ∧ (∀ l, ChanAllowed (judged l) 47 (active .tension)) ∧ ¬ ChanAllowed ready 47 { active .tension with node := 0 }
      ∧ (judged .slowed).cm.subst = []
      ∧ ((judged .slowed).chan 47).entry = active .tension ∧ (judged .slowed).bypassed 47 = false
      ∧ (judged .slowed).dr.capture = none
      -- a place of the substitution list, moved
      ∧ (let s := { judged .stopped with
            cm := { (judged .stopped).cm with subst := [{ primary := 46, standby := 47, order := 0 }] } };
        let e := { active .tension with slot := 7 };
        (∀ p, Asked (request p) [] p (asks p s)) ∧ ChanAllowed s 47 e ∧ ChanEntry.ofBytes e.bytes = some e
        ∧ (∃ x ∈ s.cm.subst, x.primary = 47 ∨ x.standby = 47) ∧ (s.chan 47).entry.slot ≠ e.slot)
      -- LINE_PARAMS: the tolerance of 100 at reset, looser, and its least value
      ∧ LineParams.reset.bytes.length = 46 ∧ LineParams.ofBytes LineParams.reset.bytes = LineParams.reset
      ∧ (let p := { LineParams.reset with tolerance := 101 }; LineParams.ofBytes p.bytes = p ∧ LineAllowed p)
      ∧ (let p := { LineParams.reset with tolerance := 100 };
        LineParams.ofBytes p.bytes = p ∧ LineAllowed p ∧ p.tolerance ≤ LineParams.reset.tolerance)
      ∧ ¬ LineAllowed { LineParams.reset with loopLen := 999 } :=
  ⟨judged_asked, by decide +kernel, fun l => chanAllowed_of (by cases l <;> decide +kernel),
    fun h => absurd h.node.1 (by decide), by decide +kernel, by decide +kernel, by decide +kernel, by decide +kernel,
    ⟨fun _ => asks_asked ⟨rfl, Nat.succ_pos 7, rfl, rfl, rfl⟩, chanAllowed_of (by decide +kernel), by decide +kernel⟩,
    by simp only [lineAllowed_iff]; decide +kernel⟩
/-- A structural change, a looser field, and one that is neither, of a channel and of the line parameters. -/
theorem witness_LineStateJudgesWritesAndRequests_fields :
    (ChanStructural (active .tension) { active .tension with slot := 7 }
      ∧ ¬ ChanStructural (active .tension) { active .tension with persistence := 4 }
      ∧ ChanLoosens (active .tension) { active .tension with persistence := 4 }
      ∧ ¬ ChanLoosens (active .tension) { active .tension with persistence := 2 }
      ∧ ¬ ChanStructural (active .tension) { active .tension with persistence := 2 })
    ∧ (LineStructural LineParams.reset { LineParams.reset with loopLen := 1001 }
      ∧ ¬ LineStructural LineParams.reset { LineParams.reset with tolerance := 101 }
      ∧ LineLoosens LineParams.reset { LineParams.reset with tolerance := 101 }
      ∧ ¬ LineLoosens { LineParams.reset with tolerance := 101 } LineParams.reset
      ∧ ¬ LineStructural { LineParams.reset with tolerance := 101 } LineParams.reset)
    ∧ Settled (judged .slowed) := by
  refine ⟨?_, ?_, settled_of (by decide +kernel)⟩
  · simp [ChanStructural, ChanLoosens, active, Channel.reset]
  · simp [LineStructural, LineLoosens, LineParams.reset]
theorem witness_LineStateJudgesWritesAndRequests_requests :
    (∀ l p, Asked (request p) [] p (asks p (judged l)))
      ∧ (∀ l, (asks [4, 0] (judged l)).ls.line = l) ∧ Settled (asks [4, 0] (judged .slowed))
      ∧ (Instr.lineRun, (0 : Byte), Demand.run) ∈
        [(Instr.lineRun, 0, Demand.run), (.lineSlow, 1, .slow), (.lineStop, 2, .stop)]
      ∧ ready.ls.commissioned = false
      ∧ Asked (request [4, 0]) [] [4, 0] (asks [4, 0] allowed) ∧ allowed.ls.line = .stopped
      ∧ allowed.ls.commissioned = true ∧ allowed.sl.link = .up ∧ allowed.lr.loop = .closed ∧ Settled allowed
      ∧ ∃ e, MostSevere { keyless (taken [] (asks [4, 0] allowed)) with
          ls := { allowed.ls with deskDemand := .run } } e ∧ e.code ≤ 1 :=
  ⟨judged_asked, fun _ => rfl, settled_of (by decide), by decide, by decide, asks_asked (by decide), by decide, by decide,
    by decide, by decide, settled_of (by decide), ⟨_, demandNow_mostSevere _, by decide⟩⟩

/-- A part at a time with these line parameters, the line in a state with an effective demand and its timers running from 0. -/
def lined (now : Nat) (l : LineState) (e : Demand) (setpoint : Nat) (o : LineParams) : State :=
  let s := lineAt l e e ready
  { s with now := now, ls := { s.ls with
      params := o, startTimer := some 0, stopTimer := some 0, drive := { level := e, setpoint := setpoint, line := l } } }
/-- The desk's write of these line parameters stands at the head, with nothing else waiting. -/
def Writes (p : LineParams) (s : State) : Prop :=
  let s := asks ([0x03, 4, 0, 0] ++ p.bytes) s
  p.bytes.length = 46 ∧ LineParams.ofBytes p.bytes = p ∧ LineAllowed p ∧ Settled s ∧ DemandKept s
    ∧ AtMostOneEach s.lr.safety ∧ Asked (request ([0x03, 4, 0, 0] ++ p.bytes)) [] ([0x03, 4, 0, 0] ++ p.bytes) s
theorem writes_of {p : LineParams} {s : State} (h : (p.bytes.length = 46 ∧ LineParams.ofBytes p.bytes = p
      ∧ p.inRange = true ∧ s.lr.safety = [])
    ∧ (s.cm.deferred = [] ∧ s.ct.backlogWaiting = none ∧ s.ct.backlogLaunched = [] ∧ s.sl.txQueue.length < 16)
    ∧ (s.resetHeld = false ∧ s.lr.report.length < 8 ∧ s.dr.restartWait = false ∧ s.params.deskNode = 1 ∧ s.cl.load = .ready)
    ∧ s.demandNow = s.ls.effDemand ∧ (s.ls.effDemand = .trip → s.ls.line = .tripped)
    ∧ (s.ls.line = .running → s.ls.effDemand = .run) ∧ (s.ls.line = .slowed → s.ls.effDemand = .slow)
    ∧ (s.ls.line = .starting → s.ls.effDemand = .run ∨ s.ls.effDemand = .slow)
    ∧ (s.ls.deskDemand ≠ .trip
      ∧ (s.ls.line = .stopped ∨ s.ls.line = .stopping ∨ s.ls.line = .tripped → s.ls.deskDemand = .stop))
    ∧ s.ls.drive = driveContent s) : Writes p s := by
  obtain ⟨⟨h1, h2, h3, h4⟩, hs, ha, hk⟩ := h
  have hl : AtMostOneEach s.lr.safety := by rw [h4]; exact ⟨List.nodup_nil, fun _ h => absurd h List.not_mem_nil⟩
  exact ⟨h1, h2, (lineAllowed_iff _).2 h3, settled_of hs, kept_of hk, hl, asks_asked ha⟩
theorem witness_LineParamsWriteTakesEffect :
    -- L, in STOPPED
    Writes { LineParams.reset with loopLen := 1001 } (lined 0 .stopped .stop 0 LineParams.reset)
    -- the setpoint in force, one mm/s lower, and the other one
    ∧ (∀ a ∈ [(LineState.running, Demand.run), (.starting, .run), (.slowed, .slow), (.starting, .slow)],
      let o := { LineParams.reset with runSetpoint := 5, slowSetpoint := 5, driveNode := 126 };
      Writes { o with runSetpoint := 4 } (lined 0 a.1 a.2 5 o) ∧ Writes { o with slowSetpoint := 4 } (lined 0 a.1 a.2 5 o))
    ∧ (let o := { LineParams.reset with runSetpoint := 5 }; Writes { o with runSetpoint := 4 } (lined 0 .stopped .stop 0 o))
    -- the start and stop time limits, and the auto-slow time below and above 12, with the timers from 0
    ∧ (∀ n ∈ [999, 1000],
      (let o := { LineParams.reset with startTime := 2 }; let s := lined n .starting .slow 0 o;
        Writes { o with startTime := 1 } s ∧ s.ls.startTimer = some 0 ∧ s.now = n)
      ∧ (let o := { LineParams.reset with stopTime := 2 }; let s := lined n .stopping .stop 0 o;
        Writes { o with stopTime := 1 } s ∧ s.ls.stopTimer = some 0 ∧ s.now = n))
    ∧ (∀ a ∈ [(0, 11), (0, 255), (13, 12), (13, 1)], let o := { LineParams.reset with idleSlow := a.1 };
      (∀ b ∈ [(59999, none), (59999, some 0), (60000, some 0)], let s := lined b.1 .running .run 0 o;
        Writes { o with idleSlow := a.2 } { s with ls := { s.ls with autoSlow := b.2 } })
      ∧ (a.1 = 0 ∨ max 12 a.2 * 5000 ≤ max 12 a.1 * 5000))
    ∧ (let o := { LineParams.reset with idleSlow := 12 }; Writes { o with idleSlow := 0 } (lined 0 .stopped .stop 0 o))
    ∧ (999 < 1 * 1000 ∧ 1 * 1000 ≤ 1000 ∧ 59999 < max 12 12 * 5000 ∧ max 12 12 * 5000 ≤ 60000)
    -- the addresses, given and taken away
    ∧ (∀ a ∈ [(0, 126), (126, 0), (126, 1)],
      (let o := { LineParams.reset with conveyorNode := a.1 };
        Writes { o with conveyorNode := a.2 } (lined 0 .stopped .stop 0 o))
      ∧ (let o := { LineParams.reset with warnNode := a.1 }; Writes { o with warnNode := a.2 } (lined 0 .stopped .stop 0 o)))
    ∧ (let s := atBerth (door .closing) (lined 0 .stopped .stop 0 LineParams.reset);
      ∀ i, (2 : Byte).getLsbD i = true ↔ ∃ j, s.isBerth j = true ∧ j = i + 1 ∧ (s.door j).state = .closing) := by
  refine ⟨writes_of (by decide +kernel), ?_, writes_of (by decide +kernel), ?_, ?_, writes_of (by decide +kernel), by decide,
    ?_, fun i => ⟨fun h => ⟨i + 1, ?_⟩, ?_⟩⟩
  · simp only [List.forall_mem_cons, List.not_mem_nil, false_implies, implies_true, and_true]
    exact ⟨⟨writes_of (by decide +kernel), writes_of (by decide +kernel)⟩, ⟨writes_of (by decide +kernel),
      writes_of (by decide +kernel)⟩, ⟨writes_of (by decide +kernel), writes_of (by decide +kernel)⟩,
      writes_of (by decide +kernel), writes_of (by decide +kernel)⟩
  · simp only [List.forall_mem_cons, List.not_mem_nil, false_implies, implies_true, and_true]
    exact ⟨⟨⟨writes_of (by decide +kernel), rfl, rfl⟩, writes_of (by decide +kernel), rfl, rfl⟩,
      ⟨writes_of (by decide +kernel), rfl, rfl⟩, writes_of (by decide +kernel), rfl, rfl⟩
  · simp only [List.forall_mem_cons, List.not_mem_nil, false_implies, implies_true, and_true]
    refine ⟨⟨⟨?_, ?_, ?_⟩, by decide⟩, ⟨⟨?_, ?_, ?_⟩, by decide⟩, ⟨⟨?_, ?_, ?_⟩, by decide⟩, ⟨?_, ?_, ?_⟩, by decide⟩ <;>
      exact writes_of (by decide +kernel)
  · simp only [List.forall_mem_cons, List.not_mem_nil, false_implies, implies_true, and_true]
    exact ⟨⟨writes_of (by decide +kernel), writes_of (by decide +kernel)⟩, ⟨writes_of (by decide +kernel),
      writes_of (by decide +kernel)⟩, writes_of (by decide +kernel), writes_of (by decide +kernel)⟩
  · obtain rfl : i = 1 := by
      rcases Nat.lt_or_ge i 8 with g | g
      · interval_cases i <;> simp_all
      · simp [BitVec.getLsbD_of_ge _ _ g] at h
    decide +kernel
  · rintro ⟨j, h1, rfl, h3⟩
    have : i + 1 ≤ 2 := (of_decide_eq_true h1).2
    obtain rfl | rfl : i = 0 ∨ i = 1 := by omega
    · exact absurd h3 (by decide +kernel)
    · rfl

/-- A request of this source stands alone in the request queue of a part in this load state. -/
def asked (source : Byte) (load : LoadState) (p : List Byte) : State :=
  { ready with
    cl := { ready.cl with load := load }
    lr := { ready.lr with requests := [{ source := source, tag := 7, payload := p }] } }
/-- An unknown code at both ends of the known ones; a length one too great; the subfunction byte missing, at a value that
names none, and at a row's own value. -/
theorem witness_RequestsAreChecked (h : Obligations.RequestsAreChecked) :
    let replies := fun (c : Instr) (source : Byte) (l : LoadState) (p answer : List Byte) (t : State → State) =>
      exec c (asked source l p) =
        .next (replied { source := source, tag := 7, payload := p } answer (t (taken [] (asked source l p))));
    (∀ p ∈ [([0] : List Byte), [0x13]], replies .unknownRequest 2 .ready p [p.headD 0, 2, 1] id
      ∧ replies .unknownRequest 1 .loading p [p.headD 0, 2, 2] id)
    ∧ replies .status 1 .ready [1, 0] [1, 2, 3] keyless ∧ replies .lineRun 1 .ready [4] [4, 2, 3] keyless
    ∧ replies .lineRun 1 .ready [4, 3] [4, 2, 3] keyless ∧ replies .lineRun 1 .ready [4, 0, 0] [4, 2, 3] keyless
    ∧ replies .restart 2 .loading [0x12] [0x12, 2, 1] id := by
  have row := fun (source : Byte) (l : LoadState) (p : List Byte) (hp : p ≠ []) =>
    h { source := source, tag := 7, payload := p } [] (asked source l p) rfl rfl (Nat.succ_pos 7) rfl hp
  have run := fun (p : List Byte) (hp : p ≠ []) => (row 1 .ready p hp).2 .lineRun 4 (some (1, 0, 2))
    (p.length = 2 ∧ u8 p 1 = 0) (by repeat first | exact List.Mem.head _ | refine List.Mem.tail _ ?_)
  refine ⟨fun p hp => ?_, ?_, (run [4] (by simp) rfl ?_).2 rfl rfl (by decide),
    (run [4, 3] (by simp) rfl ?_).2 rfl rfl (by decide), (run [4, 0, 0] (by simp) rfl ?_).2 rfl rfl (by decide),
    ((row 2 .loading [0x12] (by simp)).2 .restart 0x12 none _
      (by repeat first | exact List.Mem.head _ | refine List.Mem.tail _ ?_) rfl (by simp)).1.1 (by decide)⟩
  · simp only [List.mem_cons, List.not_mem_nil, or_false] at hp
    rcases hp with rfl | rfl
    · exact ⟨((row 2 .ready [0] (by simp)).1 (.inl rfl)).1 (by decide), ((row 1 .loading [0] (by simp)).1 (.inl rfl)).2 rfl rfl⟩
    · exact ⟨((row 2 .ready [0x13] (by simp)).1 (.inr (by decide))).1 (by decide),
        ((row 1 .loading [0x13] (by simp)).1 (.inr (by decide))).2 rfl rfl⟩
  · exact ((row 1 .ready [1, 0] (by simp)).2 .status 1 none _ (List.Mem.head _) rfl (by simp)).2 rfl rfl (by decide)
  all_goals intro off val last e; cases e; decide

theorem witness_FaultsAreClearedByTheDesk :
    (let s := { ready with ls := { ready.ls with
        faults := [fault 65535 .startTimeout .stop true false, fault 0 .doorFault .stop true true] } };
      Asked (request [8, 255, 255]) [] [8, 255, 255] (asks [8, 255, 255] s) ∧ Settled (asks [8, 255, 255] s)
      ∧ ([8, 255, 255] : List Byte) = [0x08] ++ enc2 65535
      ∧ s.ls.faults = [] ++ fault 65535 .startTimeout .stop true false :: [fault 0 .doorFault .stop true true]
      ∧ (fault 65535 .startTimeout .stop true false).order.toNat = 65535
      ∧ (∀ e ∈ s.ls.faults, e.order.toNat ≠ 7) ∧ (fault 0 .doorFault .stop true true).present = true)
    ∧ (let s := fun l => keyed .b { ready with
        ra := { ready.ra with speedValid := true }
        ls := { ready.ls with line := l, faults := [fault 0 .powerOn .trip true false] } };
      (∀ l, Asked (request [0x0E]) [] [0x0E] (asks [0x0E] (s l)) ∧ (s l).dr.key = .b ∧ (s l).ls.line = l
        ∧ Settled (asks [0x0E] (s l)))
      ∧ (s .tripped).atRest = true ∧ (∀ e ∈ (s .tripped).ls.faults, e.cls = .trip → e.present = false)
      ∧ (∃ e ∈ (s .tripped).ls.faults, e.latched = true ∧ e.cls = .trip ∧ e.present = false)
      ∧ ready.atRest = false ∧ (fault 0 .overspeed .trip true true).present = true) :=
  ⟨⟨asks_asked (by decide), settled_of (by decide), by decide, rfl, by decide, by decide, rfl⟩,
    fun _ => ⟨asks_asked ⟨rfl, Nat.succ_pos 7, rfl, rfl, rfl⟩, rfl, rfl, settled_of ⟨rfl, rfl, rfl, Nat.succ_pos 15⟩⟩,
    by decide, by decide, ⟨_, List.mem_singleton.mpr rfl, by decide⟩, by decide, rfl⟩

/-- Channel 46 has taken the place of channel 47, and the key sequence is made. -/
def substituted (l : LineState) : State :=
  let a := { active .tension with state := .failed, standby := some 46 }
  let s := keyed .b (lineAt l .stop .stop ready)
  let t := setChan 46 { s.chan 46 with entry := { active .tension with slot := 1 } } (withChan a s)
  { t with cm := { t.cm with subst := [{ primary := 47, standby := 46, order := 0 }] } }
theorem witness_BypassAndReinstateJudged :
    (∀ l p, Asked (request p) [] p (asks p (substituted l))) ∧ (∀ l, (substituted l).dr.key = .b
        ∧ (substituted l).ls.line = l)
      ∧ (let s := asks [0x10, 47] (substituted .stopped);
        (DemandKept s ∧ Settled s) ∧ s.cm.subst = [] ++ { primary := 47, standby := 46, order := 0 } :: []
        ∧ s.ra.encoder = s.encoderNow ∧ s.cm.windBand = s.bandNow ∧ s.dr.capture = none
        ∧ (s.chan 47).entry.state ≠ .unused ∧ (s.chan 47).entry.kind ≠ .encoder ∧ (s.chan 47).entry.kind ≠ .wind
        ∧ (s.chan 47).entry.cls ≠ .trip ∧ (s.chan 46).entry.kind = (s.chan 47).entry.kind
        ∧ (s.chan 47).rt.staleRaised = false ∧ (s.chan 47).bypass = none ∧ ((bypassed 120 s).chan 47).bypass.isSome = true
        ∧ (∀ x ∈ s.ls.faults, x.source ≠ .channel 47 ∧ x.source ≠ .channel 46)
        ∧ (s.chan 0).entry.state = .unused ∧ (∀ e ∈ s.cm.subst, e.primary ≠ 0)) :=
  ⟨fun _ _ => asks_asked ⟨rfl, Nat.succ_pos 7, rfl, rfl, rfl⟩, fun _ => ⟨rfl, rfl⟩,
    ⟨kept_of (by decide +kernel), settled_of (by decide +kernel)⟩, by decide +kernel⟩

theorem witness_FlagsFollowTheirMarks :
    ready.flag .windBand = false ∧ (setFlag .windBand ready).flag .windBand = true
      ∧ ∀ clear enable : BitVec 24, let p := [0x09] ++ enc3 clear.toNat ++ enc3 enable.toNat;
        Asked (request p) [] p (asks p ready) := ⟨by decide, by decide, fun _ _ => ready_asked _⟩

/-- A capture with `n` samples buffered and `m` to come, in blocks of 8. -/
def capturing (n m : Nat) : Capture :=
  { channel := 47, remaining := m, block := 8, nextBlock := 127, gap := false, subst := false, written := false
    buffer := List.replicate n { reading := 1, stamp := 2, gap := false, subst := false } }
theorem witness_CaptureStarts :
    (∀ p, Asked (request p) [] p (asks p (judged .stopped)))
      ∧ (let s := judged .stopped;
        (47 < 48 ∨ 1024 < 1025) ∧ ¬ (47 < 47 ∨ (s.chan 47).entry.state = .unused ∨ 1024 = 0 ∨ 1024 < 1024 ∨ 8 = 0 ∨ 8 < 8)
        ∧ s.dr.capture = none
        ∧ { s.dr with capture := some (capturing 0 1) }.capture.isSome = true) :=
  ⟨judged_asked .stopped, by decide +kernel⟩

/-- Reports are owed or not, with `r` REPORT frames and `n` notes queued. -/
def reporting (owed : BitVec 24) (q : Option Capture) (n r : Nat) : State :=
  { ready with
    dr := { ready.dr with owed := owed, capture := q }
    sl := { ready.sl with rxQueue := List.replicate n [1] }
    lr := { ready.lr with report := List.replicate r (qframe .report) } }
theorem witness_ReportsSentInOrder :
    (∀ owed q n r, let s := reporting owed q n r;
      s.resetHeld = false ∧ s.dr.restartWait = false ∧ s.dr.placeNotice = false ∧ s.dr.owed = owed ∧ s.dr.capture = q)
      ∧ (7 ≤ (reporting 1 none 0 7).lr.report.length ∧ (reporting 1 none 0 6).lr.report.length < 7) ∧ (1 : BitVec 24) ≠ 0
      ∧ ((capturing 9 1).block < (capturing 9 1).buffer.length)
      ∧ ((capturing 8 0).buffer ≠ [] ∧ (capturing 8 0).buffer.length ≤ (capturing 8 0).block
        ∧ (capturing 8 0).remaining = 0 ∧ (capturing 8 0).written = false)
      -- the block full with samples to come, an end WRITTEN with no samples, and no block ready
      ∧ ((capturing 8 1).block = (capturing 8 1).buffer.length ∧ (capturing 8 1).remaining ≠ 0
        ∧ (capturing 8 1).written = false)
      ∧ ({ capturing 0 1 with written := true }.buffer.length ≤ 8 ∧ { capturing 0 1 with written := true }.written = true)
      ∧ ((capturing 7 1).buffer.length < (capturing 7 1).block ∧ (capturing 7 1).remaining ≠ 0)
      ∧ (reporting 0 none 3 6).sl.rxQueue = [1] :: [[1], [1]] := ⟨fun _ _ _ _ => ⟨rfl, rfl, rfl, rfl, rfl⟩, by decide⟩

/-- A part that passes every check of COMMISSION. -/
def sound (l : LineState) : State :=
  let s := keyed .b (lineAt l .stop .stop ready)
  let put := fun (i : Nat) (e : ChanEntry) (s : State) => setChan i { s.chan i with entry := { e with slot := i } } s
  let mark := fun b => { active .trackMark with boundary := b }
  put 6 (mark 4) (put 5 (mark 3) (put 4 (mark 2) (put 3 (mark 1)
    (put 2 (active .gripForce) (put 1 (active .cabinId) (put 0 (active .encoder)
      { s with ls := { s.ls with params := { s.ls.params with minSpacing := 999 } } }))))))
theorem witness_NotesCommissioningAndRestart :
    (let note : List Byte := List.replicate 12 1;
      let s := fun n => { ready with sl := { ready.sl with txQueue := List.replicate n (Tests.note 0 false 0) } };
      note.length ≤ 12 ∧ Asked (request (0x0B :: note)) [] (0x0B :: note) (asks (0x0B :: note) (s 14))
      ∧ Asked (request (0x0B :: note)) [] (0x0B :: note) (asks (0x0B :: note) (s 15))
      ∧ (s 14).sl.txQueue.length < 15 ∧ (s 15).sl.txQueue.length < 16 ∧ 16 ≤ (s 16).sl.txQueue.length
      ∧ Asked (request (0x0B :: note)) [] (0x0B :: note) (asks (0x0B :: note) (s 16)))
    ∧ (∀ l p, Asked (request p) [] p (asks p (sound l)) ∧ (sound l).dr.key = .b ∧ (sound l).ls.line = l)
    ∧ (∀ i, 1 ≤ i → i ≤ 8 → Commissionable (sound .stopped) i) ∧ ¬ Commissionable ready 1
    ∧ (let t := setChan 6 Channel.reset (sound .tripped);
      ¬ Commissionable t 4 ∧ ∀ n, 1 ≤ n → n < 4 → Commissionable t n)
    ∧ (0x12 < (0x13 : Byte).toNat ∧ Asked (request [0x13]) [] [0x13] (asks [0x13] ready)) := by
  refine ⟨⟨by decide, asks_asked (by decide), asks_asked (by decide), by decide, by decide, by decide, asks_asked (by decide)⟩,
    fun _ _ => ⟨asks_asked ⟨rfl, Nat.succ_pos 7, rfl, rfl, rfl⟩, rfl, rfl⟩, fun i h1 h8 => ?_, ?_, ⟨?_, fun n h1 h4 => ?_⟩,
    by decide, ready_asked _⟩
  · rw [← commissionChecks_iff _ i h1 h8]
    interval_cases i <;> decide +kernel
  · rw [← commissionChecks_iff _ 1 (by decide) (by decide)]; decide +kernel
  · rw [← commissionChecks_iff _ 4 (by decide) (by decide)]; decide +kernel
  · rw [← commissionChecks_iff _ n h1 (by omega)]
    interval_cases n <;> decide +kernel

theorem witness_CabinRequestsMoveTheFleet :
    (∀ p s, s.resetHeld = false ∧ s.lr.report.length < 8 ∧ s.dr.restartWait = false ∧ s.params.deskNode = 1
        ∧ s.cl.load = .ready → Asked (request p) [] p (asks p s))
      ∧ Settled (asks [7, 0, 3, 231] ready) ∧ ready.registered 999 = false
      ∧ (let s := withCabin 999 .unplaced ready;
        s.registered 999 = true ∧ s.ls.line = .stopped ∧ s.location 999 = some .unplaced ∧ s.ct.queue.length < 24
        ∧ (∀ c ∈ s.ct.queue, c.id ≠ 999) ∧ ∀ c ∈ s.ct.queue, c.identity ≠ .anonymous)
      ∧ (let s := { withCabin 999 .terminal ready with ct := { (withCabin 999 .terminal ready).ct with
          queue := [record 999 .registered 0] } };
        s.registered 999 = true ∧ s.ct.queue = [] ++ record 999 .registered 0 :: [] ∧ s.isBerth 0 = false
        ∧ (record 999 .registered 0).identity = .registered ∧ (record 999 .registered 0).grip ≠ .fail)
      ∧ (let s := { withCabin 999 .downhill ready with ct := { (withCabin 999 .downhill ready).ct with
          queue := [record 0 .anonymous 3], downhill := [{ id := 999, pos := 0, overdue := false }] } };
        s.location 999 = some .downhill ∧ s.ct.queue = [] ++ record 0 .anonymous 3 :: []
        ∧ (record 0 .anonymous 3).identity = .anonymous ∧ (record 0 .anonymous 3).grip ≠ .fail)
      ∧ (judged .running).ls.line = .running :=
  ⟨fun _ _ h => asks_asked h, settled_of (by decide), by decide +kernel⟩

theorem witness_CabinPlacedAndRetested :
    (let s := withCabin 999 .unplaced ready;
      (∀ p, Asked (request p) [] p (asks p s)) ∧ Settled (asks [7, 4] s) ∧ s.registered 999 = true ∧ s.ls.line = .stopped
      ∧ s.location 999 = some .unplaced ∧ s.ra.p < s.params.loopLen ∧ 999 < s.params.loopLen ∧ s.params.loopLen ≤ 1000
      ∧ s.ct.uphill.length < 64 ∧ s.ct.downhill.length < 64)
    ∧ (let c := { record 999 .registered 3 with grip := .fail, force := some 5 };
      let s := { withCabin 999 .terminal ready with ct := { (withCabin 999 .terminal ready).ct with queue := [c] } };
      s.ct.queue = [] ++ c :: [] ∧ c.zone = s.launchZone ∧ c.grip = .fail ∧ (record 999 .registered 0).zone ≠ s.launchZone
      ∧ ∀ c ∈ s.ct.queue, c.id ≠ 7) :=
  ⟨⟨fun _ => asks_asked ⟨rfl, Nat.succ_pos 7, rfl, rfl, rfl⟩, settled_of (by decide +kernel), by decide +kernel⟩,
    by decide +kernel⟩
end Sys2Proof.Tests
end

section
/-! The count step and the raw speed of a travel (R5, R8), and the speed tests (R12). The one idea of R5: the signed
count step is the 16-bit difference of the two counts read as a signed number, so its range and its sign are those of a
signed 16-bit word. -/

namespace Sys2Proof.Machine

/-! ## The signed count step (R5) -/

/-- The shorter way round the wrap is the two's complement reading of the 16-bit difference. -/
theorem countStep_eq_toInt_sub (n last : Word16) : countStep n last = (n - last).toInt := by
  have hsub : ((n - last).toNat : Int) = ((n.toNat : Int) - last.toNat) % 65536 := by
    rw [BitVec.toNat_sub]
    omega
  rw [countStep, BitVec.toInt_eq_toNat_cond]
  split <;> omega

theorem countStep_range (n last : Word16) : -32768 ≤ countStep n last ∧ countStep n last ≤ 32767 := by
  rw [countStep_eq_toInt_sub]
  exact ⟨BitVec.le_toInt _, Int.le_of_lt_add_one BitVec.toInt_lt⟩

theorem countStep_add {k : Nat} (last : Word16) (hk : k ≤ 32767) :
    countStep (last + BitVec.ofNat 16 k) last = k := by
  rw [countStep_eq_toInt_sub, add_sub_cancel_left, BitVec.toInt_ofNat']
  exact Int.bmod_eq_of_le (by omega) (by omega)

theorem countStep_sub {k : Nat} (last : Word16) (hk : k ≤ 32768) :
    countStep (last - BitVec.ofNat 16 k) last = -k := by
  rw [countStep_eq_toInt_sub, sub_sub_cancel_left, BitVec.toInt_neg, BitVec.toInt_ofNat', Int.bmod_neg_bmod]
  exact Int.bmod_eq_of_le (by omega) (by omega)

/-! ## The raw speed (R8) -/

theorem clampSpeed_of_natAbs_lt {x : Int} (h : x.natAbs < 32768) : clampSpeed x = x := by
  rw [clampSpeed, min_eq_right (by omega), max_eq_right (by omega)]

/-- Short of the clamp, the raw speed is the truncated quotient itself. -/
theorem rawSpeed_of_lt {u : Int} {dt : Nat} (h : (u * 10).natAbs < 32768 * dt) :
    rawSpeed u dt = Int.tdiv (u * 10) dt := by
  have hquot : (Int.tdiv (u * 10) dt).natAbs < 32768 := by
    rw [Int.natAbs_tdiv, Int.natAbs_natCast]
    exact Nat.div_lt_of_lt_mul (by rwa [Nat.mul_comm])
  exact clampSpeed_of_natAbs_lt hquot

/-- Truncation toward zero treats the two directions of travel alike. -/
theorem rawSpeed_neg {u : Int} {dt : Nat} (h : (u * 10).natAbs < 32768 * dt) :
    rawSpeed (-u) dt = -rawSpeed u dt := by
  have hneg : (-u * 10).natAbs < 32768 * dt := by rwa [Int.neg_mul, Int.natAbs_neg]
  rw [rawSpeed_of_lt h, rawSpeed_of_lt hneg, Int.neg_mul, Int.neg_tdiv]

/-! ## The speed tests (R12) -/

theorem atRest_iff (s : State) :
    s.atRest = true ↔ s.ra.speedValid = true ∧ |s.ra.vf| ≤ s.params.zeroBand := by
  rw [State.atRest, Bool.and_eq_true, decide_eq_true_iff, Int.abs_eq_natAbs, Int.ofNat_le]

theorem forward_iff (s : State) : s.forward = true ↔ s.ra.speedValid = true ∧ 0 < s.ra.vf := by
  rw [State.forward, Bool.and_eq_true, decide_eq_true_iff]

theorem startExit_iff (s : State) :
    s.startExit = true ↔ s.ra.speedValid = true ∧ s.params.startExit ≤ s.ra.vf := by
  rw [State.startExit, Bool.and_eq_true, decide_eq_true_iff]

/-- Settles O19: the count step as a signed 16-bit difference, the raw speed below its clamp, and the three tests. -/
theorem countStepRawSpeedAndSpeedTests : Obligations.CountStepRawSpeedAndSpeedTests := by
  refine ⟨fun n last => ?_, fun u dt _ => ⟨rfl, rawSpeed_neg⟩, by decide,
    fun s => ⟨atRest_iff s, forward_iff s, startExit_iff s⟩⟩
  obtain ⟨hlow, hhigh⟩ := countStep_range n last
  refine ⟨rfl, hlow, hhigh, fun k hk hn => ?_, fun k hk hn => ?_⟩
  · rw [hn, countStep_add last hk]
  · rw [hn, countStep_sub last hk]

end Sys2Proof.Machine
end

section
/-! What a desk request that DR takes is answered, said once for every row (R181, R182, R187), and then the FLAGS and
CAPTURE requests (R191, R193), whose fields are read back from their bytes (R208, R209). -/

namespace Sys2Proof.Machine

open Sys2Proof.Safety

/-! ## A desk request that DR takes (R181, R182, R187) -/

section
variable {r : Request} {rest : List Request} {code : Byte} {operands : List Byte} {s : State}
  {mine fits : List Byte → Bool}

theorem setKey_none (s : State) : setKey .none s = keyless s := rfl

theorem takesRequest_of_asked {p : List Byte} (h : Asked r rest p s) : s.takesRequest = true := by
  simp [State.takesRequest, h.free, Config.doorCap, h.room]

theorem reply_eq_replied (hp : r.payload = code :: operands) (a : Answer) (s : State) :
    reply r a false s = replied r (code :: a.bytes) s := by
  simp [reply, hp, joinReport, replied, replyFrame]

/-- R182: of the four checks only the fourth, the row's own, is left to an asked request. -/
theorem takeRequest_of_asked {p : List Byte} {judge : Judge} (h : Asked r rest p s) (hmine : mine p = true) :
    takeRequest mine fits judge s =
      if fits p then reply r (judge p (taken rest s)).1 (judge p (taken rest s)).2.1 (judge p (taken rest s)).2.2
      else reply r (.refused .range []) false (keyless (taken rest s)) := by
  have htakes := takesRequest_of_asked h
  obtain ⟨-, hhead, rfl, -, -, hdesk, hready⟩ := h
  have htaken : ¬ (!s.takesRequest || !mine r.payload) = true := by simp [htakes, hmine]
  unfold takeRequest
  simp only [hhead]
  rw [if_neg htaken, if_neg (not_not.mpr hdesk), if_neg (by simp [hready])]
  cases fits r.payload <;> rfl

/-- R182, R187: a request that its row answers without a key is judged with the key sequence broken. -/
theorem event_plain_of_fits {judge : List Byte → State → Answer × State} {a : Answer} {t : State}
    (h : Asked r rest (code :: operands) s) (hmine : mine (code :: operands) = true)
    (hfits : fits (code :: operands) = true)
    (hjudge : judge (code :: operands) (keyless (taken rest s)) = (a, t)) :
    event (takeRequest mine fits (plain judge)) s = .next (replied r (code :: a.bytes) t) := by
  have hplain : plain judge (code :: operands) (taken rest s) = (a, false, t) := by
    rw [plain, setKey_none, hjudge]
  rw [event, h.pin, takeRequest_of_asked h hmine, if_pos hfits, hplain]
  exact congrArg _ (reply_eq_replied h.payload a t)

/-- R182, R187: a request that does not suit its row is RANGE, and breaks the key sequence too. -/
theorem event_takeRequest_of_not_fits {judge : Judge} (h : Asked r rest (code :: operands) s)
    (hmine : mine (code :: operands) = true) (hfits : ¬ fits (code :: operands) = true) :
    event (takeRequest mine fits judge) s = .next (replied r [code, 2, 3] (keyless (taken rest s))) := by
  rw [event, h.pin, takeRequest_of_asked h hmine, if_neg hfits]
  exact congrArg _ (reply_eq_replied h.payload _ _)

end

/-! ## Event flags (R191) -/

theorem setFlag_of_set {f : Flag} {s : State} (h : s.flag f = true) : setFlag f s = s := if_pos h

theorem setFlag_of_clear {f : Flag} {s : State} (h : s.flag f = false) :
    setFlag f s = { s with dr := { s.dr with
      flags := s.dr.flags ||| f.mask, owed := s.dr.owed ||| (s.dr.enable &&& f.mask) } } :=
  if_neg (by rw [h]; decide)

theorem Flag.getLsbD_mask (f : Flag) (i : Nat) : f.mask.getLsbD i = (i == f.bit) := by
  rw [Flag.mask, BitVec.getLsbD_twoPow, decide_eq_true f.bit_lt, Bool.true_and, BEq.comm, beq_eq_decide]

/-- R208: the flag set of three bytes is read back. -/
theorem ofNat_enc3_bytes (x : BitVec 24) :
    BitVec.ofNat 24 ((x.toNat / 65536 % 256 * 256 + x.toNat / 256 % 256) * 256 + x.toNat % 256) = x := by
  have hx : x.toNat < 16777216 := x.isLt
  exact BitVec.eq_of_toNat_eq (by rw [BitVec.toNat_ofNat]; omega)

theorem judgeFlags_enc3 (clear enable : BitVec 24) (s : State) :
    judgeFlags ([0x09] ++ enc3 clear.toNat ++ enc3 enable.toNat) s = (.done [], applyFlags clear enable s) := by
  simp [judgeFlags, u24, u16, u8, enc3, ofNat_enc3_bytes]

theorem exec_flags {r : Request} {rest : List Request} {clear enable : BitVec 24} {s : State}
    (h : Asked r rest ([0x09] ++ enc3 clear.toNat ++ enc3 enable.toNat) s) :
    exec .flags s = .next (replied r [0x09, 0, 0] (applyFlags clear enable (keyless (taken rest s)))) :=
  event_plain_of_fits h rfl rfl (judgeFlags_enc3 clear enable _)

/-- Settles O55: a flag's setting and the FLAGS request read bit by bit, and the marks at reset. -/
theorem flagsFollowTheirMarks : Obligations.FlagsFollowTheirMarks := by
  refine ⟨fun f s => ⟨setFlag_of_set, fun hclear => ?setting⟩, fun clear enable r rest s h => ?request, fun i hi => ?reset⟩
  case setting =>
    refine ⟨_, _, setFlag_of_clear hclear, fun i => ?_, fun i => ?_⟩
    · rw [BitVec.getLsbD_or, f.getLsbD_mask]
    · rw [BitVec.getLsbD_or, BitVec.getLsbD_and, f.getLsbD_mask, Bool.and_comm (i == f.bit)]
  case request =>
    refine ⟨_, _, exec_flags h, fun i hi => ?_, fun i hi => ?_⟩
    · simp [hi, keyless, taken]
    · simp [hi, keyless, taken]
  case reset =>
    have henable : State.reset.dr.enable.getLsbD i = true := by
      rw [show State.reset.dr.enable = BitVec.allOnes 24 from rfl, BitVec.getLsbD_allOnes, decide_eq_true hi]
    exact ⟨BitVec.getLsbD_zero, henable, BitVec.getLsbD_zero⟩

/-! ## Captures (R193) -/

/-- R209: the fields of a CAPTURE request are read back. -/
theorem capture_fields {c n b : Nat} (hc : c < 256) (hn : n < 65536) (hb : b < 256) :
    u8 ([0x0A] ++ enc1 c ++ enc2 n ++ enc1 b) 1 = c ∧ u16 ([0x0A] ++ enc1 c ++ enc2 n ++ enc1 b) 2 = n
      ∧ u8 ([0x0A] ++ enc1 c ++ enc2 n ++ enc1 b) 4 = b := by
  simp [u8, u16, enc1, enc2]
  omega

theorem fitsCapture_iff {p : List Byte} (h : p.length = 5) :
    fitsCapture p = true ↔ u8 p 1 ≤ 47 ∧ 1 ≤ u16 p 2 ∧ u16 p 2 ≤ 1024 ∧ 1 ≤ u8 p 4 ∧ u8 p 4 ≤ 8 := by
  simp [fitsCapture, h]

section
variable {p : List Byte} {s : State} {c n b : Nat}

theorem judgeCapture_of_unused (hc : u8 p 1 = c) (hunused : (s.chan c).entry.state = .unused) :
    judgeCapture p s = (.refused .range [], s) := by
  subst hc
  exact if_pos hunused

theorem judgeCapture_of_running (hc : u8 p 1 = c) (hused : (s.chan c).entry.state ≠ .unused)
    (hrun : s.dr.capture.isSome = true) : judgeCapture p s = (.refused .busy [], s) := by
  subst hc
  exact (if_neg hused).trans (if_pos hrun)

theorem judgeCapture_of_idle (hc : u8 p 1 = c) (hn : u16 p 2 = n) (hb : u8 p 4 = b)
    (hused : (s.chan c).entry.state ≠ .unused) (hidle : s.dr.capture = none) :
    judgeCapture p s = (.done [], { s with dr := { s.dr with
      capture := some { channel := c, remaining := n, block := b, nextBlock := 0, gap := false, subst := false
                        written := false, buffer := [] } } }) := by
  subst hc hn hb
  exact (if_neg hused).trans (if_neg (by simp [hidle]))

end

/-- Settles O56: a field outside its range fails the row's check, and what passes it is one of CAPTURE's three cases. -/
theorem captureStarts : Obligations.CaptureStarts := by
  intro c n b r rest s hc hn hb h k bad
  obtain ⟨hchan, hcount, hblock⟩ := capture_fields hc hn hb
  have hfits := fitsCapture_iff (p := [0x0A] ++ enc1 c ++ enc2 n ++ enc1 b) rfl
  rw [hchan, hcount, hblock] at hfits
  have hgoodIff : ¬ bad ↔ fitsCapture ([0x0A] ++ enc1 c ++ enc2 n ++ enc1 b) = true
      ∧ (s.chan c).entry.state ≠ .unused := by
    by_cases hunused : (s.chan c).entry.state = .unused
    · simp [bad, hunused]
    · simp only [bad, hfits, hunused, false_or, not_false_eq_true, ne_eq, and_true]
      omega
  refine ⟨fun hbad => ?_, fun hgood hrun => ?_, fun hgood hidle => ?_⟩
  · by_cases hfit : fitsCapture ([0x0A] ++ enc1 c ++ enc2 n ++ enc1 b) = true
    · have hunused : (s.chan c).entry.state = .unused := by
        by_contra hused
        exact hgoodIff.mpr ⟨hfit, hused⟩ hbad
      exact event_plain_of_fits h rfl hfit (judgeCapture_of_unused hchan hunused)
    · exact event_takeRequest_of_not_fits h rfl hfit
  · obtain ⟨hfit, hused⟩ := hgoodIff.mp hgood
    exact event_plain_of_fits h rfl hfit (judgeCapture_of_running hchan hused hrun)
  · obtain ⟨hfit, hused⟩ := hgoodIff.mp hgood
    exact event_plain_of_fits h rfl hfit (judgeCapture_of_idle hchan hcount hblock hused hidle)

end Sys2Proof.Machine
end

section
/-! What each kind of move leaves alone, for the invariants that every step keeps: a line move changes no more than LS's
own operations do, and a cabin move changes CT alone, but for the launch's mark Q. -/

namespace Sys2Proof.Machine

open Sys2Proof.Safety

/-! ## Line moves -/

theorem setDesk_lineOnly (d : Demand) (s : State) : LineOnly s (setDesk d s) := .of_ls rfl rfl

theorem clearEntry_lineOnly (n : Nat) (s : State) : LineOnly s (clearEntry n s) := by
  have hdrop : LineOnly s { s with ls := { s.ls with faults := s.ls.faults.eraseP (namedBy n) } } := .of_ls rfl rfl
  exact (hdrop.trans (setFlag_lineOnly _ _)).trans (reform_lineOnly _)

theorem clearTrips_lineOnly (s : State) : LineOnly s (clearTrips s) := by
  unfold clearTrips
  extract_lets _ s1 s2
  have h1 : LineOnly s s1 := .of_ls rfl rfl
  have h2 : LineOnly s s2 := by
    unfold s2
    split
    · exact h1.trans (setFlag_lineOnly _ _)
    · exact h1
  split
  · exact h2.trans (enterLine_lineOnly _ _)
  · exact h2.trans (reform_lineOnly _)

/-! ## Cabin moves -/

theorem launchMove_frame (c : Cabin) (s : State) :
    launchMove c s = { s with ra := { s.ra with q := s.ra.p, qValid := true }, ct := (launchMove c s).ct } := by
  unfold launchMove
  dsimp only
  split_ifs <;> rfl

theorem withdrawMove_frame (x : Nat) (c : Cabin) (s : State) :
    withdrawMove x c s = { s with ct := (withdrawMove x c s).ct } := by
  unfold withdrawMove
  dsimp only
  split_ifs <;> rfl

theorem placeMove_frame (x : Nat) (loc : Location) (off : Nat) (s : State) :
    placeMove x loc off s = { s with ct := (placeMove x loc off s).ct } := by
  cases loc <;> rfl

theorem launchMove_ls (c : Cabin) (s : State) : (launchMove c s).ls = s.ls := by rw [launchMove_frame]

theorem launchMove_cm (c : Cabin) (s : State) : (launchMove c s).cm = s.cm := by rw [launchMove_frame]

theorem launchMove_ra (c : Cabin) (s : State) : (launchMove c s).ra = { s.ra with q := s.ra.p, qValid := true } := by
  rw [launchMove_frame]

theorem withdrawMove_ls (x : Nat) (c : Cabin) (s : State) : (withdrawMove x c s).ls = s.ls := by
  rw [withdrawMove_frame]

theorem withdrawMove_cm (x : Nat) (c : Cabin) (s : State) : (withdrawMove x c s).cm = s.cm := by
  rw [withdrawMove_frame]

theorem withdrawMove_ra (x : Nat) (c : Cabin) (s : State) : (withdrawMove x c s).ra = s.ra := by
  rw [withdrawMove_frame]

theorem placeMove_ls (x : Nat) (loc : Location) (off : Nat) (s : State) : (placeMove x loc off s).ls = s.ls := by
  rw [placeMove_frame]

theorem placeMove_cm (x : Nat) (loc : Location) (off : Nat) (s : State) : (placeMove x loc off s).cm = s.cm := by
  rw [placeMove_frame]

theorem placeMove_ra (x : Nat) (loc : Location) (off : Nat) (s : State) : (placeMove x loc off s).ra = s.ra := by
  rw [placeMove_frame]

end Sys2Proof.Machine
end

section
/-! The rope's quantities stay in their ranges (R11, R17, R66): RA's travel writes a position reduced mod L, a remainder of
a division by 1000 and a clamped speed; a new loop length reduces the position; every other move leaves them alone. -/

namespace Sys2Proof.Safety

open Sys2Proof.Machine

theorem clampSpeed_range (x : Int) : -32768 ≤ clampSpeed x ∧ clampSpeed x ≤ 32767 := by
  unfold clampSpeed
  omega

theorem filterSpeed_range {k : Nat} {v vf : Int} (hv : -32768 ≤ v ∧ v ≤ 32767) :
    -32768 ≤ filterSpeed k v vf ∧ filterSpeed k v vf ≤ 32767 := by
  unfold filterSpeed
  split
  · exact hv
  · exact clampSpeed_range _

/-- R7: the remainder of a travel, in micrometres short of a millimetre. -/
theorem travel_remainder_le (e : ChanEntry) (len : Nat) (dn : Int) (dt : Nat) (ra : Rope) :
    (travel e len dn dt ra).r ≤ 999 := by
  have hr : (travel e len dn dt ra).r = (((ra.r : Int) + dn * (e.scale : Int)) % 1000).toNat := by
    simp only [travel]
    rw [Int.emod_def, Int.fdiv_eq_ediv_of_nonneg _ (by decide)]
  omega

theorem travel_position_lt (e : ChanEntry) {len : Nat} (dn : Int) (dt : Nat) (ra : Rope) (hlen : 0 < len) :
    (travel e len dn dt ra).p < len := by
  simp only [travel]
  have hlt := Int.emod_lt_of_pos ((ra.p : Int) + Int.fdiv ((ra.r : Int) + dn * (e.scale : Int)) 1000)
    (b := (len : Int)) (by omega)
  omega

theorem travel_speed_range (e : ChanEntry) (len : Nat) (dn : Int) (dt : Nat) (ra : Rope) :
    -32768 ≤ (travel e len dn dt ra).vf ∧ (travel e len dn dt ra).vf ≤ 32767 :=
  filterSpeed_range (clampSpeed_range _)

/-- The invariant reads the loop length and RA's position, remainder and filtered speed alone. -/
theorem RopeInRange.of_eq {s t : State} (h : RopeInRange s) (hparams : t.ls.params = s.ls.params)
    (hp : t.ra.p = s.ra.p) (hr : t.ra.r = s.ra.r) (hvf : t.ra.vf = s.ra.vf) : RopeInRange t := by
  have hlen : t.params.loopLen = s.params.loopLen := by rw [State.params, hparams, State.params]
  exact ⟨hlen ▸ h.loop, hp ▸ hlen ▸ h.position, hr ▸ h.remainder, hvf ▸ h.speed⟩

theorem RopeInRange.of_lineOnly {s t : State} (h : RopeInRange s) (hline : LineOnly s t) : RopeInRange t := by
  have hra : t.ra = s.ra := hline.others .ra (by decide)
  exact h.of_eq hline.params (by rw [hra]) (by rw [hra]) (by rw [hra])

theorem RopeInRange.of_setChan {s : State} (h : RopeInRange s) (c : Nat) (ch : Channel) :
    RopeInRange (setChan c ch s) := h.of_eq rfl rfl rfl rfl

/-- R3 to R10: whatever the verdict of an encoder reading. -/
theorem RopeInRange.of_ropeStages {s : State} (h : RopeInRange s) (e : ChanEntry) (n t : Word16) :
    RopeInRange { s with ra := (ropeStages e s.params.loopLen n t s.ra).2 } := by
  have hlen : 0 < s.params.loopLen := by have := h.loop; omega
  unfold ropeStages
  extract_lets dt dn
  split_ifs
  · exact h.of_eq rfl rfl rfl rfl
  · exact h
  · exact h.of_eq rfl rfl rfl rfl
  · exact ⟨h.loop, travel_position_lt e dn dt s.ra hlen,
      travel_remainder_le e s.params.loopLen dn dt s.ra, travel_speed_range e s.params.loopLen dn dt s.ra⟩

/-- R17, R66: a new loop length reduces the position. -/
theorem RopeInRange.of_writeParams {s : State} (h : RopeInRange s) {p : LineParams} (hp : p.inRange = true) :
    RopeInRange (writeParams p s) := by
  have hlen : 1000 ≤ p.loopLen := ((lineAllowed_iff p).2 hp).loopLen.1
  unfold writeParams
  extract_lets _ s1 s2
  have h2 : RopeInRange s2 := by
    unfold s2
    split_ifs with hsame
    · exact ⟨hlen, Nat.mod_lt _ (by show 0 < p.loopLen; omega), h.remainder, h.speed⟩
    · have hkeep : s.params.loopLen = p.loopLen := not_not.1 hsame
      exact ⟨hlen, by show s.ra.p < p.loopLen; rw [← hkeep]; exact h.position, h.remainder, h.speed⟩
  split_ifs
  · exact h2.of_lineOnly (issueDrive_lineOnly _)
  · exact h2

theorem ropeInRange_blocksReset (straps : Straps) (now free : Nat) (queue : List Instr) :
    RopeInRange (State.blocksReset straps now free queue) :=
  ⟨Nat.le_refl 1000, Nat.succ_pos 999, Nat.zero_le 999, Int.negSucc_le_zero 32767, Int.le.intro 32767 rfl⟩

theorem RopeInRange.move {k : Allow} {s t : State} (m : Move k s t) (h : RopeInRange s) : RopeInRange t := by
  cases m with
  | tame ht =>
    exact h.of_eq (congrArg Watched.params ht.watch) (congrArg Watched.p ht.watch) (congrArg Watched.r ht.watch)
      (congrArg Watched.vf ht.watch)
  | raised f => exact h.of_lineOnly (raiseCore_lineOnly f s)
  | gone src code => exact h.of_lineOnly (goneCore_lineOnly src code s)
  | unbypass c => exact (h.of_setChan c _).of_lineOnly (goneCore_lineOnly _ _ _)
  | params p hp => exact h.of_writeParams hp
  | still ra hra =>
    obtain ⟨hp, hr, hvf⟩ := hra
    exact ⟨h.loop, by show ra.p < _; rw [hp]; exact h.position, by show ra.r ≤ _; rw [hr]; exact h.remainder,
      by show -32768 ≤ ra.vf ∧ ra.vf ≤ 32767; omega⟩
  | rope hk e n t => exact h.of_ropeStages e n t
  | startExit hk hl => exact h.of_lineOnly (enterLine_lineOnly _ s)
  | rest hk hl => exact h.of_lineOnly (enterLine_lineOnly _ s)
  | start hk d hl hd => exact h.of_lineOnly ((setDesk_lineOnly d s).trans (enterLine_lineOnly _ _))
  | desk hk d hd hl => exact h.of_lineOnly ((setDesk_lineOnly d s).trans (reform_lineOnly _))
  | cleared hk n e he hc => exact h.of_lineOnly (clearEntry_lineOnly n s)
  | bypassed hk c b => exact (h.of_setChan c _).of_lineOnly (raiseCore_lineOnly _ _)
  | anonymous hk hq => exact h.of_eq rfl rfl rfl rfl
  | foreign hk x hx hr hq => exact h.of_eq rfl rfl rfl rfl
  | oldest hk x e hd he hr hq => exact h.of_eq rfl rfl rfl rfl
  | outOfOrder hk x hd hr hq => exact h.of_eq rfl rfl rfl rfl
  | unknown hk x hd hr hq => exact h.of_eq rfl rfl rfl rfl
  | insert hk x hl hq => exact h.of_eq rfl rfl rfl rfl
  | zone hk z bad hr => exact h.of_eq rfl rfl rfl rfl
  | launched hk c d hd hc =>
    exact h.of_eq (by rw [launchMove_ls]) (by rw [launchMove_ra]) (by rw [launchMove_ra]) (by rw [launchMove_ra])
  | withdrawn hk x c hc =>
    exact h.of_eq (by rw [withdrawMove_ls]) (by rw [withdrawMove_ra]) (by rw [withdrawMove_ra]) (by rw [withdrawMove_ra])
  | assigned hk x c hc hx hl => exact h.of_eq rfl rfl rfl rfl
  | placed hk x loc off hl ht hf =>
    exact h.of_eq (by rw [placeMove_ls]) (by rw [placeMove_ra]) (by rw [placeMove_ra]) (by rw [placeMove_ra])
  | registers hk slot x loc hs hx hr hq hl => exact h.of_eq rfl rfl rfl rfl
  | unregisters hk slot x hs hl => exact h.of_eq rfl rfl rfl rfl
  | arrived hk x e he => exact h.of_eq rfl rfl rfl rfl
  | summit hk x hr hf => exact h.of_eq rfl rfl rfl rfl
  | reported hk f hf => exact h.of_eq rfl rfl rfl rfl
  | reportSent hk f q n hf => exact h.of_eq rfl rfl rfl rfl
  | tripReset hk hp hl => exact h.of_lineOnly (clearTrips_lineOnly s)
  | reset hk straps => exact ropeInRange_blocksReset _ _ _ _

/-- Settles O10: each move keeps the rope in range, so every step does. -/
theorem ropeInRangeByEveryStep : Obligations.RopeInRangeByEveryStep :=
  fun _ _ h hstep => step_keeps (fun _ _ m => RopeInRange.move m) hstep h

end Sys2Proof.Safety
end

section
/-! The line obeys its demand (R54 to R62). Every change of LS ends in `reform` or in `enterLine`, which form the demand and
the drive request anew; what they need of the state before is only that the desk demand suits the line state and that the
drive request record answers it (`DeskAndDrive`). The one fact about severity is that a line that stops without a TRIP
demand finds none after it has stopped: the desk demand it takes is STOP, and no entry has been added. -/

namespace Sys2Proof.Safety

open Sys2Proof.Machine

/-! ## The invariant by the functions of the model -/

/-- R55 to R60: the line state answers the effective demand. -/
structure LineAnswers (line : LineState) (d : Demand) : Prop where
  trip : d = .trip → line = .tripped
  running : line = .running → d = .run
  slowed : line = .slowed → d = .slow
  starting : line = .starting → d = .run ∨ d = .slow

/-- R54, R55, R62: the desk demand suits the line state, and the drive request record has the content that the line state
and the effective demand give it. -/
structure DeskAndDrive (s : State) : Prop where
  notTrip : s.ls.deskDemand ≠ .trip
  stop : s.ls.line = .stopped ∨ s.ls.line = .stopping ∨ s.ls.line = .tripped → s.ls.deskDemand = .stop
  drive : s.ls.drive = driveContent s

theorem demandKept_iff (s : State) :
    DemandKept s ↔ s.ls.effDemand = s.demandNow ∧ LineAnswers s.ls.line s.ls.effDemand ∧ DeskAndDrive s := by
  constructor
  · intro h
    exact ⟨MostSevere.unique h.demand (demandNow_mostSevere s), ⟨h.trip, h.running, h.slowed, h.starting⟩,
      h.desk.1, h.desk.2, content_of_demandKept h⟩
  · rintro ⟨hdemand, hanswers, hdesk⟩
    exact ⟨hdemand ▸ demandNow_mostSevere s, hanswers.trip, hanswers.running, hanswers.slowed, hanswers.starting,
      ⟨hdesk.notTrip, hdesk.stop⟩, driveAnswers_of_content hdesk.drive⟩

theorem DemandKept.deskAndDrive {s : State} (h : DemandKept s) : DeskAndDrive s := ((demandKept_iff s).1 h).2.2

/-- A change that leaves the line, the desk demand, the effective demand, the record and the parameters. -/
theorem DeskAndDrive.of_eq {s t : State} (h : DeskAndDrive s) (hline : t.ls.line = s.ls.line)
    (hdesk : t.ls.deskDemand = s.ls.deskDemand) (heff : t.ls.effDemand = s.ls.effDemand)
    (hdrive : t.ls.drive = s.ls.drive) (hparams : t.ls.params = s.ls.params) : DeskAndDrive t :=
  ⟨hdesk ▸ h.notTrip, hline ▸ hdesk ▸ h.stop, by rw [hdrive, driveContent_congr hline heff hparams, h.drive]⟩

/-- A change that leaves LS and the bypasses. -/
theorem DemandKept.of_eq {s t : State} (h : DemandKept s) (hls : t.ls = s.ls) (hcm : t.cm = s.cm) : DemandKept t := by
  rw [demandKept_iff] at h ⊢
  obtain ⟨hdemand, hanswers, hdesk⟩ := h
  refine ⟨?_, hls ▸ hanswers, hdesk.of_eq ?_ ?_ ?_ ?_ ?_⟩
  · rw [demandNow_congr (by rw [hls]) (by rw [hls]) (by rw [hls]) hcm, hls, hdemand]
  all_goals rw [hls]

end Sys2Proof.Safety

namespace Sys2Proof.Machine

open Sys2Proof.Safety

/-! ## The demand after a change of its inputs -/

/-- The demand is at most a level that its inputs do not exceed. -/
theorem demandNow_code_le {s : State} {n : Nat} (hdesk : s.ls.deskDemand.code ≤ n) (hover : s.ls.overflow.code ≤ n)
    (hfaults : ∀ e ∈ s.ls.faults, imposes s e = true → e.cls.demand.code ≤ n) : s.demandNow.code ≤ n := by
  rcases (demandWith_spec s.ls.deskDemand s).1 with h | h | ⟨e, he, hi, h⟩ <;> rw [State.demandNow, h]
  · exact hdesk
  · exact hover
  · exact hfaults e he hi

theorem bypassed_eq_of_map {s t : State}
    (h : t.cm.channels.map (·.bypass.isSome) = s.cm.channels.map (·.bypass.isSome)) (c : Nat) :
    t.bypassed c = s.bypassed c := by
  have hc : (t.cm.channels.map (·.bypass.isSome))[c]? = (s.cm.channels.map (·.bypass.isSome))[c]? := by rw [h]
  rw [Vector.getElem?_map, Vector.getElem?_map] at hc
  unfold State.bypassed State.chan
  cases ht : t.cm.channels[c]? <;> cases hs : s.cm.channels[c]? <;> simp_all

/-- The demand depends on its inputs and on which channels are bypassed. -/
theorem demandNow_congr_bypassed {s t : State} (h1 : t.ls.deskDemand = s.ls.deskDemand)
    (h2 : t.ls.overflow = s.ls.overflow) (h3 : t.ls.faults = s.ls.faults) (h4 : ∀ c, t.bypassed c = s.bypassed c) :
    t.demandNow = s.demandNow := by
  have hi : imposes t = imposes s := by
    funext e
    simp only [imposes, h4]
  simp only [State.demandNow, demandWith, h1, h2, h3, hi]

theorem Demand.code_le_stop_of_ne_trip {d : Demand} (h : d ≠ .trip) : d.code ≤ Demand.stop.code := by
  cases d with
  | trip => exact absurd rfl h
  | run => decide
  | slow => decide
  | stop => decide

theorem Demand.ne_trip_of_code_le_stop {d : Demand} (h : d.code ≤ Demand.stop.code) : d ≠ .trip := by
  rintro rfl
  exact absurd h (by decide)

/-- R55, R59: a line that stops with no TRIP demand has none when it has stopped. -/
theorem enterLine_demand_ne_trip {st : LineState} {s : State} (hd : s.demandNow ≠ .trip) :
    (enterLine st s).demandNow ≠ .trip := by
  obtain ⟨-, hdesk, hover, hfaults, -⟩ := enterLine_spec st s
  have hcode := Demand.code_le_stop_of_ne_trip hd
  obtain ⟨-, hdesk', hover', hfaults'⟩ := demandWith_spec s.ls.deskDemand s
  have himposes : ∀ e, imposes (enterLine st s) e = imposes s e := by
    intro e
    simp only [imposes, State.bypassed, State.chan, enterLine_cm]
  refine Demand.ne_trip_of_code_le_stop (demandNow_code_le ?_ ?_ fun e he hi => ?_)
  · rw [hdesk]
    split_ifs
    · exact le_refl _
    · exact hdesk'.trans hcode
  · rw [hover]
    exact hover'.trans hcode
  · rw [himposes] at hi
    rw [hfaults] at he
    split_ifs at he
    · rcases mem_listGone he with he | ⟨f, hf, hsrc, hcod, hl, rfl⟩
      · exact (hfaults' e he hi).trans hcode
      · exact (hfaults' f hf (by simp [imposes, hsrc, hl])).trans hcode
    · exact (hfaults' e he hi).trans hcode

/-- R58: a line that keeps moving, or comes to STOPPED, keeps its demand. -/
theorem enterLine_demand_of_not_ends {st : LineState} {s : State} (hst : st.ends = false) :
    (enterLine st s).demandNow = s.demandNow := by
  obtain ⟨-, hdesk, hover, hfaults, -⟩ := enterLine_spec st s
  rw [hst] at hdesk hfaults
  exact demandNow_congr hdesk hover hfaults (enterLine_cm st s)

/-! ## LS's operations -/

/-- R55: the line's entry into a state that answers the demand it leaves. -/
theorem enterLine_demandKept {st : LineState} {s : State} (hanswers : LineAnswers st (enterLine st s).demandNow)
    (hdesk : st.ends = false → s.ls.deskDemand ≠ .trip)
    (hstop : st = .stopped → s.ls.deskDemand = .stop) : DemandKept (enterLine st s) := by
  obtain ⟨hline, hdesk', -, -, -, heff, hdrive, -⟩ := enterLine_spec st s
  refine (demandKept_iff _).2 ⟨heff, ?_, ?_, fun h => ?_, hdrive⟩
  · rw [hline, heff]
    exact hanswers
  · rw [hdesk']
    cases hends : st.ends
    · exact hdesk hends
    · exact fun h => by cases h
  · rw [hline] at h
    rw [hdesk']
    rcases h with rfl | rfl | rfl
    · exact hstop rfl
    · rfl
    · rfl

theorem enterStopping_demandKept {s : State} (hd : s.demandNow ≠ .trip) : DemandKept (enterStopping s) := by
  have hd1 : (enterLine .stopping s).demandNow ≠ .trip := enterLine_demand_ne_trip hd
  have h1 : DemandKept (enterLine .stopping s) :=
    enterLine_demandKept ⟨fun h => absurd h hd1, nofun, nofun, nofun⟩ nofun nofun
  unfold enterStopping
  extract_lets s1
  split_ifs
  · have hd2 : (enterLine .stopped s1).demandNow ≠ .trip := enterLine_demand_ne_trip hd1
    exact enterLine_demandKept ⟨fun h => absurd h hd2, nofun, nofun, nofun⟩ (fun _ => h1.desk.1)
      fun _ => h1.desk.2 (.inr (.inl (enterLine_line _ _)))
  · exact h1

/-- R55, R58: a line state that the demand does not change answers it. -/
theorem lineAnswers_of_lineTarget_none {ln : LineState} {d : Demand} (h : lineTarget ln d = none) : LineAnswers ln d := by
  constructor <;> revert h <;> cases ln <;> cases d <;> simp [lineTarget]

/-- R55, R58, R60: a line state that the demand calls for answers it, and TRIPPED answers every demand. -/
theorem lineTarget_some {ln st : LineState} {d : Demand} (h : lineTarget ln d = some st) :
    (st = .stopping ∧ d = .stop) ∨ st = .tripped ∨ (st.ends = false ∧ st ≠ .stopped ∧ LineAnswers st d) := by
  cases ln <;> cases d <;> cases h <;>
    first
    | exact .inl ⟨rfl, rfl⟩
    | exact .inr (.inl rfl)
    | exact .inr (.inr ⟨rfl, by simp, by simp, by simp, by simp, by simp⟩)

/-- The content of a drive request depends on the effective demand in STARTING alone. -/
theorem driveContent_congr_of_ne_starting {s t : State} (hline : t.ls.line = s.ls.line)
    (hparams : t.ls.params = s.ls.params) (hstart : s.ls.line ≠ .starting) : driveContent t = driveContent s := by
  simp only [driveContent, State.params, hline, hparams]
  cases hl : s.ls.line <;> first | rfl | exact absurd hl hstart

/-- A changed effective demand of a line that answers it, the record written where STARTING asks for it. -/
theorem demandKept_of_formed {s t : State} (h : DeskAndDrive s) (hls : t.ls = { s.ls with effDemand := t.ls.effDemand })
    (hdemand : t.ls.effDemand = t.demandNow) (hanswers : LineAnswers s.ls.line t.ls.effDemand)
    (hsame : s.ls.line = .starting → t.ls.effDemand = s.ls.effDemand) : DemandKept t := by
  have hline : t.ls.line = s.ls.line := by rw [hls]
  have hparams : t.ls.params = s.ls.params := by rw [hls]
  have hcontent : driveContent t = driveContent s := by
    by_cases hstart : s.ls.line = .starting
    · exact driveContent_congr hline (hsame hstart) hparams
    · exact driveContent_congr_of_ne_starting hline hparams hstart
  refine (demandKept_iff t).2 ⟨hdemand, hline ▸ hanswers, ?_, ?_, ?_⟩
  · rw [hls]
    exact h.notTrip
  · rw [hls]
    exact h.stop
  · rw [hcontent, hls]
    exact h.drive

theorem issueDrive_demandKept {s : State} (hdemand : s.ls.effDemand = s.demandNow)
    (hanswers : LineAnswers s.ls.line s.ls.effDemand) (hnot : s.ls.deskDemand ≠ .trip)
    (hstop : s.ls.line = .stopped ∨ s.ls.line = .stopping ∨ s.ls.line = .tripped → s.ls.deskDemand = .stop) :
    DemandKept (issueDrive s) := by
  have hls := issueDrive_ls s
  have hnow : (issueDrive s).demandNow = s.demandNow :=
    demandNow_congr (by rw [hls]) (by rw [hls]) (by rw [hls]) (issueDrive_cm s)
  have hcontent : driveContent (issueDrive s) = driveContent s :=
    driveContent_congr (by rw [hls]) (by rw [hls]) (by rw [hls])
  refine (demandKept_iff _).2 ⟨?_, ?_, ?_, ?_, ?_⟩
  · rw [hnow, hls, hdemand]
  · rw [hls]
    exact hanswers
  · rw [hls]
    exact hnot
  · rw [hls]
    exact hstop
  · rw [hcontent, hls]

/-- R54: the demand formed again, with the line state change and the drive request that follow. -/
theorem reform_demandKept {s : State} (h : DeskAndDrive s) : DemandKept (reform s) := by
  unfold reform
  extract_lets d _ s1
  have hd1 : s1.demandNow = d := demandNow_congr rfl rfl rfl rfl
  split
  · rename_i htarget
    obtain ⟨-, hd⟩ | h2 | ⟨h2, -⟩ := lineTarget_some htarget
    · exact enterStopping_demandKept (by rw [hd1, hd]; nofun)
    · cases h2
    · cases h2
  · rename_i st hst htarget
    obtain ⟨rfl, -⟩ | rfl | ⟨hends, hne, hanswers⟩ := lineTarget_some htarget
    · exact absurd rfl hst
    · exact enterLine_demandKept ⟨fun _ => rfl, nofun, nofun, nofun⟩ nofun nofun
    · refine enterLine_demandKept ?_ (fun _ => h.notTrip) fun he => absurd he hne
      rw [enterLine_demand_of_not_ends hends, hd1]
      exact hanswers
  · rename_i htarget
    have hanswers : LineAnswers s.ls.line d := lineAnswers_of_lineTarget_none htarget
    split_ifs with hif
    · exact issueDrive_demandKept hd1.symm hanswers h.notTrip h.stop
    · exact demandKept_of_formed h rfl hd1.symm hanswers fun hstart => by_contra fun hne => hif ⟨hstart, hne⟩

end Sys2Proof.Machine
end

section
/-! Every move keeps the line obeying its demand (R54 to R62), and no move but TRIP_RESET's and a reset's leaves TRIPPED
(R60, R61). -/

namespace Sys2Proof.Machine

open Sys2Proof.Safety

/-! ## What LS's first half of an event leaves of the desk demand and the record -/

theorem setFlag_deskAndDrive {f : Flag} {s : State} (h : DeskAndDrive s) : DeskAndDrive (setFlag f s) :=
  h.of_eq (by rw [setFlag_ls]) (by rw [setFlag_ls]) (by rw [setFlag_ls]) (by rw [setFlag_ls]) (by rw [setFlag_ls])

theorem listFault_deskAndDrive {f : Raise} {s : State} (h : DeskAndDrive s) : DeskAndDrive (listFault f s) := by
  unfold listFault
  extract_lets hit again _ s1
  have h1 : DeskAndDrive s1 := h.of_eq rfl rfl rfl rfl rfl
  split_ifs
  · exact setFlag_deskAndDrive h1
  · exact h1
  · exact setFlag_deskAndDrive (h.of_eq rfl rfl rfl rfl rfl)
  · exact setFlag_deskAndDrive (h.of_eq rfl rfl rfl rfl rfl)

theorem dropFault_deskAndDrive {src : Source} {code : FaultCode} {s : State} (h : DeskAndDrive s) :
    DeskAndDrive (dropFault src code s) := by
  have hls := dropFault_ls src code s
  exact h.of_eq (by rw [hls]) (by rw [hls]) (by rw [hls]) (by rw [hls]) (by rw [hls])

theorem raiseCore_demandKept {f : Raise} {s : State} (h : DeskAndDrive s) : DemandKept (raiseCore f s) :=
  reform_demandKept (listFault_deskAndDrive h)

theorem goneCore_demandKept {src : Source} {code : FaultCode} {s : State} (h : DeskAndDrive s) :
    DemandKept (goneCore src code s) := reform_demandKept (dropFault_deskAndDrive h)

theorem clearEntry_demandKept {n : Nat} {s : State} (h : DeskAndDrive s) : DemandKept (clearEntry n s) :=
  reform_demandKept (setFlag_deskAndDrive (h.of_eq rfl rfl rfl rfl rfl))

/-! ## The line moves -/

/-- R57: STARTING ends in the state that its demand calls for. -/
theorem startExit_demandKept {s : State} (h : DemandKept s) (hl : s.ls.line = .starting) :
    DemandKept (enterLine (if s.ls.effDemand = .run then .running else .slowed) s) := by
  have heff : s.demandNow = s.ls.effDemand := ((demandKept_iff s).1 h).1.symm
  rcases h.starting hl with he | he <;> rw [he] at heff ⊢
  · rw [if_pos rfl]
    refine enterLine_demandKept ?_ (fun _ => h.desk.1) nofun
    rw [enterLine_demand_of_not_ends rfl, heff]
    exact ⟨nofun, fun _ => rfl, nofun, nofun⟩
  · rw [if_neg (by simp)]
    refine enterLine_demandKept ?_ (fun _ => h.desk.1) nofun
    rw [enterLine_demand_of_not_ends rfl, heff]
    exact ⟨nofun, nofun, fun _ => rfl, nofun⟩

/-- R59: STOPPING ends with the desk demand that it took. -/
theorem rest_demandKept {s : State} (h : DemandKept s) (hl : s.ls.line = .stopping) :
    DemandKept (enterLine .stopped s) := by
  have hne : s.demandNow ≠ .trip := by
    rw [← ((demandKept_iff s).1 h).1]
    intro he
    rw [h.trip he] at hl
    cases hl
  exact enterLine_demandKept ⟨fun he => absurd he (enterLine_demand_ne_trip hne), nofun, nofun, nofun⟩
    (fun _ => h.desk.1) fun _ => h.desk.2 (.inr (.inl hl))

/-- R56: the start checks accept a level whose demand is RUN or SLOW. -/
theorem start_demandKept {s : State} {d : Demand} (hd : startAllowed d s = true) :
    DemandKept (enterLine .starting (setDesk d s)) := by
  simp only [startAllowed, Bool.and_eq_true, decide_eq_true_eq] at hd
  have hcode : (setDesk d s).demandNow.code ≤ Demand.slow.code := hd.2
  have hdesk : d.code ≤ Demand.slow.code := (demandWith_spec d s).2.1.trans hd.2
  refine enterLine_demandKept ?_ (fun _ => ?_) nofun
  · rw [enterLine_demand_of_not_ends rfl]
    revert hcode
    cases (setDesk d s).demandNow <;> intro hcode <;>
      first
      | exact absurd hcode (by decide)
      | exact ⟨by simp, by simp, by simp, by simp⟩
  · show d ≠ .trip
    rintro rfl
    exact absurd hdesk (by decide)

/-- R56: a changed desk demand of a moving line. -/
theorem desk_demandKept {s : State} {d : Demand} (h : DemandKept s) (hd : d ≠ .trip)
    (hl : s.ls.line = .starting ∨ s.ls.line = .running ∨ s.ls.line = .slowed) :
    DemandKept (reform (setDesk d s)) := by
  refine reform_demandKept ⟨hd, fun hstop => ?_, ?_⟩
  · change s.ls.line = .stopped ∨ s.ls.line = .stopping ∨ s.ls.line = .tripped at hstop
    rcases hl with hl | hl | hl <;> rw [hl] at hstop <;> simp at hstop
  · exact h.deskAndDrive.drive.trans (driveContent_congr rfl rfl rfl)

/-- R61: with no TRIP condition present, an accepted TRIP_RESET leaves no entry that imposes TRIP. -/
theorem clearTrips_demandKept {s : State} (h : DemandKept s)
    (hp : s.ls.faults.any (fun e => e.cls == .trip && e.present) = false)
    (hl : s.ls.line = .tripped ∨ s.ls.line = .stopped) : DemandKept (clearTrips s) := by
  have hdesk : s.ls.deskDemand = .stop := h.desk.2 (hl.elim (.inr ∘ .inr) .inl)
  unfold clearTrips
  extract_lets _ s1 s2
  have h1 : DeskAndDrive s1 := h.deskAndDrive.of_eq rfl rfl rfl rfl rfl
  have h2 : DeskAndDrive s2 ∧ s2.ls = s1.ls := by
    unfold s2
    split_ifs
    · exact ⟨setFlag_deskAndDrive h1, setFlag_ls _ _⟩
    · exact ⟨h1, rfl⟩
  have hne : s2.demandNow ≠ .trip := by
    refine Demand.ne_trip_of_code_le_stop (demandNow_code_le ?_ ?_ fun e he hi => ?_)
    · rw [h2.2]
      show s.ls.deskDemand.code ≤ _
      rw [hdesk]
    · rw [h2.2]
      show Demand.run.code ≤ _
      decide
    · rw [h2.2] at he
      obtain ⟨hmem, hkept⟩ := List.mem_filter.1 he
      refine Demand.code_le_stop_of_ne_trip fun ht => ?_
      have hcls : e.cls = .trip := FaultClass.demand_eq_trip.1 ht
      have hpresent : e.present = false := by
        have := List.any_eq_false.1 hp e hmem
        simpa [hcls] using this
      simp only [imposes, Bool.and_eq_true, Bool.or_eq_true, hpresent] at hi
      simp [tripEntry, hcls, hpresent] at hkept
      simp [hkept] at hi
  split_ifs
  · refine enterLine_demandKept ⟨fun he => absurd he (enterLine_demand_ne_trip hne), nofun, nofun, nofun⟩
      (fun _ => h2.1.notTrip) fun _ => ?_
    rw [h2.2]
    exact hdesk
  · exact reform_demandKept h2.1

/-- R66, R62: LINE_PARAMS takes new contents, and a setpoint that changes is issued. -/
theorem writeParams_demandKept {s : State} (p : LineParams) (h : DemandKept s) : DemandKept (writeParams p s) := by
  obtain ⟨heff, hanswers, hdesk⟩ := (demandKept_iff s).1 h
  unfold writeParams
  extract_lets _ s1 s2
  have hls : s2.ls = { s.ls with params := p } := by
    unfold s2
    split_ifs <;> rfl
  have hcm : s2.cm = s.cm := by
    unfold s2
    split_ifs <;> rfl
  have hnow : s2.demandNow = s.demandNow := demandNow_congr (by rw [hls]) (by rw [hls]) (by rw [hls]) hcm
  have heff2 : s2.ls.effDemand = s2.demandNow := by rw [hnow, hls, heff]
  have hanswers2 : LineAnswers s2.ls.line s2.ls.effDemand := by rw [hls]; exact hanswers
  have hnot : s2.ls.deskDemand ≠ .trip := by rw [hls]; exact hdesk.notTrip
  have hstop : s2.ls.line = .stopped ∨ s2.ls.line = .stopping ∨ s2.ls.line = .tripped → s2.ls.deskDemand = .stop := by
    rw [hls]; exact hdesk.stop
  split_ifs with hset
  · exact issueDrive_demandKept heff2 hanswers2 hnot hstop
  · refine (demandKept_iff s2).2 ⟨heff2, hanswers2, hnot, hstop, ?_⟩
    have hsame : driveContent s2 = driveContent s := by
      rw [not_not] at hset
      revert hset
      simp only [driveContent, hls]
      cases s.ls.line <;> intro hset <;> simp_all
      split_ifs at hset ⊢ <;> simp_all
    rw [hsame, hls]
    exact hdesk.drive

/-! ## Every move -/

theorem blocksReset_demandKept (straps : Straps) (now free : Nat) (queue : List Instr) :
    DemandKept (State.blocksReset straps now free queue) :=
  (demandKept_iff _).2 ⟨rfl, ⟨fun _ => rfl, nofun, nofun, nofun⟩, nofun, fun _ => rfl, rfl⟩

theorem tame_demandKept {s t : State} (ht : Tame s t) (h : DemandKept s) : DemandKept t := by
  obtain ⟨heff, hanswers, hdesk⟩ := (demandKept_iff s).1 h
  have hline := congrArg Watched.line ht.watch
  have hd := congrArg Watched.deskDemand ht.watch
  have he := congrArg Watched.effDemand ht.watch
  have hbypass := bypassed_eq_of_map (congrArg Watched.bypass ht.watch)
  have hnow : t.demandNow = s.demandNow :=
    demandNow_congr_bypassed hd (congrArg Watched.overflow ht.watch) (congrArg Watched.faults ht.watch) hbypass
  refine (demandKept_iff t).2 ⟨?_, ?_, hdesk.of_eq hline hd he (congrArg Watched.drive ht.watch)
    (congrArg Watched.params ht.watch)⟩
  · rw [hnow, ← heff]
    exact he
  · rw [show t.ls.line = s.ls.line from hline, show t.ls.effDemand = s.ls.effDemand from he]
    exact hanswers

theorem move_demandKept {k : Allow} {s t : State} (m : Move k s t) (h : DemandKept s) : DemandKept t := by
  cases m with
  | tame ht => exact tame_demandKept ht h
  | raised f => exact raiseCore_demandKept h.deskAndDrive
  | gone src code => exact goneCore_demandKept h.deskAndDrive
  | unbypass c => exact goneCore_demandKept (h.deskAndDrive.of_eq rfl rfl rfl rfl rfl)
  | params p hp => exact writeParams_demandKept p h
  | still ra hra => exact h.of_eq rfl rfl
  | rope hk e n t => exact h.of_eq rfl rfl
  | startExit hk hl => exact startExit_demandKept h hl
  | rest hk hl => exact rest_demandKept h hl
  | start hk d hl hd => exact start_demandKept hd
  | desk hk d hd hl => exact desk_demandKept h hd hl
  | cleared hk n e he hc => exact clearEntry_demandKept h.deskAndDrive
  | bypassed hk c b => exact raiseCore_demandKept (h.deskAndDrive.of_eq rfl rfl rfl rfl rfl)
  | anonymous hk hq => exact h.of_eq rfl rfl
  | foreign hk x hx hr hq => exact h.of_eq rfl rfl
  | oldest hk x e hd he hr hq => exact h.of_eq rfl rfl
  | outOfOrder hk x hd hr hq => exact h.of_eq rfl rfl
  | unknown hk x hd hr hq => exact h.of_eq rfl rfl
  | insert hk x hl hq => exact h.of_eq rfl rfl
  | zone hk z bad hr => exact h.of_eq rfl rfl
  | launched hk c d hd hc => exact h.of_eq (launchMove_ls c s) (launchMove_cm c s)
  | withdrawn hk x c hc => exact h.of_eq (withdrawMove_ls x c s) (withdrawMove_cm x c s)
  | assigned hk x c hc hx hl => exact h.of_eq rfl rfl
  | placed hk x loc off hl ht hf => exact h.of_eq (placeMove_ls x loc off s) (placeMove_cm x loc off s)
  | registers hk slot x loc hs hx hr hq hl => exact h.of_eq rfl rfl
  | unregisters hk slot x hs hl => exact h.of_eq rfl rfl
  | arrived hk x e he => exact h.of_eq rfl rfl
  | summit hk x hr hf => exact h.of_eq rfl rfl
  | reported hk f hf => exact h.of_eq rfl rfl
  | reportSent hk f q n hf => exact h.of_eq rfl rfl
  | tripReset hk hp hl => exact clearTrips_demandKept h hp hl
  | reset hk straps => exact blocksReset_demandKept _ _ _ _

/-- Settles O6: each move keeps the line obeying its demand, so every step does. -/
theorem demandKeptByEveryStep : Obligations.DemandKeptByEveryStep :=
  fun _ _ h hstep => step_keeps (fun _ _ m => move_demandKept m) hstep h

/-! ## TRIPPED -/

theorem raiseCore_tripped {f : Raise} {s : State} (h : s.ls.line = .tripped) : (raiseCore f s).ls.line = .tripped := by
  rw [raiseCore, (reform_spec _).1, (listFault_spec f s).2.1, h]
  rfl

theorem reform_tripped {s : State} (h : s.ls.line = .tripped) : (reform s).ls.line = .tripped := by
  rw [(reform_spec s).1, h]
  rfl

theorem goneCore_tripped {src : Source} {code : FaultCode} {s : State} (h : s.ls.line = .tripped) :
    (goneCore src code s).ls.line = .tripped := reform_tripped (by rw [dropFault_ls]; exact h)

theorem issueDrive_line (s : State) : (issueDrive s).ls.line = s.ls.line := by rw [issueDrive_ls]

theorem writeParams_line (p : LineParams) (s : State) : (writeParams p s).ls.line = s.ls.line := by
  unfold writeParams
  dsimp only
  split_ifs <;> first | rfl | exact issueDrive_line _

/-- R60, R61: a move that is neither TRIP_RESET's nor a reset's. -/
theorem move_tripped {s t : State} (m : Move .plain s t) (h : s.ls.line = .tripped) : t.ls.line = .tripped := by
  cases m with
  | tame ht => exact (congrArg Watched.line ht.watch).trans h
  | raised f => exact raiseCore_tripped h
  | gone src code => exact goneCore_tripped h
  | unbypass c => exact goneCore_tripped h
  | params p hp => exact (writeParams_line p s).trans h
  | still ra hra => exact h
  | rope hk e n t => exact h
  | startExit hk hl => rw [h] at hl; cases hl
  | rest hk hl => rw [h] at hl; cases hl
  | start hk d hl hd => rw [h] at hl; cases hl
  | desk hk d hd hl => rw [h] at hl; simp at hl
  | cleared hk n e he hc => exact reform_tripped (by rw [setFlag_ls]; exact h)
  | bypassed hk c b => exact raiseCore_tripped h
  | anonymous hk hq => exact h
  | foreign hk x hx hr hq => exact h
  | oldest hk x e hd he hr hq => exact h
  | outOfOrder hk x hd hr hq => exact h
  | unknown hk x hd hr hq => exact h
  | insert hk x hl hq => exact h
  | zone hk z bad hr => exact h
  | launched hk c d hd hc => rw [launchMove_ls]; exact h
  | withdrawn hk x c hc => rw [withdrawMove_ls]; exact h
  | assigned hk x c hc hx hl => exact h
  | placed hk x loc off hl ht hf => rw [placeMove_ls]; exact h
  | registers hk slot x loc hs hx hr hq hl => exact h
  | unregisters hk slot x hs hl => exact h
  | arrived hk x e he => exact h
  | summit hk x hr hf => exact h
  | reported hk f hf => exact h
  | reportSent hk f q n hf => exact h
  | tripReset hk hp hl => cases hk
  | reset hk straps => cases hk

/-- A command that is neither TRIP_RESET nor the end of a reset takes no more than the plain moves. -/
theorem allowed_eq_plain {c : Instr} (htrip : c ≠ .tripReset) (hreset : ∀ x, c ≠ .resetEnd x)
    (hinsert : ∀ x, c ≠ .insertionEnd x) : allowed c = .plain := by
  cases c <;> first | rfl | exact absurd rfl htrip | exact absurd rfl (hreset _) | exact absurd rfl (hinsert _)

/-- Settles O5: the command's path takes plain moves alone. -/
theorem trippedUntilReset : Obligations.TrippedUntilReset := by
  intro c s t htrip hreset hinsert hexec hline
  have hpath := exec_path hexec
  rw [allowed_eq_plain htrip hreset hinsert] at hpath
  exact hpath.keeps (fun _ _ m => move_tripped m) hline

end Sys2Proof.Machine
end

section
/-! The terminal track stays in order (R72): records join in DETACH at the tail, leave anywhere, and move one zone on at the
front of their own zone, where no older record stands behind them. -/

namespace Sys2Proof.Machine

open Sys2Proof.Safety

/-! ## The zones as a list -/

/-- The zones of the queue's records, oldest first. -/
def zones (s : State) : List Nat := s.ct.queue.map (·.zone)

/-- R72 said of the zones alone, with `b` berths. -/
structure ZonesOk (b : Nat) (l : List Nat) : Prop where
  order : l.Pairwise fun older newer => newer ≤ older
  berths : ∀ j, 1 ≤ j → j ≤ b → l.count j ≤ 1
  launch : l.count (b + 1) ≤ 2

theorem inZone_eq_count (z : Nat) (s : State) : inZone z s = (zones s).count z := by
  rw [inZone, zones, List.count, List.countP_map, List.countP_eq_length_filter]
  rfl

theorem trackOrdered_iff (s : State) : TrackOrdered s ↔ ZonesOk s.berthCount (zones s) := by
  have horder : (zones s).Pairwise (fun older newer => newer ≤ older)
      ↔ s.ct.queue.Pairwise fun older newer => newer.zone ≤ older.zone := List.pairwise_map
  constructor
  · intro h
    refine ⟨horder.2 h.order, fun j h1 h2 => ?_, ?_⟩
    · rw [← inZone_eq_count]
      exact h.berths j h1 h2
    · rw [← inZone_eq_count]
      exact h.launch
  · intro h
    refine ⟨horder.1 h.order, fun j h1 h2 => ?_, ?_⟩
    · rw [inZone_eq_count]
      exact h.berths j h1 h2
    · rw [inZone_eq_count]
      exact h.launch

theorem ZonesOk.sublist {b : Nat} {l l' : List Nat} (h : ZonesOk b l) (hs : l'.Sublist l) : ZonesOk b l' :=
  ⟨h.order.sublist hs, fun j h1 h2 => (hs.count_le j).trans (h.berths j h1 h2), (hs.count_le _).trans h.launch⟩

/-- R73, R74, R86: a record joins in DETACH. -/
theorem ZonesOk.join {b : Nat} {l : List Nat} (h : ZonesOk b l) : ZonesOk b (l ++ [0]) := by
  refine ⟨List.pairwise_append.2 ⟨h.order, List.pairwise_singleton _ _, fun x _ y hy => ?_⟩, fun j h1 h2 => ?_, ?_⟩
  · rw [List.mem_singleton.1 hy]
    exact Nat.zero_le x
  · rw [List.count_append, List.count_eq_zero_of_not_mem (l := [0]) (by simp; omega)]
    exact h.berths j h1 h2
  · rw [List.count_append, List.count_eq_zero_of_not_mem (l := [0]) (by simp)]
    exact h.launch

/-- R75: the oldest record of a zone moves to the next one, which has room. -/
theorem ZonesOk.shift {b k : Nat} {front back : List Nat} (h : ZonesOk b (front ++ k :: back)) (hfirst : k ∉ front)
    (hberth : k + 1 ≤ b → (front ++ k :: back).count (k + 1) = 0)
    (hlaunch : k + 1 = b + 1 → (front ++ k :: back).count (k + 1) ≤ 1) : ZonesOk b (front ++ (k + 1) :: back) := by
  have hcount : ∀ j, (front ++ (k + 1) :: back).count j
      ≤ (front ++ k :: back).count j + if k + 1 = j then 1 else 0 := by
    intro j
    simp only [List.count_append, List.count_cons, beq_iff_eq]
    split_ifs <;> omega
  obtain ⟨hfront, hcons, hcross⟩ := List.pairwise_append.1 h.order
  obtain ⟨hhead, htail⟩ := List.pairwise_cons.1 hcons
  refine ⟨List.pairwise_append.2 ⟨hfront, List.pairwise_cons.2 ⟨fun y hy => ?_, htail⟩, fun x hx y hy => ?_⟩,
    fun j h1 h2 => ?_, ?_⟩
  · exact (hhead y hy).trans (Nat.le_succ k)
  · rcases List.mem_cons.1 hy with rfl | hy
    · have hle := hcross x hx k List.mem_cons_self
      have hne : x ≠ k := fun e => hfirst (e ▸ hx)
      omega
    · exact hcross x hx y (List.mem_cons_of_mem _ hy)
  · have hj := hcount j
    split_ifs at hj with he
    · rw [← he] at hj ⊢
      have := hberth (he ▸ h2)
      omega
    · exact hj.trans (h.berths j h1 h2)
  · have hj := hcount (b + 1)
    split_ifs at hj with he
    · have := hlaunch he
      rw [he] at this
      omega
    · exact hj.trans h.launch

/-! ## `modifyFirst` -/

/-- The list that `modifyFirst` gives: the first element that meets the test replaced, or the list as it was. -/
theorem modifyFirst_cases {α : Type} (p : α → Bool) (f : α → α) (l : List α) :
    ((∀ a ∈ l, p a = false) ∧ modifyFirst p f l = l)
      ∨ ∃ front a back, l = front ++ a :: back ∧ (∀ x ∈ front, p x = false) ∧ p a = true
        ∧ modifyFirst p f l = front ++ f a :: back := by
  induction l with
  | nil => exact .inl ⟨fun a h => absurd h List.not_mem_nil, rfl⟩
  | cons x xs ih =>
    by_cases hx : p x = true
    · exact .inr ⟨[], x, xs, rfl, fun a h => absurd h List.not_mem_nil, hx, by rw [modifyFirst, if_pos hx]; rfl⟩
    · have hx' : p x = false := by simpa using hx
      rcases ih with ⟨hn, he⟩ | ⟨front, a, back, hl, hfront, ha, he⟩
      · refine .inl ⟨List.forall_mem_cons.2 ⟨hx', hn⟩, ?_⟩
        rw [modifyFirst, if_neg hx, he]
      · refine .inr ⟨x :: front, a, back, by rw [hl]; rfl, List.forall_mem_cons.2 ⟨hx', hfront⟩, ha, ?_⟩
        rw [modifyFirst, if_neg hx, he]
        rfl

theorem map_modifyFirst {α β : Type} (p : α → Bool) (f : α → α) (g : α → β) (h : ∀ a, g (f a) = g a) (l : List α) :
    (modifyFirst p f l).map g = l.map g := by
  rcases modifyFirst_cases p f l with ⟨-, he⟩ | ⟨front, a, back, hl, -, -, he⟩
  · rw [he]
  · rw [he, hl, List.map_append, List.map_append, List.map_cons, List.map_cons, h]

/-! ## A write of LINE_PARAMS -/

/-- R17, R66, R91, R148: a write of LINE_PARAMS changes LS, the positions and the SAFETY queue alone. -/
theorem writeParams_frame (p : LineParams) (s : State) :
    ∃ u, (u = { s with ls := { s.ls with params := p } } ∨ u = reducePositions { s with ls := { s.ls with params := p } })
      ∧ LineOnly u (writeParams p s) := by
  unfold writeParams
  extract_lets _ s1 s2
  have h2 : s2 = s1 ∨ s2 = reducePositions s1 := by
    unfold s2
    split_ifs
    · exact .inr rfl
    · exact .inl rfl
  refine ⟨s2, h2, ?_⟩
  split_ifs
  · exact issueDrive_lineOnly s2
  · exact .refl s2

/-! ## Every move -/

theorem zones_of_watch {s t : State} (h : watch t = watch s) : zones t = zones s := by
  have hq : t.ct.queue.map Cabin.key = s.ct.queue.map Cabin.key := congrArg Watched.queue h
  have hz : ∀ u : State, zones u = (u.ct.queue.map Cabin.key).map fun x => x.2.2 := fun u => by
    rw [List.map_map]
    rfl
  rw [hz, hz, hq]

theorem zones_of_lineOnly {s t : State} (h : LineOnly s t) : zones t = zones s := by rw [zones, h.ct, zones]

theorem berthCount_of_straps {s t : State} (h : t.straps = s.straps) : t.berthCount = s.berthCount := by
  rw [State.berthCount, h, State.berthCount]

/-- R75: the move of a zone's oldest record. -/
theorem zoneShift_zonesOk {k : Nat} {bad : Bool} {s : State} (h : ZonesOk s.berthCount (zones s))
    (hroom : zoneRoom k s = true) : ZonesOk s.berthCount (zones (zoneShift k bad s)) := by
  have hz : zones (zoneShift k bad s) = (modifyFirst (fun r => r.zone == k - 1)
      (fun r => { r with zone := k, locked := r.locked && !bad }) s.ct.queue).map (·.zone) := rfl
  have hcount : (s.ct.queue.filter fun c => c.zone == k).length = (zones s).count k := inZone_eq_count k s
  rw [hz]
  rcases modifyFirst_cases (fun r : Cabin => r.zone == k - 1)
      (fun r => { r with zone := k, locked := r.locked && !bad }) s.ct.queue with ⟨-, he⟩ | ⟨front, a, back, hl, hf, ha, he⟩
  · rw [he]
    exact h
  · have ha' : a.zone = k - 1 := by simpa using ha
    rw [he]
    rw [zones, hl] at h hcount
    simp only [zoneRoom, hl] at hroom hcount
    rw [hcount] at hroom
    simp only [List.map_append, List.map_cons, ha'] at h hroom ⊢
    cases k with
    | zero => exact h
    | succ k =>
      simp only [Nat.add_sub_cancel] at h hroom ⊢
      refine h.shift (fun hm => ?_) (fun hb => ?_) fun hb => ?_
      · obtain ⟨r, hr, hrz⟩ := List.mem_map.1 hm
        have := hf r hr
        simp [hrz] at this
      · have hne : k + 1 ≠ s.launchZone := by unfold State.launchZone; omega
        simp only [if_neg hne, decide_eq_true_eq] at hroom
        simpa using hroom
      · have heq : k + 1 = s.launchZone := by unfold State.launchZone; omega
        simp only [if_pos heq, decide_eq_true_eq] at hroom
        omega

/-- R72: records leave, and a record may join in DETACH. -/
theorem trackOrdered_of_zones {s t : State} (h : TrackOrdered s) (hs : t.straps = s.straps)
    (hz : (zones t).Sublist (zones s) ∨ ∃ l, l.Sublist (zones s) ∧ zones t = l ++ [0]) : TrackOrdered t := by
  rw [trackOrdered_iff] at h ⊢
  rw [berthCount_of_straps hs]
  rcases hz with hz | ⟨l, hl, hz⟩
  · exact h.sublist hz
  · rw [hz]
    exact (h.sublist hl).join

theorem trackOrdered_of_lineOnly {s t : State} (h : TrackOrdered s) (hl : LineOnly s t) : TrackOrdered t :=
  trackOrdered_of_zones h (hl.others .straps (by decide)) (.inl (by rw [zones_of_lineOnly hl]))

/-- The zones after an update of the queue that leaves zones alone. -/
theorem zones_setQueue (q : List Cabin) (s : State) : zones (setQueue q s) = q.map (·.zone) := rfl

theorem zones_launchMove (c : Cabin) (s : State) :
    zones (launchMove c s) = (s.ct.queue.eraseP fun r => r.zone == s.launchZone).map (·.zone) := by
  unfold launchMove
  dsimp only
  split_ifs <;> rfl

theorem zones_withdrawMove (x : Nat) (c : Cabin) (s : State) :
    zones (withdrawMove x c s) = (s.ct.queue.eraseP (withdrawNames x s)).map (·.zone) := by
  unfold withdrawMove
  dsimp only
  split_ifs <;> rfl

theorem zones_placeMove (x : Nat) (loc : Location) (off : Nat) (s : State) : zones (placeMove x loc off s) = zones s := by
  cases loc <;> rfl

theorem zones_assignMove (x : Nat) (s : State) : zones (assignMove x s) = zones s :=
  map_modifyFirst isAnonymous (fun r => { r with id := x, identity := .registered }) (·.zone) (fun _ => rfl) s.ct.queue

theorem trackOrdered_setChan {s : State} (h : TrackOrdered s) (c : Nat) (ch : Channel) :
    TrackOrdered (setChan c ch s) := trackOrdered_of_zones h rfl (.inl (List.Sublist.refl _))

theorem zones_eraseP_sublist (p : Cabin → Bool) (s : State) :
    ((s.ct.queue.eraseP p).map (·.zone)).Sublist (zones s) := (List.eraseP_sublist).map _

/-- R73, R74: a record joins in DETACH at the tail of what is left of the queue. -/
theorem zones_append_newCabin (q : List Cabin) (x : Nat) (i : Identity) (o : Bool) (s : State) :
    (q ++ [newCabin x i o s]).map (·.zone) = q.map (·.zone) ++ [0] := by
  rw [List.map_append]
  rfl

theorem move_trackOrdered {k : Allow} {s t : State} (m : Move k s t) (h : TrackOrdered s) : TrackOrdered t := by
  have whole : (zones s).Sublist (zones s) := List.Sublist.refl _
  cases m with
  | tame ht =>
    exact trackOrdered_of_zones h (congrArg Watched.straps ht.watch) (.inl (by rw [zones_of_watch ht.watch]))
  | raised f => exact trackOrdered_of_lineOnly h (raiseCore_lineOnly f s)
  | gone src code => exact trackOrdered_of_lineOnly h (goneCore_lineOnly src code s)
  | unbypass c => exact trackOrdered_of_lineOnly (trackOrdered_setChan h c _) (goneCore_lineOnly _ _ _)
  | params p hp =>
    have hz : zones (writeParams p s) = zones s := by
      have hk : (writeParams p s).ct.queue.map Cabin.key = s.ct.queue.map Cabin.key := writeParams_keys p s
      have := congrArg (List.map fun x : Nat × Identity × Nat => x.2.2) hk
      rw [List.map_map, List.map_map] at this
      exact this
    exact trackOrdered_of_zones h (writeParams_straps p s) (.inl (by rw [hz]))
  | still ra hra => exact trackOrdered_of_zones h rfl (.inl whole)
  | rope hk e n t => exact trackOrdered_of_zones h rfl (.inl whole)
  | startExit hk hl => exact trackOrdered_of_lineOnly h (enterLine_lineOnly _ s)
  | rest hk hl => exact trackOrdered_of_lineOnly h (enterLine_lineOnly _ s)
  | start hk d hl hd => exact trackOrdered_of_lineOnly h ((setDesk_lineOnly d s).trans (enterLine_lineOnly _ _))
  | desk hk d hd hl => exact trackOrdered_of_lineOnly h ((setDesk_lineOnly d s).trans (reform_lineOnly _))
  | cleared hk n e he hc => exact trackOrdered_of_lineOnly h (clearEntry_lineOnly n s)
  | bypassed hk c b => exact trackOrdered_of_lineOnly (trackOrdered_setChan h c _) (raiseCore_lineOnly _ _)
  | anonymous hk hq => exact trackOrdered_of_zones h rfl (.inr ⟨_, whole, zones_append_newCabin _ _ _ _ _⟩)
  | foreign hk x hx hr hq =>
    exact trackOrdered_of_zones h rfl (.inr ⟨_, zones_eraseP_sublist _ s, zones_append_newCabin _ _ _ _ _⟩)
  | oldest hk x e hd he hr hq => exact trackOrdered_of_zones h rfl (.inr ⟨_, whole, zones_append_newCabin _ _ _ _ _⟩)
  | outOfOrder hk x hd hr hq => exact trackOrdered_of_zones h rfl (.inr ⟨_, whole, zones_append_newCabin _ _ _ _ _⟩)
  | unknown hk x hd hr hq =>
    exact trackOrdered_of_zones h rfl (.inr ⟨_, zones_eraseP_sublist _ s, zones_append_newCabin _ _ _ _ _⟩)
  | insert hk x hl hq => exact trackOrdered_of_zones h rfl (.inr ⟨_, whole, zones_append_newCabin _ _ _ _ _⟩)
  | zone hk z bad hr =>
    rw [trackOrdered_iff] at h ⊢
    exact zoneShift_zonesOk h hr
  | launched hk c d hd hc =>
    exact trackOrdered_of_zones h (by rw [launchMove_frame]) (.inl (zones_launchMove c s ▸ zones_eraseP_sublist _ s))
  | withdrawn hk x c hc =>
    exact trackOrdered_of_zones h (by rw [withdrawMove_frame]) (.inl (zones_withdrawMove x c s ▸ zones_eraseP_sublist _ s))
  | assigned hk x c hc hx hl =>
    exact trackOrdered_of_zones h rfl (.inl (by rw [zones_assignMove]))
  | placed hk x loc off hl ht hf =>
    exact trackOrdered_of_zones h (by rw [placeMove_frame]) (.inl (by rw [zones_placeMove]))
  | registers hk slot x loc hs hx hr hq hl => exact trackOrdered_of_zones h rfl (.inl whole)
  | unregisters hk slot x hs hl => exact trackOrdered_of_zones h rfl (.inl whole)
  | arrived hk x e he => exact trackOrdered_of_zones h rfl (.inl whole)
  | summit hk x hr hf => exact trackOrdered_of_zones h rfl (.inl (zones_eraseP_sublist _ s))
  | reported hk f hf => exact trackOrdered_of_zones h rfl (.inl whole)
  | reportSent hk f q n hf => exact trackOrdered_of_zones h rfl (.inl whole)
  | tripReset hk hp hl => exact trackOrdered_of_lineOnly h (clearTrips_lineOnly s)
  | reset hk straps =>
    exact (trackOrdered_iff _).2 ⟨List.Pairwise.nil, fun _ _ _ => Nat.zero_le 1, Nat.zero_le 2⟩

/-- Settles O8: each move keeps the track in order, so every step does. -/
theorem trackOrderedByEveryStep : Obligations.TrackOrderedByEveryStep :=
  fun _ _ h hstep => step_keeps (fun _ _ m => move_trackOrdered m) hstep h

end Sys2Proof.Machine
end

section
/-! Every queue stays within its capacity (R34 to R204). The moves guard what they add: a tame change keeps the queues it
watches bounded, LS's operations lengthen no list but the fault list, which `listFault` guards, and each cabin move checks
the room of the collection that it fills. -/

namespace Sys2Proof.Machine

open Sys2Proof.Safety

/-! ## The capacities by what the moves watch -/

/-- The lists that named moves alone change. -/
structure ListsFit (s : State) : Prop where
  faults : s.ls.faults.length ≤ Config.faultCap
  queue : s.ct.queue.length ≤ Config.queueCap
  uphill : s.ct.uphill.length ≤ Config.listCap
  downhill : s.ct.downhill.length ≤ Config.listCap
  report : s.lr.report.length ≤ Config.doorCap

theorem withinCapacity_iff (s : State) : WithinCapacity s ↔ Bounded s ∧ ListsFit s := by
  constructor
  · intro h
    exact ⟨⟨h.subst, h.txQueue, h.rxQueue, h.waiting, h.linkVoice, h.relay, h.requests, h.door, h.voice, h.staging,
      h.deferred, h.backlog, h.safety, h.outstanding, h.capture⟩, h.faults, h.queue, h.uphill, h.downhill, h.report⟩
  · rintro ⟨b, l⟩
    exact ⟨l.faults, l.queue, l.uphill, l.downhill, b.subst, b.txQueue, b.rxQueue, b.waiting, b.linkVoice, b.relay,
      b.requests, b.door, b.voice, l.report, b.staging, b.deferred, b.backlog, b.safety, b.outstanding, b.capture⟩

/-- A change of the line adds to none of the queues but SAFETY, where it keeps one frame of each kind. -/
theorem bounded_of_lineOnly {s t : State} (h : Bounded s) (hl : LineOnly s t) : Bounded t := by
  have hcm : t.cm = s.cm := hl.others .cm (by decide)
  have hcs : t.cs = s.cs := hl.others .cs (by decide)
  have hcl : t.cl = s.cl := hl.others .cl (by decide)
  have hdefer : deferLoad t = deferLoad s := by rw [deferLoad, hcm, hcl, deferLoad]
  have hout : outLoad t = outLoad s := by rw [outLoad, hl.lr, outLoad]
  have hcap : captured t = captured s := by rw [captured, hl.dr, captured]
  refine ⟨hcm ▸ h.subst, ?_, ?_, hcs ▸ h.waiting, hcs ▸ h.linkVoice, ?_, ?_, ?_, ?_, hcl ▸ h.staging, hdefer ▸ h.deferred,
    hcs ▸ h.backlog, hl.safety h.safety, hout ▸ h.outstanding, hcap ▸ h.capture⟩
  · rw [hl.sl]
    exact h.txQueue
  · rw [hl.sl]
    exact h.rxQueue
  · rw [hl.lr]
    exact h.relay
  · rw [hl.lr]
    exact h.requests
  · rw [hl.lr]
    exact h.door
  · rw [hl.lr]
    exact h.voice

/-- A change of the line that leaves the fault list within its capacity. -/
theorem withinCapacity_of_lineOnly {s t : State} (h : WithinCapacity s) (hl : LineOnly s t)
    (hf : t.ls.faults.length ≤ Config.faultCap) : WithinCapacity t := by
  obtain ⟨hb, hfit⟩ := (withinCapacity_iff s).1 h
  refine (withinCapacity_iff t).2 ⟨bounded_of_lineOnly hb hl, hf, ?_, ?_, ?_, ?_⟩
  · rw [hl.ct]
    exact hfit.queue
  · rw [hl.ct]
    exact hfit.uphill
  · rw [hl.ct]
    exact hfit.downhill
  · rw [hl.lr]
    exact hfit.report

/-! ## The fault list -/

theorem issueDrive_faults (s : State) : (issueDrive s).ls.faults = s.ls.faults := by rw [issueDrive_ls]

theorem reform_faults_length (s : State) : (reform s).ls.faults.length ≤ s.ls.faults.length := by
  rcases (reform_spec s).2.2.1 with h | ⟨-, h⟩ <;> rw [h]
  exact length_listGone _ _ _

theorem enterLine_faults_length (st : LineState) (s : State) :
    (enterLine st s).ls.faults.length ≤ s.ls.faults.length := by
  rw [(enterLine_spec st s).2.2.2.1]
  split_ifs
  · exact length_listGone _ _ _
  · exact le_refl _

/-- R50, R52: a raising lists a fault only while the list has room. -/
theorem raiseCore_faults_length {f : Raise} {s : State} (h : s.ls.faults.length ≤ Config.faultCap) :
    (raiseCore f s).ls.faults.length ≤ Config.faultCap := by
  refine (reform_faults_length _).trans ?_
  rw [(listFault_spec f s).1, listAfter]
  split_ifs with _ hroom
  · rw [List.length_map]
    exact h
  · rw [List.length_append]
    exact hroom
  · exact h

theorem goneCore_faults_length (src : Source) (code : FaultCode) (s : State) :
    (goneCore src code s).ls.faults.length ≤ s.ls.faults.length := by
  refine (reform_faults_length _).trans ?_
  rw [dropFault_ls]
  exact length_listGone _ _ _

theorem clearEntry_faults_length (n : Nat) (s : State) :
    (clearEntry n s).ls.faults.length ≤ s.ls.faults.length := by
  refine (reform_faults_length _).trans ?_
  rw [setFlag_ls]
  exact List.length_eraseP_le

theorem clearTrips_faults_length (s : State) : (clearTrips s).ls.faults.length ≤ s.ls.faults.length := by
  unfold clearTrips
  extract_lets _ s1 s2
  have h2 : s2.ls.faults.length ≤ s.ls.faults.length := by
    have hls : s2.ls = s1.ls := by
      unfold s2
      split_ifs
      · exact setFlag_ls _ _
      · rfl
    rw [hls]
    exact List.length_filter_le _ _
  split_ifs
  · exact (enterLine_faults_length _ _).trans h2
  · exact (reform_faults_length _).trans h2

/-! ## CT's collections -/

/-- A change of CT alone, with room where it adds. -/
theorem withinCapacity_of_ct {s t : State} (h : WithinCapacity s) (hsizes : sizes t = sizes s) (hls : t.ls = s.ls)
    (hlr : t.lr = s.lr) (hq : t.ct.queue.length ≤ Config.queueCap) (hu : t.ct.uphill.length ≤ Config.listCap)
    (hd : t.ct.downhill.length ≤ Config.listCap) : WithinCapacity t := by
  obtain ⟨hb, hfit⟩ := (withinCapacity_iff s).1 h
  exact (withinCapacity_iff t).2 ⟨hb.of_sizes hsizes, hls ▸ hfit.faults, hq, hu, hd, hlr ▸ hfit.report⟩

theorem length_modifyFirst {α : Type} (p : α → Bool) (f : α → α) (l : List α) :
    (modifyFirst p f l).length = l.length := by
  rw [← List.length_map (f := fun _ => ()), map_modifyFirst p f (fun _ => ()) (fun _ => rfl), List.length_map]

theorem length_join_le {n : Nat} {α : Type} {l l' : List α} (a : α) (hl : l'.length ≤ l.length) (h : l.length < n) :
    (l' ++ [a]).length ≤ n := by
  rw [List.length_append, List.length_singleton]
  omega

/-- R84: the launched cabin joins the uphill list only while it has room. -/
theorem launchMove_lengths {c : Cabin} {s : State} (hu : s.ct.uphill.length ≤ Config.listCap) :
    (launchMove c s).ct.queue.length ≤ s.ct.queue.length ∧ (launchMove c s).ct.uphill.length ≤ Config.listCap
      ∧ (launchMove c s).ct.downhill = s.ct.downhill := by
  unfold launchMove
  dsimp only
  split_ifs with _ hroom
  · exact ⟨List.length_eraseP_le, hu, rfl⟩
  · exact ⟨List.length_eraseP_le, length_join_le _ (le_refl _) hroom, rfl⟩
  · exact ⟨List.length_eraseP_le, hu, rfl⟩

theorem withdrawMove_lengths (x : Nat) (c : Cabin) (s : State) :
    (withdrawMove x c s).ct.queue.length ≤ s.ct.queue.length ∧ (withdrawMove x c s).ct.uphill = s.ct.uphill
      ∧ (withdrawMove x c s).ct.downhill = s.ct.downhill := by
  unfold withdrawMove
  dsimp only
  split_ifs
  · exact ⟨List.length_eraseP_le, rfl, rfl⟩
  · exact ⟨List.length_eraseP_le, rfl, rfl⟩

/-- R89: a cabin is placed only in a list with room. -/
theorem placeMove_lengths {x off : Nat} {loc : Location} {s : State} (hf : listFull loc s = false)
    (hu : s.ct.uphill.length ≤ Config.listCap) (hd : s.ct.downhill.length ≤ Config.listCap) :
    (placeMove x loc off s).ct.queue = s.ct.queue ∧ (placeMove x loc off s).ct.uphill.length ≤ Config.listCap
      ∧ (placeMove x loc off s).ct.downhill.length ≤ Config.listCap := by
  cases loc with
  | uphill => exact ⟨rfl, length_join_le _ (le_refl _) (Nat.not_le.1 (of_decide_eq_false hf)), hd⟩
  | downhill => exact ⟨rfl, hu, length_join_le _ (le_refl _) (Nat.not_le.1 (of_decide_eq_false hf))⟩
  | garage => exact ⟨rfl, hu, hd⟩
  | summit => exact ⟨rfl, hu, hd⟩
  | unplaced => exact ⟨rfl, hu, hd⟩
  | terminal => exact ⟨rfl, hu, hd⟩

/-- R146: the downhill list has room, or holds the cabin already. -/
theorem summitMove_downhill_length {x : Nat} {s : State} (hr : s.registered x = true)
    (hf : downhillRefuses x s = false) (hd : s.ct.downhill.length ≤ Config.listCap) :
    (summitMove x s).ct.downhill.length ≤ Config.listCap := by
  have hle : (s.ct.downhill.filter fun e => e.id != x).length ≤ s.ct.downhill.length := List.length_filter_le _ _
  by_cases hany : s.ct.downhill.any (fun e => e.id == x) = true
  · obtain ⟨e, he, hx⟩ := List.any_eq_true.1 hany
    have hlt : (s.ct.downhill.filter fun e => e.id != x).length < s.ct.downhill.length :=
      List.length_filter_lt_length_iff_exists.2 ⟨e, he, by simpa using hx⟩
    exact length_join_le _ (le_refl _) (hlt.trans_le hd)
  · have hroom : s.ct.downhill.length < Config.listCap := by
      simpa [downhillRefuses, hr, hany] using hf
    exact length_join_le _ hle hroom

/-! ## Every move -/

theorem writeParams_faults (p : LineParams) (s : State) : (writeParams p s).ls.faults = s.ls.faults := by
  unfold writeParams
  dsimp only
  split_ifs <;> first | rfl | exact issueDrive_faults _

theorem writeParams_withinCapacity {p : LineParams} {s : State} (h : WithinCapacity s) :
    WithinCapacity (writeParams p s) := by
  obtain ⟨u, hu, hl⟩ := writeParams_frame p s
  have hfaults : (writeParams p s).ls.faults = s.ls.faults := writeParams_faults p s
  obtain ⟨-, hfit⟩ := (withinCapacity_iff s).1 h
  have hw : WithinCapacity u := by
    rcases hu with rfl | rfl
    · exact (withinCapacity_iff _).2 ⟨.of_sizes (s := s) rfl ((withinCapacity_iff s).1 h).1, hfit.faults, hfit.queue, hfit.uphill,
        hfit.downhill, hfit.report⟩
    · refine (withinCapacity_iff _).2 ⟨.of_sizes (s := s) rfl ((withinCapacity_iff s).1 h).1, hfit.faults, ?_, ?_, ?_, hfit.report⟩
      · simpa [reducePositions] using hfit.queue
      · simpa [reducePositions] using hfit.uphill
      · simpa [reducePositions] using hfit.downhill
  exact withinCapacity_of_lineOnly hw hl (hfaults ▸ hfit.faults)

theorem blocksReset_withinCapacity (straps : Straps) (now free : Nat) (queue : List Instr) :
    WithinCapacity (State.blocksReset straps now free queue) := by
  have hsafety : AtMostOneEach ([] : List QFrame) := ⟨List.nodup_nil, fun _ hf => absurd hf List.not_mem_nil⟩
  constructor
  case safety => exact hsafety
  all_goals exact Nat.le_of_ble_eq_true rfl

theorem tame_withinCapacity {s t : State} (ht : Tame s t) (h : WithinCapacity s) : WithinCapacity t := by
  obtain ⟨hb, hfit⟩ := (withinCapacity_iff s).1 h
  have hq := congrArg List.length (congrArg Watched.queue ht.watch)
  have hu := congrArg List.length (congrArg Watched.uphill ht.watch)
  have hd := congrArg List.length (congrArg Watched.downhill ht.watch)
  have hf := congrArg List.length (congrArg Watched.faults ht.watch)
  have hr := congrArg List.length (congrArg Watched.report ht.watch)
  simp only [watch, List.length_map] at hq hu hd hf hr
  exact (withinCapacity_iff t).2 ⟨ht.bounded hb, hf ▸ hfit.faults, hq ▸ hfit.queue, hu ▸ hfit.uphill, hd ▸ hfit.downhill,
    hr ▸ hfit.report⟩

theorem withinCapacity_setChan {s : State} (h : WithinCapacity s) (c : Nat) (ch : Channel) :
    WithinCapacity (setChan c ch s) := withinCapacity_of_ct h rfl rfl rfl h.queue h.uphill h.downhill

theorem move_withinCapacity {k : Allow} {s t : State} (m : Move k s t) (h : WithinCapacity s) : WithinCapacity t := by
  have hfit := ((withinCapacity_iff s).1 h).2
  have hf := hfit.faults
  cases m with
  | tame ht => exact tame_withinCapacity ht h
  | raised f => exact withinCapacity_of_lineOnly h (raiseCore_lineOnly f s) (raiseCore_faults_length hf)
  | gone src code =>
    exact withinCapacity_of_lineOnly h (goneCore_lineOnly src code s) ((goneCore_faults_length _ _ _).trans hf)
  | unbypass c =>
    exact withinCapacity_of_lineOnly (withinCapacity_setChan h c _) (goneCore_lineOnly _ _ _)
      ((goneCore_faults_length _ _ _).trans hf)
  | params p hp => exact writeParams_withinCapacity h
  | still ra hra => exact withinCapacity_of_ct h rfl rfl rfl h.queue h.uphill h.downhill
  | rope hk e n t => exact withinCapacity_of_ct h rfl rfl rfl h.queue h.uphill h.downhill
  | startExit hk hl => exact withinCapacity_of_lineOnly h (enterLine_lineOnly _ s) ((enterLine_faults_length _ _).trans hf)
  | rest hk hl => exact withinCapacity_of_lineOnly h (enterLine_lineOnly _ s) ((enterLine_faults_length _ _).trans hf)
  | start hk d hl hd =>
    exact withinCapacity_of_lineOnly h ((setDesk_lineOnly d s).trans (enterLine_lineOnly _ _))
      ((enterLine_faults_length _ _).trans hf)
  | desk hk d hd hl =>
    exact withinCapacity_of_lineOnly h ((setDesk_lineOnly d s).trans (reform_lineOnly _))
      ((reform_faults_length _).trans hf)
  | cleared hk n e he hc =>
    exact withinCapacity_of_lineOnly h (clearEntry_lineOnly n s) ((clearEntry_faults_length n s).trans hf)
  | bypassed hk c b =>
    exact withinCapacity_of_lineOnly (withinCapacity_setChan h c _) (raiseCore_lineOnly _ _) (raiseCore_faults_length hf)
  | anonymous hk hq =>
    exact withinCapacity_of_ct h rfl rfl rfl (length_join_le _ (le_refl _) hq) h.uphill h.downhill
  | foreign hk x hx hr hq =>
    exact withinCapacity_of_ct h rfl rfl rfl (length_join_le _ List.length_eraseP_le hq) h.uphill h.downhill
  | oldest hk x e hd he hr hq =>
    refine withinCapacity_of_ct h rfl rfl rfl (length_join_le _ (le_refl _) hq) h.uphill ?_
    exact (by rw [List.length_drop]; omega : (s.ct.downhill.drop 1).length ≤ _).trans hfit.downhill
  | outOfOrder hk x hd hr hq =>
    exact withinCapacity_of_ct h rfl rfl rfl (length_join_le _ (le_refl _) hq) h.uphill
      ((List.length_filter_le _ _).trans hfit.downhill)
  | unknown hk x hd hr hq =>
    exact withinCapacity_of_ct h rfl rfl rfl (length_join_le _ List.length_eraseP_le hq)
      ((List.length_filter_le _ _).trans hfit.uphill) h.downhill
  | insert hk x hl hq =>
    exact withinCapacity_of_ct h rfl rfl rfl (length_join_le _ (le_refl _) hq) h.uphill h.downhill
  | zone hk z bad hr =>
    refine withinCapacity_of_ct h rfl rfl rfl ?_ h.uphill h.downhill
    exact (length_modifyFirst _ _ _).trans_le hfit.queue
  | launched hk c d hd hc =>
    obtain ⟨hq, hu, hdown⟩ := launchMove_lengths (c := c) hfit.uphill
    exact withinCapacity_of_ct h (by rw [launchMove_frame]; rfl) (launchMove_ls c s) (by rw [launchMove_frame])
      (hq.trans hfit.queue) hu (hdown ▸ hfit.downhill)
  | withdrawn hk x c hc =>
    obtain ⟨hq, hu, hdown⟩ := withdrawMove_lengths x c s
    exact withinCapacity_of_ct h (by rw [withdrawMove_frame]; rfl) (withdrawMove_ls x c s) (by rw [withdrawMove_frame])
      (hq.trans hfit.queue) (hu ▸ hfit.uphill) (hdown ▸ hfit.downhill)
  | assigned hk x c hc hx hl =>
    refine withinCapacity_of_ct h rfl rfl rfl ?_ h.uphill ((List.length_filter_le _ _).trans hfit.downhill)
    exact (length_modifyFirst _ _ _).trans_le hfit.queue
  | placed hk x loc off hl ht hfull =>
    obtain ⟨hq, hu, hdown⟩ := placeMove_lengths (x := x) (off := off) hfull hfit.uphill hfit.downhill
    exact withinCapacity_of_ct h (by rw [placeMove_frame]; rfl) (placeMove_ls x loc off s) (by rw [placeMove_frame])
      (hq ▸ hfit.queue) hu hdown
  | registers hk slot x loc hs hx hr hq hl => exact withinCapacity_of_ct h rfl rfl rfl h.queue h.uphill h.downhill
  | unregisters hk slot x hs hl => exact withinCapacity_of_ct h rfl rfl rfl h.queue h.uphill h.downhill
  | arrived hk x e he =>
    exact withinCapacity_of_ct h rfl rfl rfl h.queue (List.length_eraseP_le.trans hfit.uphill) h.downhill
  | summit hk x hr hf =>
    exact withinCapacity_of_ct h rfl rfl rfl (List.length_eraseP_le.trans hfit.queue)
      ((List.length_filter_le _ _).trans hfit.uphill) (summitMove_downhill_length hr hf hfit.downhill)
  | reported hk f hroom =>
    obtain ⟨hb, -⟩ := (withinCapacity_iff s).1 h
    exact (withinCapacity_iff _).2 ⟨.of_sizes (s := s) rfl hb, hf, hfit.queue, hfit.uphill, hfit.downhill,
      length_join_le _ (le_refl _) hroom⟩
  | reportSent hk f q n hreport =>
    obtain ⟨hb, -⟩ := (withinCapacity_iff s).1 h
    have hlen : q.length ≤ Config.doorCap := by
      have := hfit.report
      rw [hreport, List.length_cons] at this
      omega
    exact (withinCapacity_iff _).2 ⟨.of_sizes (s := s) rfl hb, hf, hfit.queue, hfit.uphill, hfit.downhill, hlen⟩
  | tripReset hk hp hl =>
    exact withinCapacity_of_lineOnly h (clearTrips_lineOnly s) ((clearTrips_faults_length s).trans hf)
  | reset hk straps => exact blocksReset_withinCapacity _ _ _ _

/-- Settles O9: each move keeps every queue within its capacity, so every step does. -/
theorem capacitiesKeptByEveryStep : Obligations.CapacitiesKeptByEveryStep :=
  fun _ _ h hstep => step_keeps (fun _ _ m => move_withinCapacity m) hstep h

end Sys2Proof.Machine
end

section
/-! The account of cabins (R69, R71), first of lists alone. What the invariant says is said of four things: the location of
each registered id, and the tags (id and identity) of the terminal queue with the ids of the two cabin lists, in whatever
order. Then every cabin move is one of a few changes of an account: a cabin is taken from wherever it is and put at a
location (`Account.relocate`), an unregistered record leaves (`Account.drop`) or joins (`Account.join`), or a cabin in no
collection is unregistered (`Account.unregister`). -/

namespace Sys2Proof.Machine

/-! ## An account -/

/-- R69, R71: with `loc` the location of each registered id, the tags of the queue and the ids of the lists. -/
structure Account (loc : Nat → Option Location) (queue : List (Nat × Identity)) (up down : List Nat) : Prop where
  once : ((queue.map Prod.fst).filter (· ≠ 0) ++ up ++ down).Nodup
  terminal : ∀ x l, loc x = some l → (l = .terminal ↔ x ∈ queue.map Prod.fst)
  uphill : ∀ x l, loc x = some l → (l = .uphill ↔ x ∈ up)
  downhill : ∀ x l, loc x = some l → (l = .downhill ↔ x ∈ down)
  lists : ∀ x ∈ up ++ down, (loc x).isSome
  identity : ∀ r ∈ queue, (r.2 = .registered ↔ (loc r.1).isSome) ∧ (r.2 = .anonymous ↔ r.1 = 0)
  named : loc 0 = none

namespace Account

variable {loc loc' : Nat → Option Location} {q q' : List (Nat × Identity)} {u u' d d' : List Nat} {x : Nat}

/-- The order of the collections does not matter. -/
theorem perm (h : Account loc q u d) (hq : q.Perm q') (hu : u.Perm u') (hd : d.Perm d') : Account loc q' u' d' where
  once := (((hq.map _).filter _).append hu |>.append hd).nodup_iff.1 h.once
  terminal := fun x l hx => (h.terminal x l hx).trans ((hq.map _).mem_iff)
  uphill := fun x l hx => (h.uphill x l hx).trans hu.mem_iff
  downhill := fun x l hx => (h.downhill x l hx).trans hd.mem_iff
  lists := fun x hx => h.lists x ((hu.append hd).mem_iff.2 hx)
  identity := fun r hr => h.identity r (hq.mem_iff.2 hr)
  named := h.named

/-- An id is not in the queue where the cabin is elsewhere. -/
theorem not_mem_queue (h : Account loc q u d) {l : Location} (hx : loc x = some l) (hl : l ≠ .terminal) :
    x ∉ q.map Prod.fst := fun hm => hl ((h.terminal x l hx).2 hm)

theorem not_mem_up (h : Account loc q u d) {l : Location} (hx : loc x = some l) (hl : l ≠ .uphill) : x ∉ u :=
  fun hm => hl ((h.uphill x l hx).2 hm)

theorem not_mem_down (h : Account loc q u d) {l : Location} (hx : loc x = some l) (hl : l ≠ .downhill) : x ∉ d :=
  fun hm => hl ((h.downhill x l hx).2 hm)

/-- An id that is not registered is in neither list. -/
theorem not_mem_lists (h : Account loc q u d) (hx : loc x = none) : x ∉ u ∧ x ∉ d := by
  constructor <;> intro hm
  · have := h.lists x (List.mem_append_left _ hm)
    simp [hx] at this
  · have := h.lists x (List.mem_append_right _ hm)
    simp [hx] at this

theorem ne_zero (h : Account loc q u d) (hx : (loc x).isSome) : x ≠ 0 := by
  rintro rfl
  simp [h.named] at hx

/-- The tags left when those of id `x` are taken out. -/
def without (x : Nat) (q : List (Nat × Identity)) : List (Nat × Identity) := q.filter fun r => r.1 ≠ x

theorem mem_without {x : Nat} {q : List (Nat × Identity)} {r : Nat × Identity} :
    r ∈ without x q ↔ r ∈ q ∧ r.1 ≠ x := by simp [without]

theorem ids_without (x : Nat) (q : List (Nat × Identity)) :
    (without x q).map Prod.fst = (q.map Prod.fst).filter (· ≠ x) := by
  rw [without, List.filter_map]
  rfl

theorem without_of_not_mem (h : x ∉ q.map Prod.fst) : without x q = q := by
  refine List.filter_eq_self.2 fun r hr => decide_eq_true fun e => h ?_
  exact e ▸ List.mem_map_of_mem hr

theorem filter_of_not_mem (h : x ∉ u) : u.filter (· ≠ x) = u :=
  List.filter_eq_self.2 fun _ hy => decide_eq_true fun e => h (e ▸ hy)

/-- What a cabin adds to a collection: itself, where the collection is that of its location. -/
def placed {α : Type} (here : Bool) (a : α) : List α := if here then [a] else []

theorem mem_placed {α : Type} {b : Bool} {a y : α} : y ∈ placed b a ↔ b = true ∧ y = a := by
  cases b <;> simp [placed]

theorem map_placed {α β : Type} (f : α → β) (b : Bool) (a : α) : (placed b a).map f = placed b (f a) := by
  cases b <;> rfl

theorem count_placed (b : Bool) (a y : Nat) : (placed b a).count y = if b = true ∧ a = y then 1 else 0 := by
  cases b <;> simp [placed, List.count_singleton]

theorem count_filter_ne (x y : Nat) (l : List Nat) : (l.filter (· ≠ x)).count y = if y = x then 0 else l.count y := by
  split_ifs with h
  · exact List.count_eq_zero_of_not_mem (by simp [h])
  · exact List.count_filter (by simpa using h)

/-- R69: the cabin of an id leaves the collection that held it and joins that of its new location. -/
theorem relocate (h : Account loc q u d) (hx : x ≠ 0) (l : Location)
    (hq : (without x q ++ placed (l = .terminal) (x, Identity.registered)).Perm q')
    (hu : (u.filter (· ≠ x) ++ placed (l = .uphill) x).Perm u')
    (hd : (d.filter (· ≠ x) ++ placed (l = .downhill) x).Perm d')
    (hloc : ∀ y, loc' y = if y = x then some l else loc y) : Account loc' q' u' d' := by
  refine perm (q := without x q ++ placed (l = .terminal) (x, Identity.registered)) ?_ hq hu hd
  have hself : loc' x = some l := by rw [hloc, if_pos rfl]
  have hother : ∀ y, y ≠ x → loc' y = loc y := fun y hy => by rw [hloc, if_neg hy]
  have hids : (without x q ++ placed (l = .terminal) (x, Identity.registered)).map Prod.fst
      = (q.map Prod.fst).filter (· ≠ x) ++ placed (l = .terminal) x := by
    rw [List.map_append, ids_without, map_placed]
  refine ⟨?once, fun y k hy => ?_, fun y k hy => ?_, fun y k hy => ?_, fun y hy => ?_, fun r hr => ?_, ?_⟩
  case once =>
    rw [hids, List.nodup_iff_count_le_one]
    intro y
    have hold := List.nodup_iff_count_le_one.1 h.once y
    simp only [List.filter_append, List.count_append, count_filter_ne, count_placed] at hold ⊢
    by_cases hyx : y = x
    · subst hyx
      cases l <;> simp [hx]
    · have hxy : ¬ x = y := fun e => hyx e.symm
      simp only [hyx, hxy, and_false, if_false, add_zero]
      split_ifs at hold ⊢ <;> omega
  case refine_1 =>
    rw [hids, List.mem_append, List.mem_filter, mem_placed]
    by_cases hyx : y = x
    · subst hyx
      rw [hself] at hy
      cases hy
      simp
    · rw [hother y hyx] at hy
      simp [hyx, h.terminal y k hy]
  case refine_2 =>
    rw [List.mem_append, List.mem_filter, mem_placed]
    by_cases hyx : y = x
    · subst hyx
      rw [hself] at hy
      cases hy
      simp
    · rw [hother y hyx] at hy
      simp [hyx, h.uphill y k hy]
  case refine_3 =>
    rw [List.mem_append, List.mem_filter, mem_placed]
    by_cases hyx : y = x
    · subst hyx
      rw [hself] at hy
      cases hy
      simp
    · rw [hother y hyx] at hy
      simp [hyx, h.downhill y k hy]
  case refine_4 =>
    by_cases hyx : y = x
    · rw [hyx, hself]
      rfl
    · rw [hother y hyx]
      refine h.lists y ?_
      simpa [mem_placed, hyx] using hy
  case refine_5 =>
    rcases List.mem_append.1 hr with hr | hr
    · obtain ⟨hr, hne⟩ := mem_without.1 hr
      rw [hother _ hne]
      exact h.identity r hr
    · obtain ⟨-, rfl⟩ := mem_placed.1 hr
      simp [hself, hx]
  case refine_6 =>
    rw [hother 0 (Ne.symm hx)]
    exact h.named

/-- R71: a record that is not REGISTERED leaves the queue. -/
theorem drop {r : Nat × Identity} (h : Account loc (r :: q) u d) (hr : r.2 ≠ .registered) : Account loc q u d where
  once := by
    refine h.once.sublist (((List.Sublist.filter _ ?_).append_right u).append_right d)
    exact (List.sublist_cons_self _ _)
  terminal := fun x l hx => by
    rw [h.terminal x l hx, List.map_cons, List.mem_cons]
    refine ⟨fun hm => hm.resolve_left fun e => hr ?_, .inr⟩
    exact ((h.identity r List.mem_cons_self).1).2 (by rw [← e, hx]; rfl)
  uphill := h.uphill
  downhill := h.downhill
  lists := h.lists
  identity := fun t ht => h.identity t (List.mem_cons_of_mem _ ht)
  named := h.named

/-- R73: a record that is not REGISTERED joins the queue: an ANONYMOUS one, or a FOREIGN one whose id no record has. -/
theorem join (h : Account loc q u d) {x : Nat} {i : Identity} (hi : i ≠ .registered) (hx : loc x = none)
    (hanon : i = .anonymous ↔ x = 0) (hnew : x = 0 ∨ x ∉ q.map Prod.fst) : Account loc (q ++ [(x, i)]) u d where
  once := by
    obtain ⟨hu, hd⟩ := h.not_mem_lists hx
    rw [List.map_append, List.filter_append, List.nodup_iff_count_le_one]
    intro y
    have hold := List.nodup_iff_count_le_one.1 h.once y
    simp only [List.count_append] at hold ⊢
    by_cases hyx : y = x
    · subst hyx
      by_cases h0 : y = 0
      · subst h0
        simpa using hold
      · have hq : y ∉ (q.map Prod.fst).filter (· ≠ 0) := fun hm => hnew.resolve_left h0 (List.mem_filter.1 hm).1
        rw [List.count_eq_zero_of_not_mem hq, List.count_eq_zero_of_not_mem hu, List.count_eq_zero_of_not_mem hd]
        have hle : (List.filter (fun z => decide (z ≠ 0)) (List.map Prod.fst [(y, i)])).length ≤ 1 :=
          List.length_filter_le _ _
        have hcount := List.count_le_length (a := y) (l := List.filter (fun z => decide (z ≠ 0)) (List.map Prod.fst [(y, i)]))
        omega
    · have hzero : (List.filter (fun z => decide (z ≠ 0)) (List.map Prod.fst [(x, i)])).count y = 0 :=
        List.count_eq_zero_of_not_mem fun hm => hyx (List.mem_singleton.1 (List.mem_filter.1 hm).1)
      omega
  terminal := fun y l hy => by
    rw [List.map_append, List.mem_append, h.terminal y l hy]
    refine ⟨.inl, fun hm => hm.resolve_right fun hs => ?_⟩
    rw [List.mem_singleton.1 hs, hx] at hy
    cases hy
  uphill := h.uphill
  downhill := h.downhill
  lists := h.lists
  identity := fun r hr => by
    rcases List.mem_append.1 hr with hr | hr
    · exact h.identity r hr
    · rw [List.mem_singleton.1 hr]
      simp [hi, hx, hanon]
  named := h.named

/-- R70: a cabin in the GARAGE or UNPLACED is unregistered. -/
theorem unregister (h : Account loc q u d) {l : Location} (hx : loc x = some l) (hl : l = .garage ∨ l = .unplaced)
    (hloc : ∀ y, loc' y = if y = x then none else loc y) : Account loc' q u d := by
  have hq : x ∉ q.map Prod.fst := h.not_mem_queue hx (by rintro rfl; simp at hl)
  have hup : x ∉ u := h.not_mem_up hx (by rintro rfl; simp at hl)
  have hdown : x ∉ d := h.not_mem_down hx (by rintro rfl; simp at hl)
  have hsome : ∀ y k, loc' y = some k → loc y = some k := by
    intro y k hy
    rw [hloc] at hy
    split_ifs at hy
    exact hy
  have hother : ∀ y, y ≠ x → loc' y = loc y := fun y hy => by rw [hloc, if_neg hy]
  refine ⟨h.once, fun y k hy => h.terminal y k (hsome y k hy), fun y k hy => h.uphill y k (hsome y k hy),
    fun y k hy => h.downhill y k (hsome y k hy), fun y hy => ?_, fun r hr => ?_, ?_⟩
  · rw [hother y]
    · exact h.lists y hy
    · rintro rfl
      exact (List.mem_append.1 hy).elim hup hdown
  · rw [hother r.1]
    · exact h.identity r hr
    · rintro rfl
      exact hq (List.mem_map_of_mem hr)
  · rw [hloc, h.named, ite_self]

/-- The one record of an id is out of the queue where its records are taken out. -/
theorem without_perm (h : Account loc q u d) {r : Nat × Identity} (hr : r.1 ≠ 0) (hq : q.Perm (r :: q')) :
    (without r.1 q).Perm q' := by
  have hperm : (without r.1 q).Perm (without r.1 (r :: q')) := hq.filter _
  have hnot : r.1 ∉ q'.map Prod.fst := by
    have hnd : ((q.map Prod.fst).filter (· ≠ 0)).Nodup :=
      (List.nodup_append'.1 (List.nodup_append'.1 h.once).1).1
    have := ((hq.map Prod.fst).filter (· ≠ 0)).nodup_iff.1 hnd
    rw [List.map_cons, List.filter_cons_of_pos (by simpa using hr)] at this
    exact fun hm => (List.nodup_cons.1 this).1 (List.mem_filter.2 ⟨hm, by simpa using hr⟩)
  have hrest : without r.1 (r :: q') = q' := by
    rw [without, List.filter_cons_of_neg (by simp), ← without, without_of_not_mem hnot]
  rwa [hrest] at hperm

end Account

end Sys2Proof.Machine
end

section
/-! The account of cabins (R69, R71) of the model's states: `Accounted` is `Account` of the fleet table, the queue's tags and
the lists' ids, with the ids of the slots distinct. Each move is then one of the changes of an account. -/

namespace Sys2Proof.Machine

open Sys2Proof.Safety

/-! ## The fleet table -/

/-- The location that a list of registered cabins gives an id. -/
def locate (cs : List FleetCabin) (x : Nat) : Option Location :=
  cs.findSome? fun c => if c.id = x then some c.location else none

theorem location_eq_locate (s : State) (x : Nat) : s.location x = locate (cabins s) x := by
  rw [State.location, locate, cabins]
  induction s.ct.fleet.toList with
  | nil => rfl
  | cons o os ih =>
    cases o with
    | none => simpa using ih
    | some c =>
      rw [List.findSome?_cons, ih]
      rfl

theorem locate_eq_some {cs : List FleetCabin} (h : (cs.map (·.id)).Nodup) (x : Nat) (l : Location) :
    locate cs x = some l ↔ (⟨x, l⟩ : FleetCabin) ∈ cs := by
  induction cs with
  | nil => simp [locate]
  | cons c cs ih =>
    obtain ⟨hc, hcs⟩ := List.nodup_cons.1 h
    rw [locate, List.findSome?_cons, List.mem_cons, ← ih hcs]
    by_cases hx : c.id = x
    · have hnone : (⟨x, l⟩ : FleetCabin) ∉ cs := fun hm =>
        hc (List.mem_map.2 ⟨_, hm, hx.symm⟩)
      rw [← ih hcs] at hnone
      obtain ⟨i, k⟩ := c
      cases hx
      simp [hnone, eq_comm]
    · have hne : (⟨x, l⟩ : FleetCabin) ≠ c := fun e => hx (e ▸ rfl)
      simp only [hx, if_false, hne, false_or]
      rfl

theorem locate_isSome {cs : List FleetCabin} (x : Nat) : (locate cs x).isSome ↔ x ∈ cs.map (·.id) := by
  rw [locate, List.findSome?_isSome_iff]
  simp

theorem locate_append {xs ys : List FleetCabin} (x : Nat) :
    locate (xs ++ ys) x = (locate xs x).or (locate ys x) := by
  rw [locate, List.findSome?_append]
  rfl

/-! ## `Accounted` and `Account` -/

/-- The ids and identities of the terminal queue, oldest first. -/
def tags (s : State) : List (Nat × Identity) := s.ct.queue.map fun c => (c.id, c.identity)

/-- The ids of the uphill list, and of the downhill list. -/
def upIds (s : State) : List Nat := s.ct.uphill.map (·.id)

def downIds (s : State) : List Nat := s.ct.downhill.map (·.id)

theorem tags_fst (s : State) : (tags s).map Prod.fst = s.ct.queue.map (·.id) := by
  rw [tags, List.map_map]
  rfl

theorem queueIds_eq (s : State) : queueIds s = ((tags s).map Prod.fst).filter (· ≠ 0) := by
  rw [tags_fst, queueIds]

theorem accounted_iff (s : State) :
    Accounted s ↔ ((cabins s).map (·.id)).Nodup ∧ Account s.location (tags s) (upIds s) (downIds s) := by
  have hreg : ∀ x, (s.location x).isSome ↔ x ∈ (cabins s).map (·.id) := fun x => by
    rw [location_eq_locate, locate_isSome]
  have hqueue : ∀ x, x ∈ queueIds s ↔ x ∈ (tags s).map Prod.fst ∧ x ≠ 0 := fun x => by
    rw [queueIds_eq, List.mem_filter]
    simp
  constructor
  · intro h
    have hmem : ∀ x l, s.location x = some l → (⟨x, l⟩ : FleetCabin) ∈ cabins s := fun x l hx => by
      rwa [location_eq_locate, locate_eq_some h.slots] at hx
    refine ⟨h.slots, ?_, fun x l hx => ?_, fun x l hx => ?_, fun x l hx => ?_, fun x hx => ?_, fun r hr => ?_, ?_⟩
    · rw [← queueIds_eq]
      exact h.ids
    · have hne : x ≠ 0 := h.named _ (hmem x l hx)
      rw [h.terminal _ (hmem x l hx), hqueue]
      exact and_iff_left hne
    · exact h.uphill _ (hmem x l hx)
    · exact h.downhill _ (hmem x l hx)
    · exact (hreg x).2 (h.lists x hx)
    · obtain ⟨c, hc, rfl⟩ := List.mem_map.1 hr
      rw [hreg]
      exact h.identity c hc
    · rw [← Option.not_isSome_iff_eq_none, hreg]
      intro hm
      obtain ⟨c, hc, h0⟩ := List.mem_map.1 hm
      exact h.named c hc h0
  · rintro ⟨hslots, h⟩
    have hloc : ∀ c ∈ cabins s, s.location c.id = some c.location := fun c hc => by
      rwa [location_eq_locate, locate_eq_some hslots]
    have hnamed : ∀ c ∈ cabins s, c.id ≠ 0 := fun c hc => h.ne_zero (by rw [hloc c hc]; rfl)
    refine ⟨hslots, ?_, fun c hc => ?_, fun c hc => ?_, fun c hc => ?_, fun x hx => ?_, fun r hr => ?_, hnamed⟩
    · rw [queueIds_eq]
      exact h.once
    · rw [h.terminal _ _ (hloc c hc), hqueue]
      exact (and_iff_left (hnamed c hc)).symm
    · exact h.uphill _ _ (hloc c hc)
    · exact h.downhill _ _ (hloc c hc)
    · exact (hreg x).1 (h.lists x hx)
    · rw [← hreg]
      exact h.identity _ (List.mem_map_of_mem (f := fun c : Cabin => (c.id, c.identity)) hr)

theorem Account.of_accounted {s : State} (h : Accounted s) : Account s.location (tags s) (upIds s) (downIds s) :=
  ((accounted_iff s).1 h).2

/-- An account of a state whose fleet table is as it was. -/
theorem accounted_of_fleet {s t : State} (h : Accounted s) (hf : t.ct.fleet = s.ct.fleet)
    (ha : Account s.location (tags t) (upIds t) (downIds t)) : Accounted t := by
  have hc : cabins t = cabins s := by rw [cabins, hf, cabins]
  refine (accounted_iff t).2 ⟨by rw [hc]; exact h.slots, ?_⟩
  have hloc : t.location = s.location := funext fun x => by rw [location_eq_locate, hc, location_eq_locate]
  rwa [hloc]

/-- What neither registers, places nor moves a cabin keeps the account. -/
theorem accounted_of_eq {s t : State} (h : Accounted s) (hf : t.ct.fleet = s.ct.fleet) (hq : tags t = tags s)
    (hu : upIds t = upIds s) (hd : downIds t = downIds s) : Accounted t := by
  refine accounted_of_fleet h hf ?_
  rw [hq, hu, hd]
  exact .of_accounted h

/-! ## Changes of the fleet table -/

theorem cabins_setLocation (x : Nat) (l : Location) (s : State) :
    cabins (setLocation x l s) = (cabins s).map fun c => if c.id = x then { c with location := l } else c := by
  simp only [cabins, setLocation, Vector.toList_map, List.filterMap_map, List.map_filterMap]
  rfl

theorem ids_setLocation (x : Nat) (l : Location) (s : State) :
    (cabins (setLocation x l s)).map (·.id) = (cabins s).map (·.id) := by
  rw [cabins_setLocation, List.map_map]
  refine List.map_congr_left fun c _ => ?_
  dsimp only [Function.comp]
  split_ifs <;> rfl

/-- R69: the location of the cabin named changes, and no other. -/
theorem location_setLocation {s : State} {x : Nat} (hs : ((cabins s).map (·.id)).Nodup) (hx : s.registered x = true)
    (l : Location) (y : Nat) : (setLocation x l s).location y = if y = x then some l else s.location y := by
  have ht : ((cabins (setLocation x l s)).map (·.id)).Nodup := (ids_setLocation x l s).symm ▸ hs
  refine Option.ext fun k => ?_
  rw [location_eq_locate, locate_eq_some ht, cabins_setLocation, List.mem_map]
  by_cases hy : y = x
  · subst hy
    rw [if_pos rfl]
    obtain ⟨m, hm⟩ := Option.isSome_iff_exists.1 hx
    rw [location_eq_locate, locate_eq_some hs] at hm
    constructor
    · rintro ⟨c, -, hc⟩
      split_ifs at hc with hid
      · exact congrArg (fun c => some c.location) hc
      · exact absurd (congrArg FleetCabin.id hc) hid
    · intro hk
      refine ⟨_, hm, ?_⟩
      cases hk
      simp
  · rw [if_neg hy, location_eq_locate, locate_eq_some hs]
    constructor
    · rintro ⟨c, hc, he⟩
      split_ifs at he with hid
      · have hy' : c.id = y := congrArg FleetCabin.id he
        exact absurd (hy'.symm.trans hid) hy
      · exact he ▸ hc
    · exact fun hc => ⟨_, hc, if_neg hy⟩

/-- The slots on both sides of the one replaced. -/
theorem cabins_setSlot {s : State} {slot : Nat} (h : slot < 160) (c : Option FleetCabin) :
    ∃ front back, cabins s = front ++ (s.ct.fleet[slot]?.getD none).toList ++ back
      ∧ cabins (setSlot slot c s) = front ++ c.toList ++ back := by
  have hl : slot < s.ct.fleet.toList.length := by simpa using h
  have hget : s.ct.fleet[slot]?.getD none = s.ct.fleet.toList[slot] := by simp [h]
  refine ⟨(s.ct.fleet.toList.take slot).filterMap id, (s.ct.fleet.toList.drop (slot + 1)).filterMap id, ?_, ?_⟩
  · rw [hget, cabins]
    conv_lhs => rw [← List.take_append_drop slot s.ct.fleet.toList, List.drop_eq_getElem_cons hl]
    rw [List.filterMap_append, List.append_assoc]
    cases s.ct.fleet.toList[slot] <;> simp
  · rw [cabins, setSlot, Vector.toList_setIfInBounds, List.set_eq_take_append_cons_drop, if_pos hl,
      List.filterMap_append, List.append_assoc]
    cases c <;> simp

/-! ## A cabin's way through the collections -/

/-- R69: a registered cabin takes location `l`: its collection takes it in, and the one that held it lets it go. -/
theorem accounted_relocate {s t : State} {x : Nat} (h : Accounted s) (hx : s.registered x = true) (l : Location)
    (hf : t.ct.fleet = (setLocation x l s).ct.fleet)
    (hq : (Account.without x (tags s) ++ Account.placed (l = .terminal) (x, Identity.registered)).Perm (tags t))
    (hu : ((upIds s).filter (· ≠ x) ++ Account.placed (l = .uphill) x).Perm (upIds t))
    (hd : ((downIds s).filter (· ≠ x) ++ Account.placed (l = .downhill) x).Perm (downIds t)) : Accounted t := by
  have ha := Account.of_accounted h
  have hc : cabins t = cabins (setLocation x l s) := by rw [cabins, hf, cabins]
  refine (accounted_iff t).2 ⟨?_, ha.relocate (ha.ne_zero hx) l hq hu hd fun y => ?_⟩
  · rw [hc, ids_setLocation]
    exact h.slots
  · rw [← location_setLocation h.slots hx, location_eq_locate, hc, location_eq_locate]

/-- The tags of a queue that has lost its first record to meet a test. -/
theorem tags_eraseP {p : Cabin → Bool} {s : State} {c : Cabin} (h : s.ct.queue.find? p = some c) :
    (tags s).Perm ((c.id, c.identity) :: (s.ct.queue.eraseP p).map fun c => (c.id, c.identity)) := by
  obtain ⟨hc, front, back, hl, hfront⟩ := List.find?_eq_some_iff_append.1 h
  have he : s.ct.queue.eraseP p = front ++ back := by
    rw [hl, List.eraseP_append_right _ fun a ha => by simpa using hfront a ha, List.eraseP_cons_of_pos hc]
  rw [tags, he, hl]
  simp [List.perm_middle]

/-- R74, R146: the record of an id leaves the queue, if it has one. -/
theorem without_tags_eraseP {s : State} {x : Nat} (h : Accounted s) (hx : x ≠ 0) :
    (Account.without x (tags s)).Perm ((s.ct.queue.eraseP fun c => c.id == x).map fun c => (c.id, c.identity)) := by
  cases hf : s.ct.queue.find? fun c => c.id == x with
  | none =>
    have hn : ∀ c ∈ s.ct.queue, ¬ (c.id == x) = true := List.find?_eq_none.1 hf
    rw [List.eraseP_of_forall_not hn, Account.without_of_not_mem]
    · rfl
    · rw [tags_fst]
      intro hm
      obtain ⟨c, hc, he⟩ := List.mem_map.1 hm
      exact hn c hc (by simpa using he)
  | some c =>
    have hid : c.id = x := by simpa using List.find?_some hf
    have := (Account.of_accounted h).without_perm (r := (c.id, c.identity)) (by rw [hid]; exact hx) (tags_eraseP hf)
    rwa [hid] at this

theorem ids_filter {α : Type} (f : α → Nat) (x : Nat) (l : List α) :
    (l.filter fun e => f e != x).map f = (l.map f).filter (· ≠ x) := by
  rw [List.filter_map]
  congr 1
  refine List.filter_congr fun e _ => Bool.eq_iff_iff.2 ?_
  simp

theorem ids_eraseP {α : Type} (f : α → Nat) (x : Nat) {l : List α} (h : (l.map f).Nodup) :
    (l.eraseP fun e => f e == x).map f = (l.map f).filter (· ≠ x) := by
  have he : (l.map f).eraseP (· == x) = (l.eraseP fun e => f e == x).map f := List.eraseP_map
  rw [← he, ← List.erase_eq_eraseP', h.erase_eq_filter]
  refine List.filter_congr fun e _ => Bool.eq_iff_iff.2 ?_
  simp

/-! ## Cabins that enter the terminal -/

/-- A cabin that no collection holds leaves none. -/
theorem leaves_none_of_elsewhere {s : State} {x : Nat} {l : Location} (h : Accounted s) (hx : s.location x = some l)
    (hl : l ≠ .terminal ∧ l ≠ .uphill ∧ l ≠ .downhill) :
    Account.without x (tags s) = tags s ∧ (upIds s).filter (· ≠ x) = upIds s
      ∧ (downIds s).filter (· ≠ x) = downIds s := by
  have ha := Account.of_accounted h
  obtain ⟨h1, h2, h3⟩ := hl
  exact ⟨Account.without_of_not_mem (ha.not_mem_queue hx h1), Account.filter_of_not_mem (ha.not_mem_up hx h2),
    Account.filter_of_not_mem (ha.not_mem_down hx h3)⟩

/-- R74: a registered cabin enters from `u`, which differs from `s` in the collection that held it. -/
theorem joinTerminal_accounted {s u : State} {x : Nat} {order : Bool} (h : Accounted s) (hx : s.registered x = true)
    (hf : u.ct.fleet = s.ct.fleet) (hq : (Account.without x (tags s)).Perm (tags u))
    (hu : (upIds s).filter (· ≠ x) = upIds u) (hd : (downIds s).filter (· ≠ x) = downIds u) :
    Accounted (joinTerminal x order u) := by
  refine accounted_relocate h hx .terminal ?_ ?_ ?_ ?_
  · simp only [joinTerminal, setLocation, setQueue, hf]
  · have ht : tags (joinTerminal x order u) = tags u ++ [(x, .registered)] := List.map_append
    rw [ht]
    exact hq.append_right _
  · rw [hu]
    exact .of_eq (List.append_nil _)
  · rw [hd]
    exact .of_eq (List.append_nil _)

theorem oldestMove_accounted {s : State} {x : Nat} {e : DownEntry} (h : Accounted s)
    (hd : s.ct.downhill.head? = some e) (he : e.id = x) (hr : s.registered x = true) : Accounted (oldestMove x s) := by
  have ha := Account.of_accounted h
  obtain ⟨rest, hl⟩ : ∃ rest, s.ct.downhill = e :: rest := by
    cases hc : s.ct.downhill with
    | nil => rw [hc] at hd; cases hd
    | cons f rest =>
      rw [hc] at hd
      cases hd
      exact ⟨rest, rfl⟩
  have hids : downIds s = x :: rest.map (·.id) := by rw [downIds, hl, List.map_cons, he]
  have hmem : x ∈ downIds s := hids ▸ List.mem_cons_self
  obtain ⟨l, hx⟩ := Option.isSome_iff_exists.1 hr
  have hloc : l = .downhill := (ha.downhill x l hx).2 hmem
  subst hloc
  have hnot : x ∉ rest.map (·.id) := by
    have := (List.nodup_append'.1 ha.once).2.1
    rw [hids] at this
    exact (List.nodup_cons.1 this).1
  refine joinTerminal_accounted h hr rfl (.of_eq (Account.without_of_not_mem (ha.not_mem_queue hx (by simp))))
    (Account.filter_of_not_mem (ha.not_mem_up hx (by simp))) ?_
  rw [hids, List.filter_cons_of_neg (by simp), Account.filter_of_not_mem hnot, downIds, hl]
  rfl

theorem outOfOrderMove_accounted {s : State} {x : Nat} (h : Accounted s) (hd : ∃ e ∈ s.ct.downhill, e.id = x)
    (hr : s.registered x = true) : Accounted (outOfOrderMove x s) := by
  have ha := Account.of_accounted h
  obtain ⟨l, hx⟩ := Option.isSome_iff_exists.1 hr
  have hloc : l = .downhill := (ha.downhill x l hx).2 (by simpa [downIds] using hd)
  subst hloc
  exact joinTerminal_accounted h hr rfl (.of_eq (Account.without_of_not_mem (ha.not_mem_queue hx (by simp))))
    (Account.filter_of_not_mem (ha.not_mem_up hx (by simp))) (ids_filter _ _ _).symm

theorem unknownMove_accounted {s : State} {x : Nat} (h : Accounted s) (hd : ∀ e ∈ s.ct.downhill, e.id ≠ x)
    (hr : s.registered x = true) : Accounted (unknownMove x s) := by
  refine joinTerminal_accounted h hr rfl (without_tags_eraseP h ((Account.of_accounted h).ne_zero hr))
    (ids_filter _ _ _).symm (Account.filter_of_not_mem fun hm => ?_)
  obtain ⟨e, he, hid⟩ := List.mem_map.1 hm
  exact hd e he hid

theorem insert_accounted {s : State} {x : Nat} (h : Accounted s)
    (hl : s.location x = some .garage ∨ s.location x = some .unplaced) : Accounted (joinTerminal x false s) := by
  have hr : s.registered x = true := by rcases hl with hl | hl <;> rw [State.registered, hl] <;> rfl
  obtain ⟨hq, hu, hd⟩ : Account.without x (tags s) = tags s ∧ (upIds s).filter (· ≠ x) = upIds s
      ∧ (downIds s).filter (· ≠ x) = downIds s := by
    rcases hl with hl | hl <;> exact leaves_none_of_elsewhere h hl (by simp)
  exact joinTerminal_accounted h hr rfl (.of_eq hq) hu hd

/-- R73: an unidentified cabin enters. -/
theorem anonymousMove_accounted {s : State} (h : Accounted s) : Accounted (anonymousMove s) := by
  refine accounted_of_fleet h rfl ?_
  have ht : tags (anonymousMove s) = tags s ++ [(0, .anonymous)] := List.map_append
  rw [ht]
  have ha := Account.of_accounted h
  exact ha.join (by simp) ha.named (by simp) (.inl rfl)

/-- R73: an unregistered cabin enters, in place of an older record of its id. -/
theorem foreignMove_accounted {s : State} {x : Nat} (h : Accounted s) (hx : x ≠ 0) (hr : s.registered x = false) :
    Accounted (foreignMove x s) := by
  have ha := Account.of_accounted h
  have hnone : s.location x = none := by simpa [State.registered] using hr
  refine accounted_of_fleet h rfl ?_
  have ht : tags (foreignMove x s) = (s.ct.queue.eraseP (foreignOf x)).map (fun c => (c.id, c.identity))
      ++ [(x, .foreign)] := List.map_append
  rw [ht]
  cases hf : s.ct.queue.find? (foreignOf x) with
  | none =>
    have hn : ∀ c ∈ s.ct.queue, ¬ foreignOf x c = true := List.find?_eq_none.1 hf
    rw [List.eraseP_of_forall_not hn]
    refine ha.join (by simp) hnone (by simpa using hx) (.inr fun hm => ?_)
    obtain ⟨c, hc, hid⟩ := List.mem_map.1 (tags_fst s ▸ hm)
    have hident := ha.identity _ (List.mem_map_of_mem (f := fun c : Cabin => (c.id, c.identity)) hc)
    refine hn c hc ?_
    simp only [hid, hnone, Option.isSome_none, Bool.false_eq_true, iff_false, hx] at hident
    cases hi : c.identity <;> simp_all [foreignOf]
  | some c =>
    have hc := List.find?_some hf
    obtain ⟨hi, hid⟩ : c.identity = .foreign ∧ c.id = x := by simpa [foreignOf] using hc
    have hperm := tags_eraseP hf
    rw [hid, hi] at hperm
    refine ((ha.perm hperm (.refl _) (.refl _)).drop (by simp)).join (by simp) hnone (by simpa using hx) (.inr ?_)
    have hnd := (List.nodup_append'.1 (List.nodup_append'.1 ha.once).1).1
    have hnd' := ((hperm.map Prod.fst).filter (· ≠ 0)).nodup_iff.1 hnd
    rw [List.map_cons, List.filter_cons_of_pos (by simpa using hx)] at hnd'
    exact fun hm => (List.nodup_cons.1 hnd').1 (List.mem_filter.2 ⟨hm, by simpa using hx⟩)

end Sys2Proof.Machine
end

section
/-! Every move keeps each registered cabin in the collection of its location (R69, R71): the cabins that leave the terminal,
the desk's and the loader's writes of the fleet, and the notices of the summit. -/

namespace Sys2Proof.Machine

open Sys2Proof.Safety

/-! ## Cabins that leave the terminal -/

/-- R71: an unregistered record leaves the queue. -/
theorem drop_accounted {s t : State} {c : Cabin} {p : Cabin → Bool} (h : Accounted s)
    (hf : s.ct.queue.find? p = some c) (hc : c.identity ≠ .registered) (hfleet : t.ct.fleet = s.ct.fleet)
    (hq : t.ct.queue = s.ct.queue.eraseP p) (hu : upIds t = upIds s) (hd : downIds t = downIds s) : Accounted t := by
  refine accounted_of_fleet h hfleet ?_
  have ht : tags t = (s.ct.queue.eraseP p).map fun c => (c.id, c.identity) := by rw [tags, hq]
  rw [ht, hu, hd]
  exact ((Account.of_accounted h).perm (tags_eraseP hf) (.refl _) (.refl _)).drop hc

/-- A REGISTERED record is of a registered cabin, whose location is the terminal. -/
theorem location_of_registered {s : State} {c : Cabin} (h : Accounted s) (hmem : c ∈ s.ct.queue)
    (hc : c.identity = .registered) : s.location c.id = some .terminal := by
  have ha := Account.of_accounted h
  have htag : (c.id, c.identity) ∈ tags s := List.mem_map_of_mem (f := fun c : Cabin => (c.id, c.identity)) hmem
  obtain ⟨l, hl⟩ := Option.isSome_iff_exists.1 (((ha.identity _ htag).1).1 hc)
  have : l = .terminal := (ha.terminal _ l hl).2 (List.mem_map_of_mem (f := Prod.fst) htag)
  exact this ▸ hl

/-- R71, R84, R87: a REGISTERED record leaves the queue, and its cabin takes another location. -/
theorem depart_accounted {s t : State} {c : Cabin} {p : Cabin → Bool} {l : Location} (h : Accounted s)
    (hf : s.ct.queue.find? p = some c) (hc : c.identity = .registered) (hl : l ≠ .terminal)
    (hfleet : t.ct.fleet = (setLocation c.id l s).ct.fleet) (hq : t.ct.queue = s.ct.queue.eraseP p)
    (hu : upIds t = upIds s ++ Account.placed (l = .uphill) c.id)
    (hd : downIds t = downIds s ++ Account.placed (l = .downhill) c.id) : Accounted t := by
  have ha := Account.of_accounted h
  have hloc := location_of_registered h (List.mem_of_find?_eq_some hf) hc
  have hr : s.registered c.id = true := by rw [State.registered, hloc]; rfl
  have ht : tags t = (s.ct.queue.eraseP p).map fun c => (c.id, c.identity) := by rw [tags, hq]
  refine accounted_relocate h hr l hfleet ?_ (.of_eq ?_) (.of_eq ?_)
  · have hempty : Account.placed (decide (l = .terminal)) (c.id, Identity.registered) = [] := by
      rw [decide_eq_false hl]
      rfl
    rw [hempty, List.append_nil, ht]
    exact ha.without_perm (r := (c.id, c.identity)) (ha.ne_zero hr) (tags_eraseP hf)
  · rw [hu, Account.filter_of_not_mem (ha.not_mem_up hloc (by simp))]
  · rw [hd, Account.filter_of_not_mem (ha.not_mem_down hloc (by simp))]

/-- R84: a launch. -/
theorem launchMove_accounted {s : State} {c d : Cabin} (h : Accounted s) (hd : s.launchHead = some d)
    (hc : d.key = c.key) : Accounted (launchMove c s) := by
  obtain ⟨hid, hident, -⟩ : d.id = c.id ∧ d.identity = c.identity ∧ d.zone = c.zone := by
    simpa [Cabin.key] using hc
  have hfind : s.ct.queue.find? (fun r => r.zone == s.launchZone) = some d := hd
  unfold launchMove
  dsimp only
  split_ifs with h1 h2
  · exact drop_accounted h hfind (hident.symm ▸ h1) rfl rfl rfl rfl
  · refine depart_accounted (l := .uphill) h hfind (hident.trans (by simpa using h1)) (by simp) ?_ rfl ?_ ?_
    · rw [hid]
      rfl
    · rw [hid]
      exact List.map_append
    · exact (List.append_nil _).symm
  · refine depart_accounted (l := .unplaced) h hfind (hident.trans (by simpa using h1)) (by simp) ?_ rfl ?_ ?_
    · rw [hid]
      rfl
    · exact (List.append_nil _).symm
    · exact (List.append_nil _).symm

/-- R87: WITHDRAW. -/
theorem withdrawMove_accounted {s : State} {x : Nat} {c : Cabin} (h : Accounted s)
    (hc : s.ct.queue.find? (withdrawNames x s) = some c) : Accounted (withdrawMove x c s) := by
  unfold withdrawMove
  dsimp only
  split_ifs with h1
  · exact depart_accounted (l := .garage) h hc h1 (by simp) rfl rfl (List.append_nil _).symm (List.append_nil _).symm
  · exact drop_accounted h hc h1 rfl rfl rfl rfl

/-! ## The desk's cabin requests -/

/-- R88: the oldest ANONYMOUS record takes the id of a cabin UNPLACED or DOWNHILL. -/
theorem assignMove_accounted {s : State} {x : Nat} {c : Cabin} (h : Accounted s)
    (hc : s.ct.queue.find? isAnonymous = some c)
    (hl : s.location x = some .unplaced ∨ s.location x = some .downhill) : Accounted (assignMove x s) := by
  have ha := Account.of_accounted h
  have hr : s.registered x = true := by rcases hl with hl | hl <;> rw [State.registered, hl] <;> rfl
  have hout : x ∉ (tags s).map Prod.fst ∧ x ∉ upIds s := by
    rcases hl with hl | hl <;> exact ⟨ha.not_mem_queue hl (by simp), ha.not_mem_up hl (by simp)⟩
  obtain ⟨front, a, back, hqueue, -, hanon, hmod⟩ := (modifyFirst_cases isAnonymous
      (fun r => { r with id := x, identity := .registered }) s.ct.queue).resolve_left fun hn => by
    have := hn.1 c (List.mem_of_find?_eq_some hc)
    rw [List.find?_some hc] at this
    cases this
  have hident : a.identity = .anonymous := by simpa [isAnonymous] using hanon
  have hperm : (tags s).Perm ((a.id, a.identity) :: (front ++ back).map fun c => (c.id, c.identity)) := by
    rw [tags, hqueue]
    simp [List.perm_middle]
  -- The ANONYMOUS record leaves, and the cabin joins in its place.
  have hdrop := (ha.perm hperm (.refl _) (.refl _)).drop (by simp [hident])
  have hrest : x ∉ ((front ++ back).map fun c => (c.id, c.identity)).map Prod.fst := fun hm =>
    hout.1 ((hperm.map Prod.fst).mem_iff.2 (by rw [List.map_cons]; exact List.mem_cons_of_mem _ hm))
  have hfleet : cabins (assignMove x s) = cabins (setLocation x .terminal s) := rfl
  refine (accounted_iff _).2 ⟨?_, hdrop.relocate (ha.ne_zero hr) .terminal ?_ ?_ ?_ fun y => ?_⟩
  · rw [hfleet, ids_setLocation]
    exact h.slots
  · rw [Account.without_of_not_mem hrest]
    have ht : tags (assignMove x s) = (front ++ { a with id := x, identity := .registered } :: back).map
        fun c => (c.id, c.identity) := by
      rw [← hmod]
      rfl
    rw [ht]
    simpa [Account.placed] using (List.perm_append_singleton _ _).trans List.perm_middle.symm
  · rw [Account.filter_of_not_mem hout.2]
    exact .of_eq (List.append_nil _)
  · refine .of_eq ((List.append_nil _).trans ?_)
    exact (ids_filter _ _ _).symm
  · rw [← location_setLocation h.slots hr, location_eq_locate, hfleet, location_eq_locate]

/-- R89: PLACE. -/
theorem placeMove_accounted {s : State} {x off : Nat} {l : Location} (h : Accounted s)
    (hx : s.location x = some .unplaced) (hl : l ≠ .terminal) : Accounted (placeMove x l off s) := by
  have hr : s.registered x = true := by rw [State.registered, hx]; rfl
  obtain ⟨hq, hu, hd⟩ := leaves_none_of_elsewhere h hx (by simp)
  refine accounted_relocate h hr l ?_ (.of_eq ?_) (.of_eq ?_) (.of_eq ?_)
  · cases l <;> rfl
  · rw [hq]
    cases l
    case terminal => exact absurd rfl hl
    all_goals exact List.append_nil _
  · rw [hu]
    cases l
    case uphill => simp [upIds, placeMove, setLocation, Account.placed]
    all_goals exact List.append_nil _
  · rw [hd]
    cases l
    case downhill => simp [downIds, placeMove, setLocation, Account.placed]
    all_goals exact List.append_nil _

/-! ## Fleet writes -/

theorem setSlot_of_large {s : State} {slot : Nat} (h : ¬ slot < 160) (c : Option FleetCabin) : setSlot slot c s = s := by
  have : s.ct.fleet.setIfInBounds slot c = s.ct.fleet := by
    apply Vector.toList_inj.1
    rw [Vector.toList_setIfInBounds]
    exact List.set_eq_of_length_le (by simpa using h)
  rw [setSlot, this]

/-- R70: a cabin is registered, GARAGE or UNPLACED. -/
theorem registers_accounted {s : State} {slot x : Nat} {l : Location} (h : Accounted s)
    (hs : s.ct.fleet[slot]?.getD none = none) (hx : 1 ≤ x) (hr : s.registered x = false)
    (hq : ∀ c ∈ s.ct.queue, c.id ≠ x) (hl : l = .garage ∨ l = .unplaced) :
    Accounted (setSlot slot (some { id := x, location := l }) s) := by
  by_cases hslot : slot < 160
  · have ha := Account.of_accounted h
    have hnone : s.location x = none := by simpa [State.registered] using hr
    obtain ⟨hup, hdown⟩ := ha.not_mem_lists hnone
    obtain ⟨front, back, hold, hcabins⟩ := cabins_setSlot hslot (some { id := x, location := l }) (s := s)
    rw [hs] at hold
    have hperm : (cabins (setSlot slot (some { id := x, location := l }) s)).Perm ({ id := x, location := l } :: cabins s) := by
      rw [hold, hcabins]
      simp [List.perm_middle]
    have hnew : x ∉ (cabins s).map (·.id) := by
      rw [← locate_isSome, ← location_eq_locate, hnone]
      simp
    have hslots : ((cabins (setSlot slot (some { id := x, location := l }) s)).map (·.id)).Nodup :=
      (hperm.map _).nodup_iff.2 (List.nodup_cons.2 ⟨hnew, h.slots⟩)
    refine (accounted_iff _).2 ⟨hslots, ha.relocate (x := x) (by omega) l (.of_eq ?_) (.of_eq ?_) (.of_eq ?_) fun y => ?_⟩
    · rw [Account.without_of_not_mem]
      · rcases hl with rfl | rfl <;> exact List.append_nil _
      · rw [tags_fst]
        intro hm
        obtain ⟨c, hc, hid⟩ := List.mem_map.1 hm
        exact hq c hc hid
    · rw [Account.filter_of_not_mem hup]
      rcases hl with rfl | rfl <;> exact List.append_nil _
    · rw [Account.filter_of_not_mem hdown]
      rcases hl with rfl | rfl <;> exact List.append_nil _
    · refine Option.ext fun k => ?_
      rw [location_eq_locate, locate_eq_some hslots, hperm.mem_iff, List.mem_cons, ← locate_eq_some h.slots,
        ← location_eq_locate]
      by_cases hy : y = x
      · simp [hy, hnone, eq_comm]
      · simp [hy]
  · rw [setSlot_of_large hslot]
    exact h

/-- R70: a cabin in the GARAGE or UNPLACED is unregistered. -/
theorem unregisters_accounted {s : State} {slot : Nat} {x : FleetCabin} (h : Accounted s)
    (hs : s.ct.fleet[slot]?.getD none = some x) (hl : x.location = .garage ∨ x.location = .unplaced) :
    Accounted (setSlot slot none s) := by
  by_cases hslot : slot < 160
  · have ha := Account.of_accounted h
    obtain ⟨front, back, hold, hnew⟩ := cabins_setSlot hslot none (s := s)
    rw [hs] at hold
    have hperm : (cabins s).Perm (x :: cabins (setSlot slot none s)) := by
      rw [hold, hnew]
      simp [List.perm_middle]
    obtain ⟨hnot, hslots⟩ := List.nodup_cons.1 ((hperm.map (·.id)).nodup_iff.1 h.slots)
    have hx : s.location x.id = some x.location := by
      rw [location_eq_locate, locate_eq_some h.slots, hperm.mem_iff]
      exact List.mem_cons_self
    refine (accounted_iff _).2 ⟨hslots, ha.unregister hx hl fun y => Option.ext fun k => ?_⟩
    rw [location_eq_locate, locate_eq_some hslots]
    by_cases hy : y = x.id
    · rw [if_pos hy]
      simp only [reduceCtorEq, iff_false]
      exact fun hm => hnot (List.mem_map.2 ⟨_, hm, hy⟩)
    · rw [if_neg hy, location_eq_locate, locate_eq_some h.slots, hperm.mem_iff, List.mem_cons]
      have hne : (⟨y, k⟩ : FleetCabin) ≠ x := fun e => hy (e ▸ rfl)
      simp [hne]
  · rw [setSlot_of_large hslot]
    exact h

/-! ## The summit's notices -/

/-- R145: a cabin has arrived at the summit. -/
theorem arriveMove_accounted {s : State} {x : Nat} {e : UpEntry} (h : Accounted s)
    (he : s.ct.uphill.find? (fun e => e.id == x) = some e) : Accounted (arriveMove x s) := by
  have ha := Account.of_accounted h
  have hmem : x ∈ upIds s := by
    have hid : e.id = x := by simpa using List.find?_some he
    exact List.mem_map.2 ⟨e, List.mem_of_find?_eq_some he, hid⟩
  have hr : s.registered x = true := ha.lists x (List.mem_append_left _ hmem)
  obtain ⟨l, hx⟩ := Option.isSome_iff_exists.1 hr
  have hloc : l = .uphill := (ha.uphill x l hx).2 hmem
  subst hloc
  have hnd : (upIds s).Nodup := (List.nodup_append'.1 (List.nodup_append'.1 ha.once).1).2.1
  refine accounted_relocate h hr .summit rfl (.of_eq ?_) (.of_eq ?_) (.of_eq ?_)
  · rw [Account.without_of_not_mem (ha.not_mem_queue hx (by simp))]
    exact List.append_nil _
  · exact (List.append_nil _).trans (ids_eraseP _ _ hnd).symm
  · rw [Account.filter_of_not_mem (ha.not_mem_down hx (by simp))]
    exact List.append_nil _

/-- R146: the summit has launched a cabin. -/
theorem summitMove_accounted {s : State} {x : Nat} (h : Accounted s) (hr : s.registered x = true) :
    Accounted (summitMove x s) := by
  refine accounted_relocate h hr .downhill rfl ?_ (.of_eq ?_) (.of_eq ?_)
  · exact (List.append_nil _).symm ▸ without_tags_eraseP h ((Account.of_accounted h).ne_zero hr)
  · exact (List.append_nil _).trans (ids_filter _ _ _).symm
  · rw [downIds, ← ids_filter]
    simp [downIds, summitMove, setLocation, Account.placed]

/-! ## Every move -/

theorem accounted_of_lineOnly {s t : State} (h : Accounted s) (hl : LineOnly s t) : Accounted t := by
  refine accounted_of_eq h (by rw [hl.ct]) ?_ ?_ ?_
  · rw [tags, hl.ct, tags]
  · rw [upIds, hl.ct, upIds]
  · rw [downIds, hl.ct, downIds]

theorem tags_of_keys {s t : State} (h : t.ct.queue.map Cabin.key = s.ct.queue.map Cabin.key) : tags t = tags s := by
  have hk : ∀ u : State, tags u = (u.ct.queue.map Cabin.key).map fun x => (x.1, x.2.1) := fun u => by
    rw [List.map_map]
    rfl
  rw [hk, hk, h]

theorem blocksReset_accounted (straps : Straps) (now n : Nat) (pending : List Instr) :
    Accounted (State.blocksReset straps now n pending) := by
  have hc : cabins (State.blocksReset straps now n pending) = [] := by
    simp [cabins, State.blocksReset, CabinTracker.reset, Vector.toList_replicate]
  refine (accounted_iff _).2 ⟨by rw [hc]; exact List.nodup_nil, ?_⟩
  have hloc : (State.blocksReset straps now n pending).location = fun _ => none := funext fun x => by
    rw [location_eq_locate, hc]
    rfl
  rw [hloc]
  exact ⟨List.nodup_nil, nofun, nofun, nofun, nofun, nofun, rfl⟩

/-- Every move keeps each registered cabin in the collection of its location. -/
theorem move_accounted {k : Allow} {s t : State} (m : Move k s t) (h : Accounted s) : Accounted t := by
  cases m with
  | tame ht =>
    exact accounted_of_eq h (congrArg Watched.fleet ht.watch)
      (tags_of_keys (congrArg Watched.queue ht.watch))
      (congrArg Watched.uphill ht.watch) (congrArg Watched.downhill ht.watch)
  | raised f => exact accounted_of_lineOnly h (raiseCore_lineOnly f s)
  | gone src code => exact accounted_of_lineOnly h (goneCore_lineOnly src code s)
  | unbypass c =>
    refine accounted_of_lineOnly (s := setChan c _ s) ?_ (goneCore_lineOnly _ _ _)
    exact accounted_of_eq h rfl rfl rfl rfl
  | params p hp =>
    obtain ⟨u, hu, hl⟩ := writeParams_frame p s
    refine accounted_of_lineOnly ?_ hl
    rcases hu with rfl | rfl
    · exact accounted_of_eq h rfl rfl rfl rfl
    · exact accounted_of_eq h rfl List.map_map List.map_map List.map_map
  | still ra hra => exact accounted_of_eq h rfl rfl rfl rfl
  | rope hk e n t => exact accounted_of_eq h rfl rfl rfl rfl
  | startExit hk hl => exact accounted_of_lineOnly h (enterLine_lineOnly _ s)
  | rest hk hl => exact accounted_of_lineOnly h (enterLine_lineOnly _ s)
  | start hk d hl hd => exact accounted_of_lineOnly h ((setDesk_lineOnly d s).trans (enterLine_lineOnly _ _))
  | desk hk d hd hl => exact accounted_of_lineOnly h ((setDesk_lineOnly d s).trans (reform_lineOnly _))
  | cleared hk n e he hc => exact accounted_of_lineOnly h (clearEntry_lineOnly n s)
  | bypassed hk c b =>
    refine accounted_of_lineOnly (s := setChan c _ s) ?_ (raiseCore_lineOnly _ _)
    exact accounted_of_eq h rfl rfl rfl rfl
  | anonymous hk hq => exact anonymousMove_accounted h
  | foreign hk x hx hr hq => exact foreignMove_accounted h hx hr
  | oldest hk x e hd he hr hq => exact oldestMove_accounted h hd he hr
  | outOfOrder hk x hd hr hq => exact outOfOrderMove_accounted h hd hr
  | unknown hk x hd hr hq => exact unknownMove_accounted h hd hr
  | insert hk x hl hq => exact insert_accounted h hl
  | zone hk z bad hr =>
    refine accounted_of_eq h rfl (map_modifyFirst _ _ _ ?_ _) rfl rfl
    exact fun _ => rfl
  | launched hk c d hd hc => exact launchMove_accounted h hd hc
  | withdrawn hk x c hc => exact withdrawMove_accounted h hc
  | assigned hk x c hc hx hl => exact assignMove_accounted h hc hl
  | placed hk x loc off hl ht hf => exact placeMove_accounted h hl ht.1
  | registers hk slot x loc hs hx hr hq hl => exact registers_accounted h hs hx hr hq hl
  | unregisters hk slot x hs hl => exact unregisters_accounted h hs hl
  | arrived hk x e he => exact arriveMove_accounted h he
  | summit hk x hr hf => exact summitMove_accounted h hr
  | reported hk f hf => exact accounted_of_eq h rfl rfl rfl rfl
  | reportSent hk f q n hf => exact accounted_of_eq h rfl rfl rfl rfl
  | tripReset hk hp hl => exact accounted_of_lineOnly h (clearTrips_lineOnly s)
  | reset hk straps => exact blocksReset_accounted _ _ _ _

/-- Settles O7: each move keeps the account of cabins, so every step does. -/
theorem cabinsAccountedByEveryStep : Obligations.CabinsAccountedByEveryStep :=
  fun _ _ h hstep => step_keeps (fun _ _ m => move_accounted m) hstep h

/-- Settles O11: the reset case of each invariant's move lemma. -/
theorem resetMeetsTheInvariants : Obligations.ResetMeetsTheInvariants :=
  ⟨blocksReset_demandKept _ _ _ _, blocksReset_accounted _ _ _ _,
    (trackOrdered_iff _).2 ⟨List.Pairwise.nil, fun _ _ _ => Nat.zero_le 1, Nat.zero_le 2⟩,
    blocksReset_withinCapacity _ _ _ _, ropeInRange_blocksReset _ _ _ _⟩

end Sys2Proof.Machine
end

section
/-! The step, the reset pin and reset (chapter 11), and the layouts of chapter 12. -/

namespace Sys2Proof.Machine

open Sys2Proof.Safety

/-! ## The step -/

/-- Settles O1. -/
theorem stepRunsTheFrontCommand : Obligations.StepRunsTheFrontCommand := fun _ _ _ => rfl

/-- Settles O2. -/
theorem emptyQueuePassesAMillisecond : Obligations.EmptyQueuePassesAMillisecond := fun _ => rfl

/-! ## Flags as a change of DR alone -/

/-- R191: DR with a flag set. -/
def flagged (f : Flag) (d : DeskUnit) : DeskUnit :=
  if d.flags.getLsbD f.bit then d
  else { d with flags := d.flags ||| f.mask, owed := d.owed ||| (d.enable &&& f.mask) }

theorem setFlag_eq (f : Flag) (s : State) : setFlag f s = { s with dr := flagged f s.dr } := by
  cases h : s.dr.flags.getLsbD f.bit <;> simp [setFlag, flagged, State.flag, h]

/-! ## The reset pin -/

/-- R206: while the pin is low an event has no effect. -/
theorem event_of_held {s : State} (h : s.resetHeld = true) (f : State → State) : event f s = .next s := by
  rw [event, h, if_pos rfl]

theorem event_of_released {s : State} (h : s.resetHeld = false) (f : State → State) : event f s = .next (f s) := by
  rw [event, h, if_neg (by simp)]

/-- R198, R202: the end of the start-up load while the link is DOWN and no profile is pending. -/
theorem loadEnd_eq_loadEnded (o : StartOutcome) {s : State} (hl : s.sl.link = .down) (hp : s.cl.pending = none) :
    loadEnd o s = loadEnded o s := by
  simp only [loadEnd, restartDetection, enterSyncing, setLink, hl, reduceCtorEq, if_false, setFlag_eq, pendingProfile,
    afterProfile, hp, loadEnded]
  split <;> rfl

/-- Settles O3. -/
theorem resetPinAndItsEnd : Obligations.ResetPinAndItsEnd := by
  refine ⟨fun s h => event_of_released h _, fun c s h hc => ?_, fun straps s h => ⟨fun hm => ?_, fun hm => ?_⟩⟩
  · cases c with
    | resetEnd straps => exact absurd rfl (hc straps)
    | _ => exact event_of_held h _
  · simp only [exec, execResetEnd, h, if_pos, resetPart, hm]
  · simp only [exec, execResetEnd, h, if_pos, resetPart, hm, Bool.false_eq_true, if_false]
    rw [loadEnd_eq_loadEnded] <;> rfl

/-! ## The values after reset -/

section
variable (straps : Straps) (now free : Nat) (queue : List Instr)

theorem chan_blocksReset (c : Nat) : (State.blocksReset straps now free queue).chan c = Channel.reset := by
  rw [State.chan, State.blocksReset, ChanMon.reset, Vector.getElem?_replicate]
  split <;> rfl

theorem berth_blocksReset (j : Nat) : (State.blocksReset straps now free queue).berth j = Berth.reset := by
  rw [State.berth, State.blocksReset, DoorSeq.reset, Vector.getElem?_replicate]
  split <;> rfl

theorem phoneEntry_blocksReset (h : Nat) : (State.blocksReset straps now free queue).phoneEntry h = Phone.reset := by
  rw [State.phoneEntry, State.blocksReset, CallSwitch.reset, Vector.getElem?_replicate]
  split <;> rfl

end

/-- Settles O4. -/
theorem resetValues : Obligations.ResetValues := by
  refine ⟨rfl, fun straps now free queue => ?_⟩
  simp only [chan_blocksReset, berth_blocksReset, State.door, phoneEntry_blocksReset]
  simp [State.blocksReset, State.params, Rope.reset, ChanMon.reset, Channel.reset, LineSup.reset, CabinTracker.reset,
    Berth.reset, SummitLink.reset, CallSwitch.reset, Phone.reset, LoopRelay.reset, DeskUnit.reset, Loader.reset, LineParams.reset, Config.refreshTime]

end Sys2Proof.Machine
end

section
/-! The layouts of chapter 12 (R208, R212): a field's bytes stand where the layout puts them, so each field read back is the
field written, as far as its bytes can hold it. -/

namespace Sys2Proof.Machine

open Sys2Proof.Safety

/-! ## The bytes of a list -/

theorem u8_cons_zero (b : Byte) (bs : List Byte) : u8 (b :: bs) 0 = b.toNat := rfl

theorem u8_cons_succ (b : Byte) (bs : List Byte) (i : Nat) : u8 (b :: bs) (i + 1) = u8 bs i := rfl

/-- A field of a list whose bytes are written out. -/
theorem u8_ofNat_of_lt {n : Nat} (h : n < 256) (bs : List Byte) : u8 (BitVec.ofNat 8 n :: bs) 0 = n := by
  rw [u8_cons_zero, BitVec.toNat_ofNat, Nat.mod_eq_of_lt h]

theorem u16_cons_succ (b : Byte) (bs : List Byte) (i : Nat) : u16 (b :: bs) (i + 1) = u16 bs i := rfl

theorem u16_ofNat_of_lt {n : Nat} (h : n < 65536) (bs : List Byte) :
    u16 (BitVec.ofNat 8 (n / 256) :: BitVec.ofNat 8 n :: bs) 0 = n := by
  simp only [u16, u8_cons_zero, u8_cons_succ, BitVec.toNat_ofNat]
  omega

theorem u32_cons_succ (b : Byte) (bs : List Byte) (i : Nat) : u32 (b :: bs) (i + 1) = u32 bs i := rfl

theorem u32_ofNat_of_lt {n : Nat} (h : n < 4294967296) (bs : List Byte) :
    u32 (BitVec.ofNat 8 (n / 16777216) :: BitVec.ofNat 8 (n / 65536) :: BitVec.ofNat 8 (n / 256)
      :: BitVec.ofNat 8 n :: bs) 0 = n := by
  simp only [u32, u16, u8_cons_zero, u8_cons_succ, BitVec.toNat_ofNat]
  omega

theorem enc2_readBack {n : Nat} (h : n < 65536) : (enc2 n).length = 2 ∧ u16 (enc2 n) 0 = n :=
  ⟨rfl, u16_ofNat_of_lt h []⟩

/-! ## The codes -/

theorem ChanState.ofCode_code (x : ChanState) : ChanState.ofCode x.code = some x := by cases x <;> rfl

theorem ChanKind.ofCode_code (x : ChanKind) : ChanKind.ofCode x.code = some x := by cases x <;> rfl

theorem FaultClass.ofCode_code (x : FaultClass) : FaultClass.ofCode x.code = some x := by cases x <;> rfl

theorem BerthMode.ofCode_code (x : BerthMode) : BerthMode.ofCode x.code = some x := by cases x <;> rfl

theorem Priority.ofCode_code (x : Priority) : Priority.ofCode x.code = some x := by cases x <;> rfl

theorem ChanState.code_lt (x : ChanState) : x.code < 256 := by cases x <;> decide

theorem ChanKind.code_lt (x : ChanKind) : x.code < 256 := by cases x <;> decide

theorem FaultClass.code_lt (x : FaultClass) : x.code < 256 := by cases x <;> decide

theorem BerthMode.code_lt (x : BerthMode) : x.code < 256 := by cases x <;> decide

theorem Priority.code_lt (x : Priority) : x.code < 256 := by cases x <;> decide

/-! ## The table entries -/

theorem chanEntry_readBack (e : ChanEntry) (hn : e.node < 256) (hs : e.slot < 256) (hl : e.low < 65536)
    (hh : e.high < 65536) (hy : e.hysteresis < 65536) (hp : e.persistence < 256) (ht : e.staleTime < 256)
    (hb : ∀ b, e.standby = some b → b < 256) (hbo : e.boundary < 256) (hsc : e.scale < 65536) (hst : e.step < 65536)
    (hsh : e.shift < 256) : e.bytes.length = 21 ∧ ChanEntry.ofBytes e.bytes = some e := by
  obtain ⟨state, node, slot, kind, low, high, hysteresis, persistence, staleTime, cls, standby, boundary, scale, step,
    shift⟩ := e
  cases standby with
  | none =>
    refine ⟨rfl, ?_⟩
    simp [ChanEntry.bytes, ChanEntry.ofBytes, enc1, enc2, encOpt1, u8_cons_succ, u16_cons_succ, u8_ofNat_of_lt,
      u16_ofNat_of_lt, ChanState.ofCode_code, ChanKind.ofCode_code, FaultClass.ofCode_code, ChanState.code_lt,
      ChanKind.code_lt, FaultClass.code_lt, *]
  | some b =>
    refine ⟨rfl, ?_⟩
    have hb' := hb b rfl
    simp [ChanEntry.bytes, ChanEntry.ofBytes, enc1, enc2, encOpt1, u8_cons_succ, u16_cons_succ, u8_ofNat_of_lt,
      u16_ofNat_of_lt, ChanState.ofCode_code, ChanKind.ofCode_code, FaultClass.ofCode_code, ChanState.code_lt,
      ChanKind.code_lt, FaultClass.code_lt, *]

theorem lineParams_readBack (p : LineParams) (h : LineAllowed p) :
    p.bytes.length = 46 ∧ LineParams.ofBytes p.bytes = p := by
  obtain ⟨hloop, hup, hdown, htol, hspace, hzero, ⟨hrun, hslow, hexit⟩, ⟨hl1, hl2, hl3, hl4⟩, hrev, ⟨⟨-, ht1⟩, -, ht2⟩,
    hbyp, hidle, hdesk, hdrive, hconv, hwarn⟩ := h
  unfold LineParams.bytes
  simp (disch := omega) only [enc1, enc2, enc4, List.cons_append, List.nil_append, LineParams.ofBytes, u8_cons_succ,
    u16_cons_succ, u32_cons_succ, u8_ofNat_of_lt, u16_ofNat_of_lt, u32_ofNat_of_lt]
  exact ⟨rfl, trivial⟩

theorem berthEntry_readBack (e : BerthEntry) (h : BerthAllowed e) :
    e.bytes.length = 10 ∧ BerthEntry.ofBytes e.bytes = some e := by
  obtain ⟨hn, ho, ⟨-, hd⟩, ⟨-, hg⟩, ⟨-, hr⟩, ht, ⟨-, hm⟩, -, hh⟩ := h
  obtain ⟨mode, doorNode, openDelay, dwell, gatherWindow, reopenDwell, retries, motionLimit, holdLimit⟩ := e
  refine ⟨rfl, ?_⟩
  dsimp only at *
  simp (disch := omega) only [BerthEntry.bytes, enc1, enc2, List.cons_append, List.nil_append, BerthEntry.ofBytes,
    u8_cons_succ, u16_cons_succ, u8_ofNat_of_lt mode.code_lt, BerthMode.ofCode_code, Option.map_some, u8_ofNat_of_lt,
    u16_ofNat_of_lt]

theorem phone_readBack (e : Phone) (h : e.node < 256) : e.bytes.length = 3 ∧ Phone.ofBytes e.bytes = some e := by
  obtain ⟨node, priority, ringGroup⟩ := e
  refine ⟨rfl, ?_⟩
  have hmark : markAt [BitVec.ofNat 8 node, BitVec.ofNat 8 priority.code, if ringGroup then 1#8 else 0#8] 2
      = ringGroup := by
    cases ringGroup <;> simp [markAt]
  simp only [Phone.bytes, enc1, encMark, List.cons_append, List.nil_append, Phone.ofBytes, u8_cons_succ, hmark,
    u8_ofNat_of_lt priority.code_lt, u8_ofNat_of_lt h, Priority.ofCode_code, Option.map_some]

/-- Settles O12. -/
theorem tableEntriesReadBack : Obligations.TableEntriesReadBack :=
  ⟨fun e hn hs hl hh hy hp ht hb hbo hsc hst hsh => chanEntry_readBack e hn hs hl hh hy hp ht hb hbo hsc hst hsh,
    lineParams_readBack, berthEntry_readBack, phone_readBack, fun _ h => enc2_readBack h⟩

/-! ## The loop frame -/

theorem u16_append_right (xs ys : List Byte) (i : Nat) : u16 (xs ++ ys) (xs.length + i) = u16 ys i := by
  simp only [u16, u8, Nat.add_assoc, List.getD_append_right _ _ _ _ (Nat.le_add_right _ _), Nat.add_sub_cancel_left]

/-- The check field of a completed frame. -/
theorem frameBytes_check (dest source kind tag : Byte) (payload : List Byte) :
    BitVec.ofNat 16 (u16 (frameBytes dest source kind tag payload)
        ((frameBytes dest source kind tag payload).length - 2))
      = crc16 ([dest, source, kind, tag, BitVec.ofNat 8 payload.length] ++ payload) := by
  have hread := u16_append_right ([dest, source, kind, tag, BitVec.ofNat 8 payload.length] ++ payload)
    (enc2 (crc16 ([dest, source, kind, tag, BitVec.ofNat 8 payload.length] ++ payload)).toNat) 0
  rw [(enc2_readBack (BitVec.isLt _)).2] at hread
  have hsize : (frameBytes dest source kind tag payload).length - 2
      = ([dest, source, kind, tag, BitVec.ofNat 8 payload.length] ++ payload).length + 0 := by
    simp [frameBytes, enc2]
  rw [hsize, frameBytes, hread]
  exact BitVec.ofNat_toNat _ _

/-- Settles O13: the body and its check field stand where the reader looks for them. -/
theorem loopFramesReadBack : Obligations.LoopFramesReadBack := by
  intro dest source kind tag payload hd hs hs' hlen
  have hlength : payload.length < 256 := by omega
  have hcheck := frameBytes_check dest source kind tag payload
  set body := [dest, source, kind, tag, BitVec.ofNat 8 payload.length] ++ payload with hbody
  have hframe : frameBytes dest source kind tag payload = body ++ enc2 (crc16 body).toNat := rfl
  have htotal : (frameBytes dest source kind tag payload).length = payload.length + 7 := by
    rw [hframe, hbody]
    simp [enc2]
  have hsize : payload.length + 7 - 2 = body.length := by
    rw [hbody]
    simp
  rw [htotal, hsize] at hcheck
  have hn : u8 (frameBytes dest source kind tag payload) 4 = payload.length :=
    u8_ofNat_of_lt hlength (payload ++ enc2 (crc16 body).toNat)
  have htake : (frameBytes dest source kind tag payload).take body.length = body := by
    rw [hframe, List.take_left]
  have hpayload : ((frameBytes dest source kind tag payload).drop 5).take payload.length = payload := List.take_left
  have hne : ∀ {b c : Byte}, b ≠ c → b.toNat ≠ c.toNat := fun h e => h (BitVec.eq_of_toNat_eq e)
  simp only [parseFrame, hn, htotal, hsize, hcheck, htake, hpayload]
  rw [if_pos ⟨by omega, hlen, trivial, hne hd, hne hs, hne hs', trivial⟩]
  rfl

end Sys2Proof.Machine
end

section
/-! The loop (chapter 9): arriving frames, LOOP-OUT, and the insertion of the part's own frames. -/

namespace Sys2Proof.Machine

open Sys2Proof.Safety

/-! ## Returned frames (R177, R178) -/

theorem matchesFrame_iff (e : OutEntry) (f : Frame) :
    e.matchesFrame f = true ↔ e.kind = f.kind ∧ e.dest = f.dest ∧ e.tag = f.tag ∧ e.check = f.check := by
  simp [OutEntry.matchesFrame, and_assoc]

/-- R177: no entry is the returned frame's. -/
theorem strip_of_unlisted {f : Frame} {s : State} (h : ∀ e ∈ s.lr.outstanding, ¬ e.matchesFrame f = true) :
    strip f s = s := by
  have hnone : s.lr.outstanding.findIdx? (fun e => e.matchesFrame f) = none := by
    rw [List.findIdx?_eq_none_iff]
    simpa using h
  rw [strip, hnone]

/-- R177: the oldest entry of the returned frame leaves with every older one. -/
theorem strip_of_listed {f : Frame} {s : State} {older newer : List OutEntry} {e : OutEntry}
    (hl : s.lr.outstanding = older ++ e :: newer) (he : e.matchesFrame f = true)
    (hold : ∀ d ∈ older, ¬ d.matchesFrame f = true) :
    strip f s = loopReturn ((if older = [] then id else setFlag .loopErr)
      { s with lr := { s.lr with outstanding := newer } }) := by
  have hidx : s.lr.outstanding.findIdx? (fun e => e.matchesFrame f) = some older.length := by
    rw [hl, List.findIdx?_append, List.findIdx?_eq_none_iff.2 (by simpa using hold), List.findIdx?_cons, if_pos he]
    simp
  have hdrop : s.lr.outstanding.drop (older.length + 1) = newer := by
    rw [hl, List.drop_append, Nat.add_sub_cancel_left, List.drop_of_length_le (Nat.le_succ _)]
    rfl
  rw [strip, hidx]
  simp only [hdrop, List.length_eq_zero_iff]
  split_ifs <;> rfl

/-- R178: the loop closes; a loop that was open withdraws LOOP_OPEN. -/
theorem loopReturn_of_flagged (older newer : List OutEntry) (s : State) :
    loopReturn ((if older = [] then id else setFlag .loopErr) { s with lr := { s.lr with outstanding := newer } })
      = let t := (if older = [] then id else setFlag .loopErr)
          { s with lr := { s.lr with outstanding := newer, loop := .closed } }
        if s.lr.loop = .opened then gone .loop .loopOpen t else t := by
  unfold loopReturn
  split_ifs <;> simp_all [setFlag_eq]

/-! ## Arriving frames -/

theorem consume_of_other {f : Frame} (h : f.kind ∉ [0x10, 0x21, 0x40, 0x41, 0x50]) (s : State) : consume f s = s := by
  simp only [List.mem_cons, List.not_mem_nil, or_false, not_or] at h
  obtain ⟨h1, h2, h3, h4, h5⟩ := h
  rw [consume, if_neg h1, if_neg h2, if_neg h3, if_neg h4, if_neg h5]

theorem consume_of_request {f : Frame} (h : f.kind = 0x50) (s : State) : consume f s = queueRequest f s := by
  rw [consume, h]
  rfl

/-- Settles O16. -/
theorem loopFramesJudged : Obligations.LoopFramesJudged := by
  intro bytes s hpin
  have hrun : exec (.loopFrameReceived bytes) s = .next (frameReceived bytes s) := event_of_released hpin _
  rw [hrun]
  refine ⟨fun hp => ?_, fun f hp => ?_⟩
  · rw [frameReceived, hp]
  have hown : f.source = s.ownAddress → frameReceived bytes s = strip f s := fun h => by
    rw [frameReceived, hp]
    exact if_pos h
  have hconsume : f.source ≠ s.ownAddress → f.dest = s.ownAddress → frameReceived bytes s = consume f s := fun h1 h2 => by
    simp only [frameReceived, hp, h1, h2, if_true, if_false]
  have hforward : f.source ≠ s.ownAddress → f.dest ≠ s.ownAddress → ¬ (f.dest = 127 ∧ f.kind = 0x10) →
      frameReceived bytes s = forwardFrame bytes s := fun h1 h2 h3 => by
    simp only [frameReceived, hp, h1, h2, h3, if_false]
  intro own
  have hiff : ∀ e, own e ↔ e.matchesFrame f = true := fun e => (matchesFrame_iff e f).symm
  simp only [hiff]
  refine ⟨fun h hn => ?_, fun older e newer h hl he hold hloop => ?_, fun older e newer h hl he hold hloop hset => ?_,
    fun h1 h2 hk => ?_, fun h1 h2 hk hroom => ?_, fun h1 h2 hk hroom => ?_, fun h1 h2 h3 => ?_⟩
  · rw [hown h, strip_of_unlisted hn]
  · rw [hown h, strip_of_listed hl he hold, loopReturn_of_flagged]
    simp only [hloop, if_false]
  · rw [hown h, strip_of_listed hl he hold, loopReturn_of_flagged]
    simp only [hloop, if_true]
    refine ⟨_, rfl, gone_withdrawn _ _ ?_⟩
    have hclosed : Settled { s with lr := { s.lr with outstanding := newer, loop := .closed } } :=
      ⟨hset.deferred, hset.waiting, hset.launched, hset.room⟩
    split_ifs
    · exact hclosed
    · exact hclosed.after (setFlag_lineOnly _ _)
  · rw [hconsume h1 h2, consume_of_other hk]
  · rw [hconsume h1 h2, consume_of_request hk, queueRequest, if_pos (show _ < Config.relayCap from hroom)]
  · rw [hconsume h1 h2, consume_of_request hk, queueRequest, if_neg (Nat.not_lt.2 (show Config.relayCap ≤ _ from hroom))]
  · rw [hforward h1 h2 h3]
    refine ⟨fun ho hr => ?_, fun ho hroom => ?_, fun hroom => ?_⟩
    · rw [forwardFrame, if_pos ⟨ho, hr⟩]
    · rw [forwardFrame, if_neg (fun h => ho.elim (· h.1) (· h.2)), if_pos (show _ < Config.relayCap from hroom)]
    · have hrelay : s.lr.relay ≠ [] := by
        rintro he
        rw [he] at hroom
        simp at hroom
      rw [forwardFrame, if_neg (fun h => hrelay h.2), if_neg (Nat.not_lt.2 (show Config.relayCap ≤ _ from hroom))]

/-! ## LOOP-OUT (R168, R176) -/

/-- R175: the outstanding entry of a completed frame. -/
theorem outEntry_frameBytes {dest source kind tag : Byte} {payload : List Byte} (now : Nat) :
    outEntry (frameBytes dest source kind tag payload) now
      = { kind := kind, dest := dest, tag := tag, deadline := now + 5,
          check := crc16 ([dest, source, kind, tag, BitVec.ofNat 8 payload.length] ++ payload) } := by
  have hcheck := frameBytes_check dest source kind tag payload
  rw [outEntry, hcheck]
  rfl

/-- Settles O17. -/
theorem loopOutSent : Obligations.LoopOutSent := by
  intro s hpin
  refine ⟨fun b hb => ⟨fun hr => ?_, fun x rest hr => ?_⟩, fun straps dest source kind tag payload _ hout => ?_,
    fun straps bytes hout hm => ?_⟩
  · rw [exec, execForwardSent, event_of_released hpin, forwardSent, hb]
    simp only [outIdle, hr]
  · rw [exec, execForwardSent, event_of_released hpin, forwardSent, hb]
    simp only [outIdle, hr]
  · have hrun : exec (.insertionEnd straps) s = .next (outIdle { s with lr := { s.lr with
        outstanding := s.lr.outstanding ++ [outEntry (frameBytes dest source kind tag payload) s.now] } }) := by
      rw [exec, execInsertionEnd, event_of_released hpin, insertionEnd, hout]
      rfl
    rw [outEntry_frameBytes] at hrun
    refine ⟨fun hr => ?_, fun x rest hr => ?_⟩
    · rw [hrun]
      simp only [outIdle, hr]
    · rw [hrun]
      simp only [outIdle, hr]
  · rw [exec, execInsertionEnd, event_of_released hpin, insertionEnd, hout]
    simp only [if_true, resetPart, hm]

/-! ## Insertion (R173, R174) -/

/-- Settles O18. -/
theorem insertionTakesTheFirstQueue : Obligations.InsertionTakesTheFirstQueue := by
  intro s hpin
  have hrun : exec .insertionStart s = .next (insertionStart s) := event_of_released hpin _
  rw [hrun]
  refine ⟨fun hbusy => ?_, fun ho hr hout f q => ?_⟩
  · rw [insertionStart, if_neg]
    rintro ⟨h1, h2, h3⟩
    rcases hbusy with hb | hb | hb
    · exact hb h1
    · exact hb h2
    · exact absurd h3 (Nat.not_lt.2 hb)
  · have hopen : s.lr.out = .idle ∧ s.lr.relay = [] ∧ s.lr.outstanding.length < Config.doorCap := ⟨ho, hr, hout⟩
    refine ⟨fun hk h1 => ?_, fun hk h1 h2 => ?_, fun hk h1 h2 h3 => ?_, fun h1 h2 h3 h4 => ?_⟩
    · rw [insertionStart, if_pos hopen]
      simp only [chooseFrame, h1, sendInserted, hk, if_false]
      rfl
    · rw [insertionStart, if_pos hopen]
      simp only [chooseFrame, h1, h2, sendInserted, hk, if_false]
      rfl
    · rw [insertionStart, if_pos hopen]
      simp only [chooseFrame, h1, h2, h3, sendInserted, hk, if_false]
      rfl
    · rw [insertionStart, if_pos hopen]
      simp only [chooseFrame, h1, h2, h3, h4, sendInserted]
      rfl

end Sys2Proof.Machine
end

section
/-! The drive requests (R62, R63) and the line's entry into a state (R55 to R64). -/

namespace Sys2Proof.Machine

open Sys2Proof.Safety

/-! ## The SAFETY queue (R170) -/

theorem offerSafety_of_absent {f : QFrame} {s : State} (h : ∀ g ∈ s.lr.safety, g.kind ≠ f.kind) :
    offerSafety f s = { s with lr := { s.lr with safety := s.lr.safety ++ [f] } } := by
  have hany : s.lr.safety.any (fun g => decide (g.kind = f.kind)) = false := by simpa using h
  simp only [offerSafety, hany, Bool.false_eq_true, if_false]

theorem offerSafety_of_listed {f g : QFrame} {s : State} {before after : List QFrame}
    (hl : s.lr.safety = before ++ g :: after) (hg : g.kind = f.kind) (h : ∀ x ∈ before ++ after, x.kind ≠ f.kind) :
    offerSafety f s = { s with lr := { s.lr with safety := before ++ f :: after } } := by
  have hany : s.lr.safety.any (fun g => decide (g.kind = f.kind)) = true := by
    rw [hl, List.any_append, List.any_cons]
    simp [hg]
  have hkeep : ∀ l : List QFrame, (∀ x ∈ l, x.kind ≠ f.kind) →
      l.map (fun g => if g.kind = f.kind then f else g) = l := fun l hx =>
    (List.map_congr_left fun x hm => if_neg (hx x hm)).trans (List.map_id l)
  simp only [offerSafety, hany, if_true]
  rw [hl, List.map_append, List.map_cons, if_pos hg, hkeep before fun x hx => h x (List.mem_append_left _ hx),
    hkeep after fun x hx => h x (List.mem_append_right _ hx)]

/-! ## The drive request (R62, R63) -/

/-- R209: the DRIVE_REQ frame of a record. -/
def driveFrame (node : Nat) (d : DriveRecord) : QFrame :=
  { dest := node, kind := .driveReq, tag := 0, restart := false,
    payload := enc1 d.level.code ++ enc2 d.setpoint ++ enc1 d.line.code }

/-- R63: the refresh interval starts anew. -/
def refreshed (s : State) : State := { s with ls := { s.ls with refreshAt := s.now + 40 } }

theorem sendDrive_of_no_node {s : State} (h : s.params.driveNode = 0) : sendDrive s = refreshed s := if_pos h

theorem sendDrive_of_node {s : State} (h : s.params.driveNode ≠ 0) :
    sendDrive s = offerSafety (driveFrame s.params.driveNode s.ls.drive) (refreshed s) := if_neg h

/-- Settles O29. -/
theorem driveRefreshIssuesTheRecord : Obligations.DriveRefreshIssuesTheRecord := by
  intro s hpin at' u d f
  have hrun : exec .driveRefreshExpiry s = .next (sendDrive (reach s.ls.refreshAt s)) := event_of_released hpin _
  rw [hrun]
  refine ⟨fun h => ?_, fun h hq => ?_, fun before g after h hl hg hq => ?_⟩
  · rw [sendDrive_of_no_node (s := reach s.ls.refreshAt s) h]
    rfl
  · rw [sendDrive_of_node (s := reach s.ls.refreshAt s) h, offerSafety_of_absent hq]
    rfl
  · rw [sendDrive_of_node (s := reach s.ls.refreshAt s) h, offerSafety_of_listed (s := refreshed (reach s.ls.refreshAt s)) hl hg hq]
    rfl

/-! ## The line's entry into a state -/

theorem dropFault_eq (src : Source) (code : FaultCode) (s : State) :
    dropFault src code s = { s with
      ls := { s.ls with faults := (listGone src code s.ls.faults).1 }
      dr := if (listGone src code s.ls.faults).2 then flagged .faultGone s.dr else s.dr } := by
  unfold dropFault
  split
  rename_i l left h
  rw [h]
  dsimp only
  split
  · rw [setFlag_eq]
  · rfl

/-- R55, R60, R64, R101, R133: what the line's entry into a state has brought when the drive request is issued. -/
theorem enterLine_eq_issueDrive (st : LineState) (s : State) :
    ∃ u, enterLine st s = issueDrive u ∧ u.lr = s.lr ∧ u.params = s.params ∧ u.flag .lineChange = true
      ∧ u.ls.autoSlow = (if st = .running ∨ st = .slowed then
          if s.ls.line = .starting then (autoSlowPeriod s.params.idleSlow).map (fun _ => s.now) else s.ls.autoSlow
        else none)
      ∧ u.sl = { s.sl with breakPending := s.sl.breakPending || decide (st = .tripped) }
      ∧ u.ds = if st = .stopped ∨ st = .tripped then (cancelOpens s).ds else s.ds := by
  unfold enterLine
  extract_lets ending auto _ s1 s2 _ s3 s4 _ s5
  have h2 : s2.lr = s.lr ∧ s2.params = s.params ∧ s2.flag .lineChange = true ∧ s2.ls.autoSlow = auto ∧ s2.sl = s.sl
      ∧ s2.ds = s.ds := by
    have hflag : s1.flag .lineChange = true := flag_setFlag_same _ _
    have hparams : s1.ls.params = s.ls.params := by rw [setFlag_ls]
    have hdrop : (dropFault .line .autoSlow s1).flag .lineChange = true :=
      (dropFault_lineOnly _ _ _).flags _ hflag
    unfold s2
    split
    · rw [dropFault_eq] at hdrop ⊢
      exact ⟨setFlag_lr _ _, hparams, hdrop,
        congrArg LineSup.autoSlow (setFlag_ls _ _), setFlag_sl _ _, setFlag_ds _ _⟩
    · exact ⟨setFlag_lr _ _, hparams, hflag,
        congrArg LineSup.autoSlow (setFlag_ls _ _), setFlag_sl _ _, setFlag_ds _ _⟩
  obtain ⟨hlr, hparams, hflag, hauto, hsl, hds⟩ := h2
  have h4 : s4.lr = s.lr ∧ s4.params = s.params ∧ s4.flag .lineChange = true ∧ s4.ls.autoSlow = auto ∧ s4.sl = s.sl
      ∧ s4.ds = if st = .stopped ∨ st = .tripped then (cancelOpens s).ds else s.ds := by
    unfold s4
    split
    · refine ⟨hlr, hparams, hflag, hauto, hsl, ?_⟩
      simp only [cancelOpens, s3, hds]
    · exact ⟨hlr, hparams, hflag, hauto, hsl, hds⟩
  obtain ⟨hlr, hparams, hflag, hauto, hsl, hds⟩ := h4
  refine ⟨s5, rfl, ?_⟩
  unfold s5
  split
  · rename_i h
    refine ⟨hlr, hparams, hflag, hauto, ?_, hds⟩
    rw [decide_eq_true h, Bool.or_true]
    exact congrArg (fun sl : SummitLink => { sl with breakPending := true }) hsl
  · rename_i h
    refine ⟨hlr, hparams, hflag, hauto, ?_, hds⟩
    rw [decide_eq_false h, Bool.or_false, hsl]

theorem issueDrive_sl (s : State) : (issueDrive s).sl = s.sl := by
  unfold issueDrive sendDrive
  dsimp only
  split <;> rfl

theorem issueDrive_ds (s : State) : (issueDrive s).ds = s.ds := by
  unfold issueDrive sendDrive
  dsimp only
  split <;> rfl

theorem issueDrive_dr (s : State) : (issueDrive s).dr = s.dr := by
  unfold issueDrive sendDrive
  dsimp only
  split <;> rfl

theorem enterLine_autoSlow (st : LineState) (s : State) :
    (enterLine st s).ls.autoSlow = if st = .running ∨ st = .slowed then
        if s.ls.line = .starting then (autoSlowPeriod s.params.idleSlow).map (fun _ => s.now) else s.ls.autoSlow
      else none := by
  obtain ⟨u, hu, -, -, -, h, -⟩ := enterLine_eq_issueDrive st s
  rw [hu, issueDrive_ls, h]

theorem enterLine_sl (st : LineState) (s : State) :
    (enterLine st s).sl = { s.sl with breakPending := s.sl.breakPending || decide (st = .tripped) } := by
  obtain ⟨u, hu, -, -, -, -, h, -⟩ := enterLine_eq_issueDrive st s
  rw [hu, issueDrive_sl, h]

theorem enterLine_ds (st : LineState) (s : State) :
    (enterLine st s).ds = if st = .stopped ∨ st = .tripped then (cancelOpens s).ds else s.ds := by
  obtain ⟨u, hu, -, -, -, -, -, h⟩ := enterLine_eq_issueDrive st s
  rw [hu, issueDrive_ds, h]

theorem enterLine_flag (st : LineState) (s : State) : (enterLine st s).flag .lineChange = true := by
  obtain ⟨u, hu, -, -, h, -⟩ := enterLine_eq_issueDrive st s
  rw [hu, State.flag, issueDrive_dr]
  exact h

/-- R101: the open delay and the waiting open of every berth are cancelled. -/
theorem door_cancelOpens (j : Nat) (s : State) :
    (cancelOpens s).door j = { s.door j with openDelay := none, waitingOpen := false } := by
  simp only [State.door, State.berth, cancelOpens, Vector.getElem?_map]
  cases s.ds.berths[j - 1]? <;> rfl

theorem enterLine_door (st : LineState) (s : State) (j : Nat) :
    (enterLine st s).door j
      = if st = .stopped ∨ st = .tripped then { s.door j with openDelay := none, waitingOpen := false }
        else s.door j := by
  rw [State.door, State.berth, enterLine_ds]
  split
  · exact door_cancelOpens j s
  · rfl

/-- R62, R170: the drive request of the line's entry into a state. -/
theorem enterLine_lr (st : LineState) (s : State) :
    let f := driveFrame s.params.driveNode (enterLine st s).ls.drive
    (s.params.driveNode = 0 → (enterLine st s).lr = s.lr)
    ∧ (s.params.driveNode ≠ 0 → (∀ g ∈ s.lr.safety, g.kind ≠ .driveReq) →
      (enterLine st s).lr = { s.lr with safety := s.lr.safety ++ [f] })
    ∧ (∀ before g after, s.params.driveNode ≠ 0 → s.lr.safety = before ++ g :: after → g.kind = .driveReq →
      (∀ h ∈ before ++ after, h.kind ≠ .driveReq) →
      (enterLine st s).lr = { s.lr with safety := before ++ f :: after }) := by
  obtain ⟨u, hu, hlr, hparams, -⟩ := enterLine_eq_issueDrive st s
  set v : State := { u with ls := { u.ls with drive := driveContent u } } with hv
  have hsend : enterLine st s = sendDrive v := hu
  have hvlr : v.lr = s.lr := hlr
  have hdrive : (enterLine st s).ls.drive = v.ls.drive := by rw [hsend, sendDrive_ls]
  have hnode : v.params.driveNode = s.params.driveNode := by rw [← hparams]; rfl
  dsimp only
  rw [hdrive, ← hnode]
  refine ⟨fun h => ?_, fun h hq => ?_, fun before g after h hl hg hq => ?_⟩
  · rw [hsend, sendDrive_of_no_node h]
    exact hvlr
  · rw [hsend, sendDrive_of_node h, offerSafety_of_absent (by rw [refreshed, hvlr]; exact hq)]
    simp only [refreshed, hvlr]
  · rw [hsend, sendDrive_of_node h,
      offerSafety_of_listed (s := refreshed v) (by rw [refreshed, hvlr]; exact hl) hg hq]
    simp only [refreshed, hvlr]

end Sys2Proof.Machine
end

section
/-! The timers of the channels, of the line and of the loop (R41, R57, R59, R64, R178). -/

namespace Sys2Proof.Machine

open Sys2Proof.Safety

/-- What `Settled` reads of the state is as it was. -/
theorem settled_of_eq {s t : State} (h : Settled s) (hcm : t.cm.deferred = s.cm.deferred) (hct : t.ct = s.ct)
    (hsl : t.sl.txQueue = s.sl.txQueue) : Settled t :=
  ⟨hcm.trans h.deferred, hct ▸ h.waiting, hct ▸ h.launched, hsl ▸ h.room⟩

theorem settled_reach {s : State} (h : Settled s) (n : Nat) : Settled (reach n s) := settled_of_eq h rfl rfl rfl

/-- Settles O25. -/
theorem bypassCountsDown : Obligations.BypassCountsDown := by
  intro c b s hpin hb u
  have hrun : exec (.bypassMinuteTick c) s = .next (bypassMinute c s) := event_of_released hpin _
  rw [hrun]
  refine ⟨fun h => ?_, fun h hset => ?_⟩
  · simp only [bypassMinute, hb, if_neg (Nat.not_le.2 h)]
    rfl
  · simp only [bypassMinute, hb, if_pos h]
    exact ⟨_, rfl, gone_withdrawn _ _ (settled_of_eq hset rfl rfl rfl)⟩

/-! ## The end of the auto-slow period (R64) -/

/-- R64: the auto-slow timer does not start where the line was not STARTING. -/
theorem reform_autoSlow_none {s : State} (h : s.ls.autoSlow = none) (hl : s.ls.line ≠ .starting) :
    (reform s).ls.autoSlow = none := by
  have henter : ∀ (st : LineState) (t : State), t.ls.autoSlow = none → t.ls.line ≠ .starting →
      (enterLine st t).ls.autoSlow = none := fun st t ht hn => by
    rw [enterLine_autoSlow]
    split_ifs <;> first | rfl | exact ht
  unfold reform
  extract_lets d _ s1
  have h1 : s1.ls.autoSlow = none := h
  have hl1 : s1.ls.line ≠ .starting := hl
  split
  · unfold enterStopping
    extract_lets s2
    split
    · exact henter _ _ (henter _ _ h1 hl1) (by simp [s2])
    · exact henter _ _ h1 hl1
  · exact henter _ _ h1 hl1
  · rw [if_neg fun hc => hl hc.1]
    exact h1

/-- R50, R52: a raising changes the list, the next order number and the overflow demand alone, until the demand is
formed. -/
theorem listFault_ls (f : Raise) (s : State) :
    (listFault f s).ls = { s.ls with
      faults := (listFault f s).ls.faults, nextFault := (listFault f s).ls.nextFault
      overflow := (listFault f s).ls.overflow } := by
  unfold listFault
  dsimp only
  split_ifs <;> simp

/-- AUTO_SLOW (R64). -/
def autoSlowFault : Raise := { source := .line, code := .autoSlow, cls := .slow, latched := false, present := true }

/-- R50: a fault that no entry names joins the tail of the list while that has room. -/
theorem listAfter_of_fresh {f : Raise} {s : State} (h : ∀ e ∈ s.ls.faults, ¬ Names f e) (hroom : s.ls.faults.length < 32) :
    listAfter f s = s.ls.faults ++ [freshEntry f s] := by
  have hany : s.ls.faults.any (fun e => decide (e.source = f.source ∧ e.code = f.code)) = false := by
    rw [List.any_eq_false]
    exact fun e he => by simpa [Names] using h e he
  rw [listAfter, hany, if_neg (by simp), if_pos hroom]

/-- R54: in a state that obeys its demand, a fresh fault at least as severe as the demand gives the demand. -/
theorem mostSevere_of_fresh {f : Raise} {s : State} {d : Demand} (h : DemandKept s)
    (hle : s.ls.effDemand.code ≤ f.cls.demand.code) (hsource : ∀ c, f.source ≠ .channel c)
    (hstands : f.present = true ∨ f.latched = true) (hroom : s.ls.faults.length < 32)
    (hfresh : ∀ e ∈ s.ls.faults, ¬ Names f e) (hd : MostSevere (listFault f s) d) : d = f.cls.demand := by
  obtain ⟨hfaults, -, -, -, -, -, hover⟩ := listFault_spec f s
  rw [listAfter_of_fresh hfresh hroom] at hfaults
  have hdesk : (listFault f s).ls.deskDemand = s.ls.deskDemand := by
    rw [listFault_ls]
  have hbyp : ∀ c, (listFault f s).bypassed c = s.bypassed c := fun c => by
    rw [State.bypassed, State.chan, blind_cm.listFault]
    rfl
  obtain ⟨hone, hle1, hle2, hle3⟩ := hd
  obtain ⟨-, hs1, hs2, hs3⟩ := h.demand
  refine Demand.code_injective (Nat.le_antisymm ?_ ?_)
  · rcases hone with rfl | rfl | ⟨e, he, hst, rfl⟩
    · rw [hdesk]
      exact hs1.trans hle
    · rw [hover (.inr hroom)]
      exact hs2.trans hle
    · rw [hfaults, List.mem_append, List.mem_singleton] at he
      rcases he with he | rfl
      · refine (hs3 e he ⟨hst.1, fun c hc => ?_⟩).trans hle
        rw [← hbyp]
        exact hst.2 c hc
      · exact le_refl _
  · refine hle3 (freshEntry f s) ?_ ⟨hstands, fun c hc => absurd hc (hsource c)⟩
    rw [hfaults]
    exact List.mem_append_right _ List.mem_cons_self

/-- R54: a moving line's levels are SLOW or RUN. -/
theorem code_le_slow_of_moving {s : State} (h : DemandKept s) (hl : s.ls.line = .running ∨ s.ls.line = .slowed) :
    s.ls.effDemand.code ≤ Demand.slow.code := by
  rcases hl with hl | hl
  · rw [h.running hl]
    decide
  · rw [h.slowed hl]

/-- R50, R58, R64: AUTO_SLOW raised with the timer stopped. -/
theorem raise_autoSlow {s : State} (hset : Settled s) (h : DemandKept s)
    (hl : s.ls.line = .running ∨ s.ls.line = .slowed) (hroom : s.ls.faults.length < 32)
    (hfresh : ∀ e ∈ s.ls.faults, ¬ Names autoSlowFault e) (hauto : s.ls.autoSlow = none) :
    let t := raise autoSlowFault s
    t.ls.line = .slowed ∧ t.ls.effDemand = .slow ∧ t.ls.autoSlow = none
      ∧ t.ls.faults = s.ls.faults ++ [freshEntry autoSlowFault s] ∧ t.flag .faultNew = true ∧ LineOnly s t := by
  intro t
  have hr : Raised autoSlowFault s t := raise_raised _ hset
  have hls : t.ls = (raiseCore autoSlowFault s).ls := raise_ls _ hset
  have hline : t.ls.line = .slowed := by
    obtain ⟨d, hd, hline⟩ := hr.line
    have hd' := mostSevere_of_fresh (f := autoSlowFault) h (code_le_slow_of_moving h hl) nofun (.inl rfl) hroom hfresh hd
    rw [hline, hd']
    rcases hl with hl | hl <;> rw [hl] <;> rfl
  refine ⟨hline, ?_, ?_, ?_, (hr.fresh hfresh hroom).2, hr.frame⟩
  · have hkept : DemandKept (raiseCore autoSlowFault s) := raiseCore_demandKept h.deskAndDrive
    rw [hls]
    exact hkept.slowed (hls ▸ hline)
  · rw [hls]
    have hauto' : (listFault autoSlowFault s).ls.autoSlow = none := by
      rw [listFault_ls]
      exact hauto
    refine reform_autoSlow_none hauto' ?_
    rw [(listFault_spec autoSlowFault s).2.1]
    rcases hl with hl | hl <;> rw [hl] <;> simp
  · rcases hr.list with hlist | ⟨⟨-, hends⟩, -⟩
    · rw [hlist, listAfter_of_fresh hfresh hroom]
    · rw [hline] at hends
      simp at hends

theorem autoSlowPeriod_of_ne_zero {n : Nat} (h : n ≠ 0) :
    autoSlowPeriod n = some (if n ≤ 11 then 60000 else n * 5000) := by
  rw [autoSlowPeriod, if_neg h]
  split <;> rfl

/-- Settles O26. -/
theorem timersRaiseFaults : Obligations.TimersRaiseFaults := by
  refine ⟨fun s hpin => ?_, fun e rest s hpin hl => ?_, fun t0 s hpin hset hkept hauto hidle hl hroom hfresh => ?_⟩
  · have hstart : exec .startTimeLimitExpiry s = .next (startLimitOut s) := event_of_released hpin _
    have hstop : exec .stopTimeLimitExpiry s = .next (stopLimitOut s) := event_of_released hpin _
    rw [hstart, hstop]
    refine ⟨fun t0 h hset => ?_, fun t0 h hset => ?_, fun h => ?_, fun h => ?_⟩
    · rw [startLimitOut, h]
      exact ⟨_, rfl, raise_raised _ (settled_reach hset _)⟩
    · rw [stopLimitOut, h]
      exact ⟨_, rfl, raise_raised _ (settled_reach hset _)⟩
    · rw [startLimitOut, h]
    · rw [stopLimitOut, h]
  · have hrun : exec .returnDeadlineExpiry s = .next (returnOverdue s) := event_of_released hpin _
    rw [hrun]
    intro u
    refine ⟨fun h => ?_, fun h hset => ?_⟩
    · simp only [returnOverdue, hl, h, if_true]
      rfl
    · simp only [returnOverdue, hl, h, if_false]
      exact ⟨_, rfl, raise_raised _ (settled_of_eq hset rfl rfl rfl)⟩
  · have hrun : exec .autoSlowExpiry s = .next (autoSlowPeriodOut s) := event_of_released hpin _
    rw [hrun]
    intro period
    set u : State := { s with now := max s.now (t0 + period), ls := { s.ls with autoSlow := none } } with hu
    have hout : autoSlowPeriodOut s = raise autoSlowFault u := by
      simp only [autoSlowPeriodOut, hauto, autoSlowPeriod_of_ne_zero hidle]
      rfl
    have hkept' : DemandKept u :=
      ⟨hkept.demand, hkept.trip, hkept.running, hkept.slowed, hkept.starting, hkept.desk,
        ⟨hkept.drive.line, hkept.drive.run, hkept.drive.slow, hkept.drive.stop, hkept.drive.trip⟩⟩
    obtain ⟨h1, h2, h3, h4, h5, h6⟩ := raise_autoSlow (s := u) (settled_of_eq hset rfl rfl rfl) hkept' hl hroom hfresh rfl
    rw [hout]
    have hframe : LineOnly { s with now := max s.now (t0 + period) } u := .of_ls rfl rfl
    exact ⟨_, rfl, h1, h2, h3, h4, h5, hframe.trans h6⟩

end Sys2Proof.Machine
end

section
/-! What a line state change brings (R47, R55 to R64, R101, R133): the entry itself, the trip that a break from the summit
brings, and the deferred list on STOPPED. -/

namespace Sys2Proof.Machine

open Sys2Proof.Safety

/-! ## Writes that change nothing else (R44, R45) -/

theorem not_chanStructural_iff {o e : ChanEntry} (h : ¬ ChanStructural o e) :
    o.state = e.state ∧ o.node = e.node ∧ o.slot = e.slot ∧ o.kind = e.kind := by
  simp only [ChanStructural, not_or, ne_eq, not_not] at h
  exact ⟨h.1, h.2.1, h.2.2.1, h.2.2.2.1⟩

/-- R44, R45: an unbypassed channel that keeps its state, place and class, no capture running: beyond the entry, a stale
time made shorter is tested. -/
theorem applyChan_of_same_place {fl : Follow} {c : Nat} {e : ChanEntry} {s : State}
    (hs : ¬ ChanStructural (s.chan c).entry e) (hcls : (s.chan c).entry.cls = e.cls) (hb : s.bypassed c = false)
    (hcap : s.dr.capture = none) (hc : c < 48) :
    applyChan fl c e s = testStale fl c (s.chan c).entry.staleTime (setChan c { s.chan c with entry := e } s) := by
  obtain ⟨h1, h2, h3, h4⟩ := not_chanStructural_iff hs
  have hbyp : (setEntry c e s).bypassed c = false := by
    rw [State.bypassed, setEntry, chan_setChan_same hc]
    exact hb
  have hcapture : captureWritten c (setEntry c e s) = setEntry c e s := by
    rw [captureWritten, setEntry_dr, hcap]
  simp only [applyChan, h1, h2, h3, h4, hcls, ne_eq, not_true_eq_false, or_self, or_false, and_not_self, false_and, if_false,
    hbyp, Bool.false_eq_true, hcapture]
  rfl

/-- R44, R45: an unbypassed channel that keeps its state, place, class and stale time takes the entry alone, no capture
running. -/
theorem applyChan_of_entry_alone {fl : Follow} {c : Nat} {e : ChanEntry} {s : State}
    (hs : ¬ ChanStructural (s.chan c).entry e) (hcls : (s.chan c).entry.cls = e.cls)
    (ht : (s.chan c).entry.staleTime = e.staleTime) (hb : s.bypassed c = false) (hcap : s.dr.capture = none)
    (hc : c < 48) : applyChan fl c e s = setChan c { s.chan c with entry := e } s := by
  refine (applyChan_of_same_place hs hcls hb hcap hc).trans (if_neg ?_)
  rw [chan_setChan_same hc]
  exact fun hn => absurd hn.2.1 (by rw [ht]; exact lt_irrefl _)

theorem validChan_congr {s t : State} (hcm : t.cm = s.cm) (hst : t.straps = s.straps) (i : Nat) (bs : List Byte) :
    validChan i bs t = validChan i bs s := by
  cases s
  cases t
  subst hcm hst
  rfl

theorem validChan_lt {i : Nat} {bs : List Byte} {s : State} {e : ChanEntry} (h : validChan i bs s = .ok e) : i < 48 := by
  unfold validChan at h
  split at h
  · cases h
  · dsimp only at h
    split_ifs at h with hbad
    exact Nat.not_le.1 fun hi => hbad (.inl hi)

/-! ## A demand of TRIP (R60) -/

/-- Something other than AUTO_SLOW demands TRIP. -/
def Tripping (s : State) : Prop :=
  s.ls.overflow = .trip ∨ ∃ e ∈ s.ls.faults, Stands s e ∧ e.cls = .trip ∧ ¬ IsAutoSlow e

theorem Demand.eq_trip_of_le {d : Demand} (h : Demand.trip.code ≤ d.code) : d = .trip := by
  cases d <;> simp_all [Demand.code]

theorem Tripping.demandNow {s : State} (h : Tripping s) : s.demandNow = .trip := by
  obtain ⟨-, -, hover, hle⟩ := demandNow_mostSevere s
  rcases h with h | ⟨e, he, hs, hc, -⟩
  · exact Demand.eq_trip_of_le (h ▸ hover)
  · have := hle e he hs
    rw [hc] at this
    exact Demand.eq_trip_of_le this

/-- R50, R52: a TRIP raised as standing demands TRIP, listed or folded into the overflow demand. -/
theorem listFault_tripping {f : Raise} {s : State} (hc : f.cls = .trip) (hsource : ∀ c, f.source ≠ .channel c)
    (hstands : f.present = true ∨ f.latched = true) (hauto : f.code ≠ .autoSlow) : Tripping (listFault f s) := by
  obtain ⟨hfaults, -, -, -, -, hfold, -⟩ := listFault_spec f s
  have hauto' : ∀ e, Names f e → ¬ IsAutoSlow e := fun e he h => hauto (he.2.symm.trans h.2)
  by_cases hn : ∃ e ∈ s.ls.faults, Names f e
  · obtain ⟨e, he, hname⟩ := hn
    have hany : s.ls.faults.any (fun e => decide (e.source = f.source ∧ e.code = f.code)) = true :=
      List.any_eq_true.2 ⟨e, he, decide_eq_true hname⟩
    refine .inr ⟨raisedAgain f e, ?_, ⟨?_, fun c hch => absurd (hname.1.symm.trans hch) (hsource c)⟩, ?_, hauto' _ hname⟩
    · rw [hfaults, listAfter, hany, if_pos rfl]
      exact List.mem_map.2 ⟨e, he, if_pos hname⟩
    · rcases hstands with h | h <;> simp [raisedAgain, h]
    · rw [raisedAgain, hc]
      cases e.cls <;> rfl
  · have hn' : ∀ e ∈ s.ls.faults, ¬ Names f e := fun e he h => hn ⟨e, he, h⟩
    by_cases hroom : s.ls.faults.length < 32
    · refine .inr ⟨freshEntry f s, ?_, ⟨hstands, fun c hch => absurd hch (hsource c)⟩, hc, hauto' _ ⟨rfl, rfl⟩⟩
      rw [hfaults, listAfter_of_fresh hn' hroom]
      exact List.mem_append_right _ List.mem_cons_self
    · refine .inl ?_
      rw [(hfold hn' (Nat.not_lt.1 hroom)).1, hc]
      cases s.ls.overflow <;> rfl

theorem stands_congr {s t : State} (h : t.cm = s.cm) (e : FaultEntry) : Stands t e ↔ Stands s e := by
  simp only [Stands, State.bypassed, State.chan, h]

theorem enterLine_tripping {st : LineState} {s : State} (h : Tripping s) : Tripping (enterLine st s) := by
  obtain ⟨-, -, hover, hfaults, -⟩ := enterLine_spec st s
  rcases h with h | ⟨e, he, hs, hc, ha⟩
  · exact .inl (hover.trans h)
  · refine .inr ⟨e, ?_, (stands_congr (enterLine_cm st s) e).2 hs, hc, ha⟩
    rw [hfaults]
    split
    · exact mem_listGone_other he ha
    · exact he

/-- R60: a line that is not TRIPPED trips on a demand of TRIP. -/
theorem reform_of_tripping {s : State} (h : Tripping s) (hl : s.ls.line ≠ .tripped) :
    reform s = enterLine .tripped { s with ls := { s.ls with effDemand := .trip } } := by
  unfold reform
  rw [h.demandNow]
  cases hs : s.ls.line <;> first | exact absurd hs hl | rfl

/-! ## The line's entry into a state, and the trips -/

theorem enterLine_entry (st : LineState) (s : State) :
    let t := enterLine st s
    let ends : Prop := st = .stopping ∨ st = .tripped
    t.ls.deskDemand = (if st = .stopping ∨ st = .tripped then .stop else s.ls.deskDemand)
      ∧ (¬ ends → t.ls.faults = s.ls.faults)
      ∧ (ends → (∀ e ∈ t.ls.faults, IsAutoSlow e → e.latched = true)
        ∧ (∀ e ∈ s.ls.faults, ¬ IsAutoSlow e → e ∈ t.ls.faults) ∧ ∀ e ∈ t.ls.faults, e ∈ s.ls.faults ∨ IsAutoSlow e) := by
  obtain ⟨-, hdesk, -, hfaults, -⟩ := enterLine_spec st s
  have hends : st.ends = true ↔ st = .stopping ∨ st = .tripped := by cases st <;> simp [LineState.ends]
  refine ⟨?_, fun h => ?_, fun h => ?_⟩
  · rw [hdesk]
    exact if_congr hends rfl rfl
  · rw [hfaults, if_neg fun hc => h (hends.1 hc)]
  · rw [if_pos (hends.2 h)] at hfaults
    obtain ⟨hleft, -, -, hkept, hmade⟩ := dropFault_spec .line .autoSlow s
    rw [dropFault_ls] at hleft hkept hmade
    rw [hfaults]
    exact ⟨fun e he ha => hleft e he ha.1 ha.2, fun e he ha => hkept e he ha, hmade⟩

theorem listFault_ds (f : Raise) (s : State) : (listFault f s).ds = s.ds := by
  unfold listFault
  dsimp only
  split_ifs <;> simp

/-- R60, R62, R132: SUMMIT_BREAK trips a line that is not TRIPPED. -/
theorem raise_break {s : State} (hset : Settled s) (hl : s.ls.line ≠ .tripped) :
    let t := raise breakFault s
    t.ls.line = .tripped ∧ t.ls.deskDemand = .stop ∧ t.ls.effDemand = .trip ∧ t.ls.startTimer = none
      ∧ t.ls.stopTimer = none ∧ t.ls.autoSlow = none
      ∧ t.ls.drive = { level := .trip, setpoint := 0, line := .tripped } ∧ t.ls.refreshAt = s.now + 40
      ∧ t.sl.breakPending = true ∧ t.flag .lineChange = true
      ∧ ∀ j, t.door j = { s.door j with openDelay := none, waitingOpen := false } := by
  intro t
  set u : State := { listFault breakFault s with ls := { (listFault breakFault s).ls with effDemand := .trip } } with hu
  have htrip : Tripping (listFault breakFault s) := listFault_tripping rfl nofun (.inl rfl) nofun
  have hline : (listFault breakFault s).ls.line = s.ls.line := (listFault_spec _ _).2.1
  have hcore : raiseCore breakFault s = enterLine .tripped u := reform_of_tripping htrip (by rw [hline]; exact hl)
  have hfollow : t = updateRelease (enterLine .tripped u) := by
    have hcs : Settled (raiseCore breakFault s) := hset.after (raiseCore_lineOnly _ _)
    have : t = follow s (raiseCore breakFault s) := rfl
    rw [this, follow_settled hcs, hcore, if_neg]
    rw [enterLine_line]
    exact hl.symm
  obtain ⟨h1, h2, -, -, -, h6, h7, -, -, h10, h11, h12⟩ := enterLine_spec .tripped u
  have hls : t.ls = (enterLine .tripped u).ls := by rw [hfollow, updateRelease_ls]
  have htrip' : Tripping (enterLine .tripped u) := enterLine_tripping htrip
  have hnow : u.now = s.now := blind_now.listFault _ _
  have hdoor : ∀ j, u.door j = s.door j := fun j => by
    rw [State.door, State.berth]
    have : u.ds = s.ds := by
      rw [hu]
      exact listFault_ds _ _
    rw [this]
    rfl
  rw [hls, h1, h2, h6, h7, h10, h11, h12, htrip'.demandNow, enterLine_autoSlow, hnow]
  refine ⟨rfl, rfl, rfl, rfl, rfl, rfl, ?_, rfl, ?_, ?_, fun j => ?_⟩
  · rw [driveContent, h1]
  · rw [hfollow, updateRelease_sl, enterLine_sl]
    exact Bool.or_true _
  · rw [hfollow, State.flag, updateRelease_dr]
    exact enterLine_flag _ _
  · rw [hfollow, State.door, State.berth, updateRelease_ds]
    exact (enterLine_door .tripped u j).trans (by rw [hdoor]; rfl)

/-! ## The start time limit of a line at rest, and the deferred list (R47) -/

/-- R59: a line at rest stops at once. -/
theorem enterStopping_of_atRest {s : State} (h : s.atRest = true) :
    enterStopping s = enterLine .stopped (enterLine .stopping s) := by
  have h' : (enterLine .stopping s).atRest = true := by
    rw [State.atRest, State.params, enterLine_ra, enterLine_params]
    exact h
  rw [enterStopping]
  exact if_pos h'

/-- START_TIMEOUT (R57). -/
def startTimeoutFault : Raise :=
  { source := .line, code := .startTimeout, cls := .stop, latched := true, present := false }

/-- R55, R59: a STOP stops a STARTING line at rest. -/
theorem raiseCore_startTimeout {s : State} (h : DemandKept s) (hl : s.ls.line = .starting) (hrest : s.atRest = true)
    (hroom : s.ls.faults.length < 32) (hfresh : ∀ e ∈ s.ls.faults, ¬ Names startTimeoutFault e) :
    ∃ u, raiseCore startTimeoutFault s = enterLine .stopped u := by
  have hdemand : (listFault startTimeoutFault s).demandNow = .stop := by
    refine mostSevere_of_fresh (f := startTimeoutFault) h ?_ nofun (.inr rfl) hroom hfresh (demandNow_mostSevere _)
    rcases h.starting hl with hd | hd <;> rw [hd] <;> decide
  have hline : (listFault startTimeoutFault s).ls.line = .starting := ((listFault_spec _ _).2.1).trans hl
  set w : State := { listFault startTimeoutFault s with
    ls := { (listFault startTimeoutFault s).ls with effDemand := .stop } } with hw
  have hrest' : w.atRest = true := by
    have hra : w.ra = s.ra := blind_ra.listFault _ _
    have hparams : w.ls.params = s.ls.params := by
      rw [hw]
      dsimp only
      rw [listFault_ls]
    rw [State.atRest, State.params, hra, hparams]
    exact hrest
  refine ⟨enterLine .stopping w, ?_⟩
  rw [raiseCore, reform, hdemand, hline]
  exact enterStopping_of_atRest hrest'

/-- R47, R55: the line has stopped with a deferred list that `applied` has taken effect of. -/
theorem follow_stopped {s a b : State} (hs : s.ls.line ≠ .stopped) (ha : a.ls.line = .stopped)
    (happlied : applyDeferred a = b) (hb : Settled b) : follow s a = updateRelease b := by
  rw [follow, if_neg (by rw [ha]; exact hs.symm), if_pos ha, happlied, evalRelease_settled hb]

/-- R47: one deferred entry. -/
theorem applyDeferred_single {s : State} {r : MemRecord} (h : s.cm.deferred = [r]) :
    applyDeferred s = setFlag .profileApplied { applyLoaded followInner r s with
      cm := { (applyLoaded followInner r s).cm with deferred := [] } } := by
  simp only [applyDeferred, h, List.isEmpty_cons, Bool.false_eq_true, if_false, List.foldl_cons, List.foldl_nil]

theorem updateRelease_cm (s : State) : (updateRelease s).cm = s.cm := (updateRelease_lineOnly s).others .cm (by decide)

/-- R47: START_TIME_LIMIT_EXPIRY stops a STARTING line at rest, which applies its one deferred entry. -/
theorem startLimit_applies {s v : State} {t0 : Nat} {r : MemRecord} (hpin : s.resetHeld = false)
    (hl : s.ls.line = .starting) (ht : s.ls.startTimer = some t0) (hrest : s.atRest = true) (hkept : DemandKept s)
    (hroom : s.ls.faults.length < 32) (hd : s.cm.deferred = [r])
    (hfresh : ∀ x ∈ s.ls.faults, ¬ (x.source = .line ∧ x.code = .startTimeout)) (hw : s.ct.backlogWaiting = none)
    (hla : s.ct.backlogLaunched = []) (htx : s.sl.txQueue.length < 16)
    (happly : ∀ a : State, a.cm = s.cm → a.straps = s.straps → a.dr.capture = s.dr.capture →
      applyLoaded followInner r a = { a with cm := v.cm }) :
    ∃ t, (exec .startTimeLimitExpiry s = .next t
        ∧ t.ls.line = .stopped ∧ t.cm.deferred = [] ∧ t.flag .profileApplied = true
        ∧ t.ls.commissioned = s.ls.commissioned
        ∧ (∀ j, s.isBerth j = true → (t.door j).openDelay = none ∧ (t.door j).waitingOpen = false))
      ∧ ∀ c, t.chan c = v.chan c := by
  set s1 : State := reach (t0 + s.params.startTime * 1000) s with hs1
  have hkept1 : DemandKept s1 := hkept.of_eq rfl rfl
  obtain ⟨u, hu⟩ := raiseCore_startTimeout (s := s1) hkept1 hl hrest hroom hfresh
  set a := raiseCore startTimeoutFault s1 with ha
  have hframe : LineOnly s1 a := raiseCore_lineOnly _ _
  have haline : a.ls.line = .stopped := by rw [hu, enterLine_line]
  have hacm : a.cm = s.cm := by simp [ha, hs1]
  have hcap : a.dr.capture = s.dr.capture := by simp [ha, hs1]
  have hst : a.straps = s.straps := by simp [ha, hs1]
  set b : State := setFlag .profileApplied { a with cm := { v.cm with deferred := [] } } with hb
  have happlied : applyDeferred a = b := by
    rw [applyDeferred_single (hacm ▸ hd), happly a hacm hst hcap]
  have hsettled : Settled b := by
    refine ⟨?_, ?_, ?_, ?_⟩
    · rw [hb, setFlag_cm]
    · rw [hb, setFlag_ct]
      show a.ct.backlogWaiting = none
      rw [hframe.ct]
      exact hw
    · rw [hb, setFlag_ct]
      show a.ct.backlogLaunched = []
      rw [hframe.ct]
      exact hla
    · rw [hb, setFlag_sl]
      show a.sl.txQueue.length < 16
      rw [hframe.sl]
      exact htx
  have hrun : exec .startTimeLimitExpiry s = .next (updateRelease b) := by
    have hout : exec .startTimeLimitExpiry s = .next (startLimitOut s) := event_of_released hpin _
    have hfollow : follow s1 a = updateRelease b := follow_stopped (by
      show s.ls.line ≠ .stopped
      rw [hl]
      simp) haline happlied hsettled
    rw [hout, startLimitOut, ht, ← hfollow]
    rfl
  refine ⟨updateRelease b, ⟨hrun, ?_, ?_, ?_, ?_, fun j _ => ?_⟩, fun c => ?_⟩
  · rw [updateRelease_ls, hb, setFlag_ls]
    exact haline
  · rw [updateRelease_cm, hb, setFlag_cm]
  · rw [State.flag, updateRelease_dr]
    exact flag_setFlag_same _ _
  · rw [updateRelease_ls, hb, setFlag_ls]
    exact hframe.commissioned
  · have hdoor : (updateRelease b).door j = (enterLine .stopped u).door j := by
      rw [State.door, State.berth, updateRelease_ds, hb, setFlag_ds, ← hu]
      rfl
    rw [hdoor, enterLine_door]
    exact ⟨rfl, rfl⟩
  · rw [State.chan, updateRelease_cm, hb, setFlag_cm]
    rfl

/-- Settles O27. -/
theorem lineStateChangesBring : Obligations.LineStateChangesBring := by
  refine ⟨fun st s => ?_, fun t0 r s hpin hl ht hrest hkept hroom hd htable hfresh hw hla htx => ?_,
    fun s hpin hset hkept htx hl => ?_⟩
  · intro t ends f
    obtain ⟨h1, -, -, -, hparams, heff, hdrive, -, -, hstart, hstop, hrefresh⟩ := enterLine_spec st s
    obtain ⟨hdesk, hkeep, hends⟩ := enterLine_entry st s
    obtain ⟨hlr0, hlr1, hlr2⟩ := enterLine_lr st s
    have hauto := enterLine_autoSlow st s
    refine ⟨h1, enterLine_flag st s, hstart, hstop, hdesk, fun hst => ⟨fun hs => ?_, fun hs => ?_⟩, fun hn1 hn2 => ?_,
      hkeep, hends, ?_, driveAnswers_of_content hdrive, hrefresh, hlr0, hlr1, hlr2,
      fun j _ => enterLine_door st s j, enterLine_sl st s, enterLine_lineOnly st s⟩
    · rw [hauto, if_pos hst, if_pos hs, autoSlowPeriod]
      split_ifs <;> rfl
    · rw [hauto, if_pos hst, if_neg hs]
    · rw [hauto, if_neg (not_or.2 ⟨hn1, hn2⟩)]
    · rw [heff]
      exact demandNow_mostSevere _
  · intro i o applied
    have htab : r.tableId.toNat = tableChannel := by rw [htable]; rfl
    refine ⟨fun why hbad => ?_, fun e hok hs hcls hstale hbyp hcap => ?_⟩
    · refine startLimit_applies (v := s) hpin hl ht hrest hkept hroom hd hfresh hw hla htx fun a hcm hst hc => ?_
      rw [applyLoaded, if_pos htab, validChan_congr hcm hst, hbad, ← hcm]
    · have hi : i < 48 := validChan_lt hok
      obtain ⟨t, ht', hchan⟩ := startLimit_applies (v := setChan i { s.chan i with entry := e } s) hpin hl ht hrest hkept
        hroom hd hfresh hw hla htx fun a hcm hst hc => by
          have ha : a.chan i = s.chan i := by rw [State.chan, hcm, State.chan]
          rw [applyLoaded, if_pos htab, validChan_congr hcm hst, hok]
          show applyChan followInner i e a = _
          rw [applyChan_of_entry_alone (ha ▸ hs) (ha ▸ hcls) (ha ▸ hstale) ?_ (hc.trans hcap) hi, ha]
          · simp only [setChan, hcm]
          · rw [State.bypassed, ha, hbyp]
            rfl
      refine ⟨t, ht', ?_, fun c hc => ?_⟩
      · rw [hchan, chan_setChan_same hi]
      · rw [hchan, chan_setChan_ne hc.symm]
  · have hquiet : s.deLow = true := by rw [State.deLow, htx]; rfl
    have hrun : exec .summitBreakDetect s = .next (breakDetected s) := event_of_released hpin _
    rw [hrun, breakDetected, hquiet]
    simp only [Bool.not_true, Bool.false_eq_true, if_false]
    obtain ⟨h1, h2, h3, h4, h5, h6, h7, h8, h9, h10, h11⟩ := raise_break (s := restartDetection { s with sl := { s.sl with
      turn := (match s.sl.turn with
        | .none => TurnPhase.none
        | .sending => .sending
        | .window t => .window t
        | .receiving cs _ => .receiving cs true), summitBreak := true } }) (settled_of_eq hset rfl rfl rfl) hl
    exact ⟨_, rfl, h1, h2, h3, h4, h5, h6, h7, h8, h9, h10, fun j _ => h11 j⟩

end Sys2Proof.Machine
end

section
/-! The launch release (R80 to R82): the record that its conditions give, and the LINK_BACKLOG sources of its evaluation. -/

namespace Sys2Proof.Machine

open Sys2Proof.Safety

/-! ## The release record (R80, R81) -/

theorem sendLaunchRel_of_no_node {s : State} (h : s.params.conveyorNode = 0) : sendLaunchRel s = s := if_pos h

/-- R209: the LAUNCH_REL frame of a release. -/
def launchFrame (node : Nat) (r : Release) (id : Nat) : QFrame :=
  { dest := node, kind := .launchRel, tag := 0, restart := false,
    payload := enc1 (if r = .go then 1 else 0) ++ enc2 id }

theorem sendLaunchRel_of_node {s : State} (h : s.params.conveyorNode ≠ 0) :
    sendLaunchRel s = offerSafety (launchFrame s.params.conveyorNode s.ct.release s.ct.releaseCabin) s := by
  rw [sendLaunchRel, if_neg h, launchFrame]
  cases s.ct.release <;> rfl

/-- R80: the release record set. -/
def released (r : Release) (id : Nat) (s : State) : State :=
  { s with ct := { s.ct with
      release := r, releaseCabin := id
      lastGo := if s.ct.release = .go then some { id := s.ct.releaseCabin, leftAt := s.now } else s.ct.lastGo } }

theorem updateRelease_of_same {s : State} {r : Release} {id : Nat} (h : releaseNow s = (r, id)) (hr : s.ct.release = r)
    (hid : s.ct.releaseCabin = id) : updateRelease s = s := by
  rw [updateRelease, h]
  exact if_pos ⟨hr.symm, hid.symm⟩

theorem updateRelease_of_new {s : State} {r : Release} {id : Nat} (h : releaseNow s = (r, id))
    (hn : s.ct.release ≠ r ∨ s.ct.releaseCabin ≠ id) : updateRelease s = sendLaunchRel (released r id s) := by
  rw [updateRelease, h]
  exact if_neg fun hc => hn.elim (fun h => h hc.1.symm) (fun h => h hc.2.symm)

theorem releaseNow_of_empty {s : State} (h : ∀ c ∈ s.ct.queue, c.zone ≠ s.launchZone) : releaseNow s = (.hold, 0) := by
  have hn : s.launchHead = none := List.find?_eq_none.2 fun c hc => by simpa using h c hc
  rw [releaseNow, hn]

/-- R72: the oldest record of LAUNCH. -/
theorem launchHead_of_split {s : State} {c : Cabin} {before after : List Cabin} (hq : s.ct.queue = before ++ c :: after)
    (hc : c.zone = s.launchZone) (hb : ∀ x ∈ before, x.zone ≠ s.launchZone) : s.launchHead = some c := by
  rw [State.launchHead, hq, List.find?_append, List.find?_eq_none.2 fun x hx => by simpa using hb x hx,
    List.find?_cons_of_pos (by simpa using hc)]
  rfl

/-- R18, R80: the conditions of GO. -/
theorem mayGo_iff (s : State) (c : Cabin) :
    mayGo s c = true ↔ (s.ls.line = .running ∨ s.ls.line = .slowed) ∧ c.identity = .registered ∧ c.locked = true
      ∧ c.grip = .pass
      ∧ (s.ra.qValid = true → s.params.minSpacing ≤ (((s.ra.p : Int) - s.ra.q) % s.params.loopLen).toNat)
      ∧ s.ct.uphill.length < 64 ∧ s.sl.txQueue.length < 16 := by
  have hspace : s.spacing = true ↔
      (s.ra.qValid = true → s.params.minSpacing ≤ (((s.ra.p : Int) - s.ra.q) % s.params.loopLen).toNat) := by
    rw [State.spacing]
    cases s.ra.qValid with
    | false => simp
    | true =>
      rw [Bool.not_true, Bool.false_or, decide_eq_true_iff]
      exact ⟨fun h _ => h, fun h => h rfl⟩
  have hfull : s.txFull = false ↔ s.sl.txQueue.length < 16 := by
    rw [State.txFull, decide_eq_false_iff_not, Nat.not_le]
    exact Iff.rfl
  simp only [mayGo, Bool.and_eq_true, decide_eq_true_eq, beq_iff_eq, hspace, Bool.not_eq_true', hfull, and_assoc]
  exact Iff.rfl

/-- R80, R81: what an evaluation of the release leaves, when the conditions give a release and a cabin. -/
theorem updateRelease_given {s : State} {r : Release} {id : Nat} (h : releaseNow s = (r, id)) :
    (s.ct.release = r → s.ct.releaseCabin = id → updateRelease s = s)
    ∧ (s.ct.release ≠ r ∨ s.ct.releaseCabin ≠ id →
      (s.params.conveyorNode = 0 → updateRelease s = released r id s)
      ∧ (s.params.conveyorNode ≠ 0 → (∀ g ∈ s.lr.safety, g.kind ≠ .launchRel) →
        updateRelease s = { released r id s with
          lr := { s.lr with safety := s.lr.safety ++ [launchFrame s.params.conveyorNode r id] } })
      ∧ ∀ before g after, s.params.conveyorNode ≠ 0 → s.lr.safety = before ++ g :: after → g.kind = .launchRel →
        (∀ h ∈ before ++ after, h.kind ≠ .launchRel) →
        updateRelease s = { released r id s with
          lr := { s.lr with safety := before ++ launchFrame s.params.conveyorNode r id :: after } }) := by
  refine ⟨updateRelease_of_same h, fun hn => ⟨fun hz => ?_, fun hz hq => ?_, fun before g after hz hl hg hq => ?_⟩⟩
  · rw [updateRelease_of_new h hn, sendLaunchRel_of_no_node (s := released r id s) hz]
  · rw [updateRelease_of_new h hn, sendLaunchRel_of_node (s := released r id s) hz,
      offerSafety_of_absent (s := released r id s) (f := launchFrame _ _ _) hq]
    rfl
  · rw [updateRelease_of_new h hn, sendLaunchRel_of_node (s := released r id s) hz,
      offerSafety_of_listed (s := released r id s) (f := launchFrame _ _ _) hl hg hq]
    rfl

/-! ## A fault raised again (R50, R52) -/

theorem listFault_of_present {f : Raise} {s : State} (hany : ∃ e ∈ s.ls.faults, Names f e)
    (h : ∀ e ∈ s.ls.faults, Names f e → raisedAgain f e = e ∧ e.present = true) : listFault f s = s := by
  have hhit := (any_names f s.ls.faults).2 hany
  have hagain : s.ls.faults.any (fun e => decide (e.source = f.source ∧ e.code = f.code) && !e.present) = false := by
    rw [List.any_eq_false]
    intro e he hc
    rw [Bool.and_eq_true, decide_eq_true_eq] at hc
    rw [(h e he hc.1).2] at hc
    simp at hc
  have hmap : s.ls.faults.map (fun e => if decide (e.source = f.source ∧ e.code = f.code) = true then updateEntry f e
      else e) = s.ls.faults := by
    refine (List.map_congr_left fun e he => ?_).trans (List.map_id _)
    split
    · rename_i hc
      rw [updateEntry_eq]
      exact (h e he (by simpa [Names] using hc)).1
    · rfl
  unfold listFault
  simp only [hhit, if_true, hagain, Bool.and_false, Bool.false_eq_true, if_false, hmap]

theorem listFault_of_folded {f : Raise} {s : State} (hnone : ∀ e ∈ s.ls.faults, ¬ Names f e)
    (hfull : 32 ≤ s.ls.faults.length) (hover : s.ls.overflow.max f.cls.demand = s.ls.overflow)
    (hflag : s.flag .overflow = true) : listFault f s = s := by
  have hhit : s.ls.faults.any (fun e => decide (e.source = f.source ∧ e.code = f.code)) = false := by
    rw [Bool.eq_false_iff, ne_eq, any_names]
    exact fun ⟨e, he, hn⟩ => hnone e he hn
  unfold listFault
  simp only [hhit, Bool.false_eq_true, if_false, if_neg (Nat.not_lt.2 (show Config.faultCap ≤ _ from hfull)), hover]
  exact if_pos hflag

theorem raisedAgain_raisedAgain (f : Raise) (e : FaultEntry) : raisedAgain f (raisedAgain f e) = raisedAgain f e := by
  unfold raisedAgain
  split_ifs <;> simp_all

theorem raisedAgain_freshEntry (f : Raise) (s : State) : raisedAgain f (freshEntry f s) = freshEntry f s := by
  simp [raisedAgain, freshEntry]

/-- R54: in a state that obeys its demand, the demand formed again is the demand. -/
theorem reform_of_demandKept {s : State} (h : DemandKept s) : reform s = s := by
  have hd : s.demandNow = s.ls.effDemand := MostSevere.unique (demandNow_mostSevere s) h.demand
  unfold reform
  rw [hd]
  have ht : lineTarget s.ls.line s.ls.effDemand = none := by
    have h1 := h.trip
    have h2 := h.running
    have h3 := h.slowed
    have h4 := h.starting
    cases hl : s.ls.line <;> cases he : s.ls.effDemand <;> simp_all [lineTarget]
  simp only [ht, ne_eq, not_true_eq_false, and_false, if_false]

/-! ## A fault raised twice in one evaluation -/

theorem mem_listGone_of_other {src : Source} {code : FaultCode} {l : List FaultEntry} {e : FaultEntry}
    (h : e ∈ (listGone src code l).1) (hn : ¬ (e.source = src ∧ e.code = code)) : e ∈ l := by
  rcases mem_listGone h with h | ⟨g, -, hs, hc, -, rfl⟩
  · exact h
  · exact absurd ⟨hs, hc⟩ hn

theorem mem_listAfter {f : Raise} {s : State} {e : FaultEntry} (h : e ∈ listAfter f s) (hn : Names f e) :
    (∃ g ∈ s.ls.faults, Names f g ∧ e = raisedAgain f g) ∨ e = freshEntry f s := by
  unfold listAfter at h
  split at h
  · obtain ⟨g, hg, rfl⟩ := List.mem_map.1 h
    split at hn
    · rename_i hname
      rw [if_pos hname]
      exact .inl ⟨g, hg, hname, rfl⟩
    · rename_i hname
      exact absurd hn hname
  · rename_i hany
    have hnone : ∀ g ∈ s.ls.faults, ¬ Names f g := fun g hg hname => hany ((any_names f _).2 ⟨g, hg, hname⟩)
    split at h
    · rcases List.mem_append.1 h with h | h
      · exact absurd hn (hnone e h)
      · exact .inr (List.mem_singleton.1 h)
    · exact absurd hn (hnone e h)

theorem exists_mem_listAfter {f : Raise} {s : State}
    (h : (∃ e ∈ s.ls.faults, Names f e) ∨ s.ls.faults.length < 32) : ∃ e ∈ listAfter f s, Names f e := by
  by_cases hany : ∃ e ∈ s.ls.faults, Names f e
  · obtain ⟨e, he, hn⟩ := hany
    refine ⟨raisedAgain f e, ?_, hn⟩
    rw [listAfter, (any_names f _).2 ⟨e, he, hn⟩, if_pos rfl]
    exact List.mem_map.2 ⟨e, he, if_pos hn⟩
  · refine ⟨freshEntry f s, ?_, rfl, rfl⟩
    rw [listAfter_of_fresh (fun e he hn => hany ⟨e, he, hn⟩) (h.resolve_left hany)]
    exact List.mem_append_right _ List.mem_cons_self

theorem listAfter_of_full {f : Raise} {s : State} (hnone : ∀ e ∈ s.ls.faults, ¬ Names f e)
    (hfull : 32 ≤ s.ls.faults.length) : listAfter f s = s.ls.faults := by
  have hany : s.ls.faults.any (fun e => decide (e.source = f.source ∧ e.code = f.code)) = false := by
    rw [List.any_eq_false]
    exact fun e he => by simpa [Names] using hnone e he
  rw [listAfter, hany, if_neg (by simp), if_neg (Nat.not_lt.2 hfull)]

/-- R52, R54: a SLOW fault that the full list does not take leads a line that obeys its demand to no state in which its run
ends. -/
theorem not_lineEnds_of_folded {f : Raise} {s t : State} (hkept : DemandKept s) (hc : f.cls = .slow)
    (hnone : ∀ e ∈ s.ls.faults, ¬ Names f e) (hfull : 32 ≤ s.ls.faults.length) (hr : Raised f s t) : ¬ LineEnds s t := by
  rintro ⟨hne, hends⟩
  obtain ⟨d, hd, hline⟩ := hr.line
  obtain ⟨hfaults, -, -, -, -, hfold, -⟩ := listFault_spec f s
  have hlist : (listFault f s).ls.faults = s.ls.faults := by
    rw [hfaults, listAfter_of_full hnone hfull]
  have hover := (hfold hnone hfull).1
  have hdesk : (listFault f s).ls.deskDemand = s.ls.deskDemand := by rw [listFault_ls]
  obtain ⟨-, h1, h2, h3⟩ := hkept.demand
  have hle : d.code ≤ max s.ls.effDemand.code Demand.slow.code := by
    rcases hd.1 with rfl | rfl | ⟨e, he, hs, rfl⟩
    · rw [hdesk]
      exact h1.trans (le_max_left _ _)
    · rw [hover, Demand.code_max, hc]
      exact max_le_max h2 (le_refl _)
    · rw [hlist] at he
      exact (h3 e he ((stands_congr (blind_cm.listFault _ _) e).1 hs)).trans (le_max_left _ _)
  have htrip := hkept.trip
  have hrun := hkept.running
  have hslow := hkept.slowed
  have hstart := hkept.starting
  rw [hline] at hne hends
  cases hl : s.ls.line <;> cases he : s.ls.effDemand <;> cases d <;>
    simp_all [obeying, Demand.code]

/-- R50, R52: a SLOW fault raised again, after what its raising brought, changes nothing. -/
theorem listFault_again {f : Raise} {s t : State} (hkept : DemandKept s) (hc : f.cls = .slow) (hp : f.present = true)
    (hauto : f.code ≠ .autoSlow) (hls : t.ls = (raiseCore f s).ls)
    (hflag : (raiseCore f s).flag .overflow = true → t.flag .overflow = true) : listFault f t = t := by
  have hr := raiseCore_raised f s
  have hother : ∀ e, Names f e → ¬ (e.source = .line ∧ e.code = .autoSlow) := fun e hn h => hauto (hn.2.symm.trans h.2)
  by_cases hlisted : (∃ e ∈ s.ls.faults, Names f e) ∨ s.ls.faults.length < 32
  · obtain ⟨e, he, hn⟩ := exists_mem_listAfter (f := f) hlisted
    refine listFault_of_present ⟨e, ?_, hn⟩ fun g hg hng => ?_
    · rw [hls]
      rcases hr.list with h | ⟨-, h⟩ <;> rw [h]
      · exact he
      · exact mem_listGone_other he (hother e hn)
    · have hmem : g ∈ listAfter f s := by
        rw [hls] at hg
        rcases hr.list with h | ⟨-, h⟩ <;> rw [h] at hg
        · exact hg
        · exact mem_listGone_of_other hg (hother g hng)
      rcases mem_listAfter hmem hng with ⟨x, -, -, rfl⟩ | rfl
      · exact ⟨raisedAgain_raisedAgain f x, by simp [raisedAgain, hp]⟩
      · exact ⟨raisedAgain_freshEntry f s, hp⟩
  · have hnone : ∀ e ∈ s.ls.faults, ¬ Names f e := fun e he hn => hlisted (.inl ⟨e, he, hn⟩)
    have hfull : 32 ≤ s.ls.faults.length := Nat.not_lt.1 fun h => hlisted (.inr h)
    obtain ⟨hover, hset⟩ := hr.folded hnone hfull
    have hlist : (raiseCore f s).ls.faults = s.ls.faults := by
      rcases hr.list with h | ⟨h, -⟩
      · rw [h, listAfter_of_full hnone hfull]
      · exact absurd h (not_lineEnds_of_folded hkept hc hnone hfull hr)
    refine listFault_of_folded ?_ ?_ ?_ (hflag hset)
    · rw [hls, hlist]
      exact hnone
    · rw [hls, hlist]
      exact hfull
    · rw [hls, hover, hc]
      cases s.ls.overflow <;> rfl

/-! ## The LINK_BACKLOG sources (R82) -/

theorem updateRelease_ct (s : State) : (updateRelease s).ct = { s.ct with
    release := (updateRelease s).ct.release, releaseCabin := (updateRelease s).ct.releaseCabin
    lastGo := (updateRelease s).ct.lastGo } := (updateRelease_lineOnly s).ct

theorem launchHead_of_lineOnly {s t : State} (h : LineOnly s t) : t.launchHead = s.launchHead := by
  have hs : t.straps = s.straps := h.others .straps (by decide)
  rw [State.launchHead, State.launchZone, State.berthCount, hs, h.ct]
  rfl

theorem txFull_of_lineOnly {s t : State} (h : LineOnly s t) : t.txFull = s.txFull := by
  rw [State.txFull, h.sl]
  rfl

/-- R82: the waiting source let go: withdrawn, unless it is a launched one too. -/
theorem letGoWaiting_of_none {s : State} (h : s.ct.backlogWaiting = none) : letGoWaiting s = s := by
  rw [letGoWaiting, h]

theorem letGoWaiting_of_launched {s : State} {w : Nat} (h : s.ct.backlogWaiting = some w)
    (hl : w ∈ s.ct.backlogLaunched) : letGoWaiting s = { s with ct := { s.ct with backlogWaiting := none } } := by
  rw [letGoWaiting, h]
  exact if_pos (List.contains_iff_mem.2 hl)

theorem letGoWaiting_of_alone {s : State} {w : Nat} (h : s.ct.backlogWaiting = some w)
    (hl : w ∉ s.ct.backlogLaunched) :
    letGoWaiting s = goneCore (.cabin w) .linkBacklog { s with ct := { s.ct with backlogWaiting := none } } := by
  rw [letGoWaiting, h]
  exact if_neg fun hc => hl (List.contains_iff_mem.1 hc)

theorem letGoLaunched_of_nil {s : State} (h : s.ct.backlogLaunched = []) : letGoLaunched s = s := by
  rw [letGoLaunched, h]
  show ({ s with ct := { s.ct with backlogLaunched := [] } } : State) = s
  rw [← h]

theorem letGoLaunched_of_single {s : State} {w : Nat} (h : s.ct.backlogLaunched = [w])
    (hw : s.ct.backlogWaiting ≠ some w) :
    letGoLaunched s = goneCore (.cabin w) .linkBacklog { s with ct := { s.ct with backlogLaunched := [] } } := by
  rw [letGoLaunched, h]
  exact if_neg hw

theorem letGoWaiting_txQueue (s : State) : (letGoWaiting s).sl.txQueue = s.sl.txQueue := by
  cases h : s.ct.backlogWaiting with
  | none => rw [letGoWaiting_of_none h]
  | some w =>
    by_cases hl : w ∈ s.ct.backlogLaunched
    · rw [letGoWaiting_of_launched h hl]
    · rw [letGoWaiting_of_alone h hl, goneCore_sl_txQueue]

theorem letGoLaunched_txQueue (s : State) : (letGoLaunched s).sl.txQueue = s.sl.txQueue := by
  have hfold : ∀ (l : List Nat) (t : State), (l.foldl
      (fun t x => if t.ct.backlogWaiting = some x then t else goneCore (.cabin x) .linkBacklog t) t).sl.txQueue
        = t.sl.txQueue := by
    intro l
    induction l with
    | nil => exact fun t => rfl
    | cons x xs ih =>
      intro t
      rw [List.foldl_cons, ih]
      split
      · rfl
      · exact goneCore_sl_txQueue _ _ _
  exact hfold _ _

/-- R82: with room in the transmit queue every source is let go. -/
theorem evalBacklog_of_room {s : State} (h : s.txFull = false) :
    evalBacklog s = letGoLaunched (letGoWaiting s) := by
  have hroom : ∀ t : State, t.sl.txQueue = s.sl.txQueue → t.txFull = false := fun t ht => by
    rw [State.txFull, ht]
    exact h
  have h1 : (if s.ct.backlogWaiting.isSome = true ∧ (¬ s.txFull = true ∨ s.launchHead.map (·.id) ≠ s.ct.backlogWaiting)
      then letGoWaiting s else s) = letGoWaiting s := by
    cases hw : s.ct.backlogWaiting with
    | none => rw [if_neg (by simp), letGoWaiting_of_none hw]
    | some w => rw [if_pos ⟨rfl, .inl (by simp [h])⟩]
  have hw := hroom _ (letGoWaiting_txQueue s)
  have hl := hroom _ ((letGoLaunched_txQueue _).trans (letGoWaiting_txQueue s))
  unfold evalBacklog
  simp only [h1, hw, Bool.false_eq_true, if_false, hl]
  split <;> rfl

/-- R82: with the transmit queue full a waiting source is let go unless it is the oldest record of LAUNCH, and that record
is the waiting source. -/
theorem evalBacklog_of_full_empty {s : State} (h : s.txFull = true) (hh : s.launchHead = none) :
    evalBacklog s = letGoWaiting s := by
  have hfull : (letGoWaiting s).txFull = true := by
    rw [State.txFull, letGoWaiting_txQueue]
    exact h
  cases hw : s.ct.backlogWaiting with
  | none =>
    unfold evalBacklog
    simp [hh, hw, h, letGoWaiting_of_none hw]
  | some w =>
    unfold evalBacklog
    simp [hh, hw, hfull]

theorem evalBacklog_of_full_same {s : State} {c : Cabin} (h : s.txFull = true) (hh : s.launchHead = some c)
    (hw : s.ct.backlogWaiting = none ∨ s.ct.backlogWaiting = some c.id) :
    evalBacklog s = raiseCore (backlogFault c.id) { s with ct := { s.ct with backlogWaiting := some c.id } } := by
  unfold evalBacklog
  rcases hw with hw | hw <;> simp [hh, hw, h]

theorem evalBacklog_of_full_other {s : State} {c : Cabin} {w : Nat} (h : s.txFull = true) (hh : s.launchHead = some c)
    (hw : s.ct.backlogWaiting = some w) (hne : w ≠ c.id) :
    evalBacklog s = raiseCore (backlogFault c.id)
      { letGoWaiting s with ct := { (letGoWaiting s).ct with backlogWaiting := some c.id } } := by
  have hfull : (letGoWaiting s).txFull = true := by
    rw [State.txFull, letGoWaiting_txQueue]
    exact h
  unfold evalBacklog
  simp [hh, hw, hfull, hne.symm]

/-! ## The evaluation (R80, R82) -/

theorem evalRelease_eq (s : State) :
    evalRelease s = if (evalReleaseOnce s).ls.line = s.ls.line then evalReleaseOnce s
      else evalReleaseOnce (evalReleaseOnce s) := rfl

theorem txFull_eq_false {s : State} (h : s.sl.txQueue.length < 16) : s.txFull = false :=
  decide_eq_false (Nat.not_le.2 h)

theorem txFull_eq_true {s : State} (h : 16 ≤ s.sl.txQueue.length) : s.txFull = true := decide_eq_true h

theorem evalReleaseOnce_of_idle {s : State} (h : s.txFull = false) (hw : s.ct.backlogWaiting = none)
    (hl : s.ct.backlogLaunched = []) : evalReleaseOnce s = updateRelease s := by
  have hu := updateRelease_lineOnly s
  have hw' : (updateRelease s).ct.backlogWaiting = none := by
    rw [hu.ct]
    exact hw
  have hl' : (updateRelease s).ct.backlogLaunched = [] := by
    rw [hu.ct]
    exact hl
  rw [evalReleaseOnce, evalBacklog_of_room ((txFull_of_lineOnly hu).trans h), letGoWaiting_of_none hw',
    letGoLaunched_of_nil hl']

theorem releaseNow_congr {s t : State} (hq : t.ct.queue = s.ct.queue) (hs : t.straps = s.straps)
    (hl : t.ls.line = s.ls.line) (hp : t.ls.params = s.ls.params) (hra : t.ra = s.ra) (hu : t.ct.uphill = s.ct.uphill)
    (htx : t.sl.txQueue = s.sl.txQueue) : releaseNow t = releaseNow s := by
  have hspace : t.spacing = s.spacing := by
    rw [State.spacing, State.spacing, State.forwardDist, State.forwardDist, State.params, State.params, hp, hra]
  have hfull : t.txFull = s.txFull := by rw [State.txFull, State.txFull, htx]
  have hgo : ∀ c, mayGo t c = mayGo s c := fun c => by rw [mayGo, mayGo, hl, hspace, hu, hfull]
  have hhead : t.launchHead = s.launchHead := by
    simp only [State.launchHead, State.launchZone, State.berthCount, hq, hs]
  simp only [releaseNow, hhead, hgo]

theorem updateRelease_record (s : State) :
    ((updateRelease s).ct.release, (updateRelease s).ct.releaseCabin) = releaseNow s := by
  have hsend : ∀ t, (sendLaunchRel t).ct = t.ct := fun t => by
    unfold sendLaunchRel
    split <;> rfl
  by_cases h : s.ct.release = (releaseNow s).1 ∧ s.ct.releaseCabin = (releaseNow s).2
  · rw [updateRelease_of_same (r := (releaseNow s).1) rfl h.1 h.2, h.1, h.2]
  · rw [updateRelease_of_new (r := (releaseNow s).1) rfl (not_and_or.1 h), hsend]
    rfl

/-- R80: after an evaluation, what LINK_BACKLOG's sources bring changes the release only by a line state change. -/
theorem updateRelease_of_line {s u t : State} (hu : u.ct = { (updateRelease s).ct with
      backlogWaiting := u.ct.backlogWaiting, backlogLaunched := u.ct.backlogLaunched })
    (hframe : LineOnly { updateRelease s with ct := u.ct } t) (hl : t.ls.line = s.ls.line) (hct : t.ct = u.ct) :
    updateRelease t = t := by
  have hs := updateRelease_lineOnly s
  have hrec := updateRelease_record s
  have hnow : releaseNow t = releaseNow s := by
    refine releaseNow_congr ?_ ?_ hl ?_ ?_ ?_ ?_
    · rw [hct, hu, hs.ct]
    · exact (hframe.others .straps (by decide)).trans (hs.others .straps (by decide))
    · exact hframe.params.trans hs.params
    · exact (hframe.others .ra (by decide)).trans (hs.others .ra (by decide))
    · rw [hct, hu, hs.ct]
    · rw [hframe.sl]
      show (updateRelease s).sl.txQueue = _
      rw [updateRelease_sl]
  refine updateRelease_of_same (r := (releaseNow s).1) (id := (releaseNow s).2) hnow ?_ ?_
  · rw [hct, hu, ← hrec]
  · rw [hct, hu, ← hrec]

/-- R82: with room in the transmit queue the kept source is withdrawn, and the release evaluated once more. -/
theorem evalRelease_lets_go {s : State} {w : Nat} (hroom : s.sl.txQueue.length < 16)
    (h : (s.ct.backlogWaiting = some w ∧ s.ct.backlogLaunched = [])
      ∨ (s.ct.backlogWaiting = some w ∧ s.ct.backlogLaunched = [w])
      ∨ (s.ct.backlogWaiting = none ∧ s.ct.backlogLaunched = [w])) :
    let u := updateRelease s
    ∃ v, evalRelease s = updateRelease v ∧ Withdrawn (.cabin w) .linkBacklog
      { u with ct := { u.ct with backlogWaiting := none, backlogLaunched := [] } } v := by
  intro u
  have hu := updateRelease_lineOnly s
  have hw : u.ct.backlogWaiting = s.ct.backlogWaiting := by rw [show u.ct = _ from hu.ct]
  have hl : u.ct.backlogLaunched = s.ct.backlogLaunched := by rw [show u.ct = _ from hu.ct]
  rw [← hw, ← hl] at h
  have hfull : u.txFull = false := (txFull_of_lineOnly hu).trans (txFull_eq_false hroom)
  set idle : State := { u with ct := { u.ct with backlogWaiting := none, backlogLaunched := [] } } with hidle
  have honce : evalReleaseOnce s = goneCore (.cabin w) .linkBacklog idle := by
    rw [evalReleaseOnce, evalBacklog_of_room hfull]
    rcases h with ⟨h1, h2⟩ | ⟨h1, h2⟩ | ⟨h1, h2⟩
    · have hsame : ({ u with ct := { u.ct with backlogWaiting := none } } : State) = idle := by
        rw [hidle, ← h2]
      rw [letGoWaiting_of_alone h1 (by rw [h2]; exact List.not_mem_nil), letGoLaunched_of_nil]
      · exact congrArg _ hsame
      · rw [goneCore_ct]
        exact h2
    · rw [letGoWaiting_of_launched h1 (by rw [h2]; exact List.mem_cons_self),
        letGoLaunched_of_single (s := { u with ct := { u.ct with backlogWaiting := none } }) h2 (by simp)]
    · have hsame : ({ u with ct := { u.ct with backlogLaunched := [] } } : State) = idle := by
        rw [hidle, ← h1]
      rw [letGoWaiting_of_none h1, letGoLaunched_of_single h2 (by rw [h1]; simp)]
      exact congrArg _ hsame
  set v := goneCore (.cabin w) .linkBacklog idle with hv
  have hframe : LineOnly idle v := goneCore_lineOnly _ _ _
  have hvct : v.ct = idle.ct := goneCore_ct _ _ _
  refine ⟨v, ?_, goneCore_withdrawn _ _ _⟩
  rw [evalRelease_eq, honce]
  split
  · rename_i hline
    exact (updateRelease_of_line (u := idle) rfl hframe hline hvct).symm
  · refine evalReleaseOnce_of_idle ((txFull_of_lineOnly hframe).trans hfull) ?_ ?_
    · rw [hvct]
    · rw [hvct]

/-- R82: the oldest record of LAUNCH is the waiting source while the transmit queue is full. -/
theorem evalRelease_raises {s t : State} {c : Cabin} (hkept : DemandKept t) (hw : t.ct.backlogWaiting = some c.id)
    (hhead : t.launchHead = some c) (hfull : t.txFull = true)
    (honce : evalReleaseOnce s = raiseCore (backlogFault c.id) t) : Raised (backlogFault c.id) t (evalRelease s) := by
  set v := raiseCore (backlogFault c.id) t with hv
  have hframe : LineOnly t v := raiseCore_lineOnly _ _
  have hu : LineOnly v (updateRelease v) := updateRelease_lineOnly v
  rw [evalRelease_eq, honce]
  split
  · exact raiseCore_raised _ _
  · have hls : (updateRelease v).ls = v.ls := updateRelease_ls v
    have hkv : DemandKept v := raiseCore_demandKept hkept.deskAndDrive
    have hku : DemandKept (updateRelease v) := hkv.of_eq hls (hu.others .cm (by decide))
    have hwu : (updateRelease v).ct.backlogWaiting = some c.id := by
      rw [hu.ct, hframe.ct]
      exact hw
    have hagain : evalReleaseOnce v = updateRelease v := by
      rw [evalReleaseOnce, evalBacklog_of_full_same (c := c) ?_ ?_ (.inr hwu)]
      · have hsame : ({ updateRelease v with ct := { (updateRelease v).ct with backlogWaiting := some c.id } } : State)
            = updateRelease v := by rw [← hwu]
        rw [hsame, raiseCore, listFault_again hkept rfl rfl (by simp [backlogFault]) (hls.trans rfl) (fun h => hu.flags _ h),
          reform_of_demandKept hku]
      · rw [txFull_of_lineOnly hu, txFull_of_lineOnly hframe, hfull]
      · rw [launchHead_of_lineOnly hu, launchHead_of_lineOnly hframe, hhead]
    rw [hagain]
    exact raised_of_core _ hls hu

/-- Settles O28. -/
theorem launchReleaseFollowsItsConditions : Obligations.LaunchReleaseFollowsItsConditions := by
  refine ⟨fun s => ?_, fun s => ?_⟩
  · intro given
    refine ⟨fun h => updateRelease_given (releaseNow_of_empty h), fun c before after hq hc hb => ?_⟩
    have hhead := launchHead_of_split hq hc hb
    intro go
    refine ⟨fun hgo => updateRelease_given ?_, fun hgo => updateRelease_given ?_⟩
    · rw [releaseNow, hhead]
      exact congrArg (fun r => (r, c.id)) (if_pos ((mayGo_iff s c).2 hgo))
    · rw [releaseNow, hhead]
      exact congrArg (fun r => (r, c.id)) (if_neg (mt (mayGo_iff s c).1 hgo))
  · intro u waits raised gone
    have hu : LineOnly s u := updateRelease_lineOnly s
    have huw : u.ct.backlogWaiting = s.ct.backlogWaiting := by rw [hu.ct]
    have hul : u.ct.backlogLaunched = s.ct.backlogLaunched := by rw [hu.ct]
    have huls : u.ls = s.ls := updateRelease_ls s
    refine ⟨fun hroom => ⟨fun hw hl => ?_, fun w h => evalRelease_lets_go hroom h⟩, fun hroom => ⟨fun hempty => ?_,
      fun c before after hq hc hb hkept => ?_⟩⟩
    · have honce := evalReleaseOnce_of_idle (txFull_eq_false hroom) hw hl
      rw [evalRelease_eq, honce, if_pos (congrArg LineSup.line (updateRelease_ls s))]
    · have hfull : u.txFull = true := (txFull_of_lineOnly hu).trans (txFull_eq_true hroom)
      have hhead : u.launchHead = none := by
        rw [launchHead_of_lineOnly hu]
        exact List.find?_eq_none.2 fun c hc => by simpa using hempty c hc
      have honce : evalReleaseOnce s = letGoWaiting u := evalBacklog_of_full_empty hfull hhead
      refine ⟨fun hw => ?_, fun w hw => ⟨fun hl => ?_, fun hl => ?_⟩⟩
      · rw [evalRelease_eq, honce, letGoWaiting_of_none (huw.trans hw), if_pos (congrArg LineSup.line huls)]
      · rw [evalRelease_eq, honce, letGoWaiting_of_launched (huw.trans hw) (hul ▸ hl),
          if_pos (congrArg LineSup.line huls)]
      · have hgone : letGoWaiting u = goneCore (.cabin w) .linkBacklog (waits none u) :=
          letGoWaiting_of_alone (huw.trans hw) (hul ▸ hl)
        rw [evalRelease_eq, honce, hgone]
        split
        · exact goneCore_withdrawn _ _ _
        · set v := goneCore (.cabin w) .linkBacklog (waits none u) with hv
          have hframe : LineOnly (waits none u) v := goneCore_lineOnly _ _ _
          have hv' : LineOnly v (updateRelease v) := updateRelease_lineOnly v
          have hagain : evalReleaseOnce v = updateRelease v := by
            rw [evalReleaseOnce, evalBacklog_of_full_empty, letGoWaiting_of_none]
            · rw [hv'.ct, hframe.ct]
            · rw [txFull_of_lineOnly hv', txFull_of_lineOnly hframe]
              exact hfull
            · rw [launchHead_of_lineOnly hv', launchHead_of_lineOnly hframe]
              exact hhead
          rw [hagain]
          exact withdrawn_of_core _ _ (updateRelease_ls v) hv'
    · have hfull : u.txFull = true := (txFull_of_lineOnly hu).trans (txFull_eq_true hroom)
      have hhead : u.launchHead = some c := (launchHead_of_lineOnly hu).trans (launchHead_of_split hq hc hb)
      have hku : DemandKept u := hkept.of_eq huls (hu.others .cm (by decide))
      refine ⟨fun hw => ?_, fun w hw hne => ⟨fun hl => ?_, fun hl => ?_⟩⟩
      · exact evalRelease_raises (t := waits (some c.id) u) (hku.of_eq rfl rfl) rfl hhead hfull
          (evalBacklog_of_full_same hfull hhead (huw ▸ hw))
      · refine evalRelease_raises (t := waits (some c.id) u) (hku.of_eq rfl rfl) rfl hhead hfull ?_
        rw [evalReleaseOnce, evalBacklog_of_full_other hfull hhead (huw.trans hw) hne,
          letGoWaiting_of_launched (huw.trans hw) (hul ▸ hl)]
      · have hgone : letGoWaiting u = goneCore (.cabin w) .linkBacklog (waits none u) :=
          letGoWaiting_of_alone (huw.trans hw) (hul ▸ hl)
        have hframe : LineOnly (waits none u) (letGoWaiting u) := by
          rw [hgone]
          exact goneCore_lineOnly _ _ _
        refine ⟨letGoWaiting u, ?_, ?_⟩
        · rw [hgone]
          exact goneCore_withdrawn _ _ _
        · refine evalRelease_raises (t := waits (some c.id) (letGoWaiting u)) ?_ rfl ?_ ?_
            (evalBacklog_of_full_other hfull hhead (huw.trans hw) hne)
          · have hkg : DemandKept (letGoWaiting u) := by
              rw [hgone]
              exact goneCore_demandKept (DemandKept.of_eq (t := waits none u) hku rfl rfl).deskAndDrive
            exact hkg.of_eq rfl rfl
          · exact (launchHead_of_lineOnly hframe).trans hhead
          · exact (txFull_of_lineOnly hframe).trans hfull

end Sys2Proof.Machine
end

section
/-! SUPPORT. The rules of DS's operations: the door records, the commands and the DOOR queue, the warning set, the gather,
the notices to CT. -/

namespace Sys2Proof.Machine

open Sys2Proof.Safety

/-! ## Door records -/

section
variable {j : Nat} {s t : State}

theorem setDoor_setDoor (hj : j ≤ 8) (d d' : Door) (s : State) : setDoor j d (setDoor j d' s) = setDoor j d s := by
  have hberth : (setDoor j d' s).berth j = { s.berth j with door := d' } := berth_setBerth_same hj _ s
  rw [setDoor, hberth]
  simp only [setDoor, setBerth, Vector.setIfInBounds_setIfInBounds]

theorem setDoor_self (j : Nat) (s : State) : setDoor j (s.door j) s = s := by
  have hself : s.ds.berths.setIfInBounds (j - 1) (s.berth j) = s.ds.berths := by
    apply Vector.ext
    intro i hi
    rw [Vector.getElem_setIfInBounds]
    split
    · rename_i h
      rw [State.berth, h, Vector.getElem?_eq_getElem hi]
      rfl
    · rfl
  unfold setDoor setBerth State.door
  rw [show ({ s.berth j with door := (s.berth j).door } : Berth) = s.berth j from rfl, hself]

theorem le_of_isBerth (h : s.isBerth j = true) : j ≤ 8 := (isBerth_bounds h).2

/-- The berths of a state with the same straps. -/
theorem isBerth_congr (h : t.straps = s.straps) (j : Nat) : t.isBerth j = s.isBerth j := by
  rw [State.isBerth, State.berthCount, h]
  rfl

theorem berthList_congr (h : t.straps = s.straps) : t.berthList = s.berthList := by
  rw [State.berthList, State.berthCount, h]
  rfl

/-- A door record after another one's change. -/
theorem door_setDoor_of_isBerth {i : Nat} (hj : s.isBerth j = true) (hi : 1 ≤ i) (d : Door) :
    (setDoor j d s).door i = if i = j then d else s.door i := by
  split
  · rename_i h
    rw [h, door_setDoor_same (le_of_isBerth hj)]
  · rename_i h
    exact door_setDoor_ne hi (isBerth_bounds hj).1 h d s

theorem berthEntry_setDoor {i : Nat} (hj : s.isBerth j = true) (hi : 1 ≤ i) (d : Door) :
    ((setDoor j d s).berth i).entry = (s.berth i).entry := by
  by_cases h : i = j
  · rw [h, entry_setDoor_same (le_of_isBerth hj)]
  · rw [berth_setDoor_ne hi (isBerth_bounds hj).1 h]

end

/-! ## The warning set (R106) -/

theorem foldl_congr_of_mem {α β : Type} {f g : β → α → β} {l : List α} (h : ∀ x ∈ l, ∀ b, f b x = g b x) (b : β) :
    l.foldl f b = l.foldl g b := by
  induction l generalizing b with
  | nil => rfl
  | cons x xs ih =>
    rw [List.foldl_cons, List.foldl_cons, h x List.mem_cons_self, ih fun y hy => h y (List.mem_cons_of_mem _ hy)]

/-- R106: the set depends on which doors of the berths are CLOSING. -/
theorem closingSet_congr {s t : State} (hs : t.straps = s.straps)
    (h : ∀ i, s.isBerth i = true → ((t.door i).state = .closing ↔ (s.door i).state = .closing)) :
    t.closingSet = s.closingSet := by
  rw [State.closingSet, State.closingSet, berthList_congr hs]
  refine foldl_congr_of_mem (fun i hi b => ?_) _
  simp only [h i (mem_berthList.1 hi)]

theorem closingSet_setDoor {j : Nat} {s : State} {d : Door} (hj : s.isBerth j = true)
    (h : d.state = .closing ↔ (s.door j).state = .closing) : (setDoor j d s).closingSet = s.closingSet := by
  refine closingSet_congr (setDoor_straps _ _ _) fun i hi => ?_
  rw [door_setDoor_of_isBerth hj (isBerth_bounds hi).1]
  split
  · rename_i hij
    rw [hij, h]
  · rfl

/-- What leaves DS and the straps alone leaves the warning set alone. -/
theorem closingSet_of_ds {s t : State} (hs : t.straps = s.straps) (hd : t.ds = s.ds) : t.closingSet = s.closingSet := by
  refine closingSet_congr hs fun i _ => ?_
  rw [State.door, State.berth, hd]
  rfl

/-- R106: at the end of an event that leaves the set as it was, nothing is offered. -/
theorem updateWarning_of_same {t : State} {m : Byte} (h : t.closingSet = m) : updateWarning m t = t := if_pos h

/-! ## Commands and the DOOR queue (R97) -/

/-- R209: the DOOR_CMD frame of a command. -/
def commandFrame (node : Nat) (cmd : DoorCmd) : QFrame :=
  { dest := node, kind := .doorCmd, payload := enc1 cmd.code, tag := 0, restart := false }

/-- R97: a door record whose command has just been placed for the first time. -/
def Door.placed (d : Door) (cmd : DoorCmd) (now limit : Nat) : Door :=
  { d with
    command := some (cmd, .placedOnce), ackTimer := some (now + 300), motionTimer := some (now + limit * 100) }

theorem placeCommand_first {j : Nat} {s : State} {cmd : DoorCmd} (h : (s.door j).command = some (cmd, .waiting)) :
    placeCommand j s = setDoor j ((s.door j).placed cmd s.now (s.berth j).entry.motionLimit)
      { s with lr := { s.lr with door := s.lr.door ++ [commandFrame (s.berth j).entry.doorNode cmd] } } := by
  have h' : (s.berth j).door.command = some (cmd, .waiting) := h
  simp only [placeCommand, h', reduceCtorEq, or_self, if_false]
  rfl

/-- R98: the command is placed again. -/
theorem placeCommand_again {j : Nat} {s : State} {cmd : DoorCmd} (h : (s.door j).command = some (cmd, .placedOnce)) :
    placeCommand j s = setDoor j { s.door j with
        command := some (cmd, .placedTwice), ackTimer := some (s.now + 300) }
      { s with lr := { s.lr with door := s.lr.door ++ [commandFrame (s.berth j).entry.doorNode cmd] } } := by
  have h' : (s.berth j).door.command = some (cmd, .placedOnce) := h
  simp only [placeCommand, h', true_or, if_true]
  rfl

theorem doorRoom_iff (s : State) : s.doorRoom = true ↔ s.lr.door.length < 8 := by
  rw [State.doorRoom, decide_eq_true_iff]
  exact Iff.rfl

theorem offerCommand_of_room {j : Nat} {s : State} (h : s.lr.door.length < 8) : offerCommand j s = placeCommand j s :=
  if_pos ((doorRoom_iff s).2 h)

theorem offerCommand_of_full {j : Nat} {s : State} (h : 8 ≤ s.lr.door.length) :
    offerCommand j s = { s with ds := { s.ds with waiting := s.ds.waiting ++ [.command j] } } :=
  if_neg fun hc => Nat.not_lt.2 h ((doorRoom_iff s).1 hc)

theorem unwait_of_not_mem {j : Nat} {s : State} (h : DoorWait.command j ∉ s.ds.waiting) : unwait j s = s := by
  have : s.ds.waiting.filter (fun w => w != .command j) = s.ds.waiting :=
    List.filter_eq_self.2 fun w hw => bne_iff_ne.2 fun e => h (e ▸ hw)
  rw [unwait, this]

/-- R97: a door record with a command formed. -/
def Door.commanded (d : Door) (cmd : DoorCmd) (st : DoorState) : Door :=
  { d with state := st, command := some (cmd, .waiting), ackTimer := none, motionTimer := none, dwellTimer := .stopped }

theorem recordCommand_of_not_mem {j : Nat} {s : State} (h : DoorWait.command j ∉ s.ds.waiting) (cmd : DoorCmd)
    (st : DoorState) : recordCommand j cmd st s = setDoor j ((s.door j).commanded cmd st) s := unwait_of_not_mem h

/-- R97: an OPEN command formed in a record no command of which waits. -/
theorem formOpen_of_not_mem {j : Nat} {s : State} (hj : s.isBerth j = true) (h : DoorWait.command j ∉ s.ds.waiting)
    (st : DoorState) (kind : DwellKind) :
    formOpen j st kind s = offerCommand j (setDoor j { (s.door j).commanded .open st with dwellKind := kind } s) := by
  have hj' := le_of_isBerth hj
  rw [formOpen, recordCommand_of_not_mem h]
  simp only [door_setDoor_same hj', setDoor_setDoor hj']

theorem formOpen_of_room {j : Nat} {s : State} (hj : s.isBerth j = true) (h : DoorWait.command j ∉ s.ds.waiting)
    (hroom : s.lr.door.length < 8) (st : DoorState) (kind : DwellKind) :
    formOpen j st kind s = setDoor j
      { ((s.door j).commanded .open st).placed .open s.now (s.berth j).entry.motionLimit with dwellKind := kind }
      { s with lr := { s.lr with door := s.lr.door ++ [commandFrame (s.berth j).entry.doorNode .open] } } := by
  have hj' := le_of_isBerth hj
  rw [formOpen_of_not_mem hj h, offerCommand_of_room (s := setDoor j _ s) hroom, placeCommand_first (cmd := .open)
    (by rw [door_setDoor_same hj']; rfl)]
  rw [door_setDoor_same hj', entry_setDoor_same hj']
  exact setDoor_setDoor hj' { ((s.door j).commanded .open st).placed .open s.now (s.berth j).entry.motionLimit with
      dwellKind := kind } { (s.door j).commanded .open st with dwellKind := kind }
    { s with lr := { s.lr with door := s.lr.door ++ [commandFrame (s.berth j).entry.doorNode .open] } }

theorem formOpen_of_full {j : Nat} {s : State} (hj : s.isBerth j = true) (h : DoorWait.command j ∉ s.ds.waiting)
    (hfull : 8 ≤ s.lr.door.length) (st : DoorState) (kind : DwellKind) :
    formOpen j st kind s = setDoor j { (s.door j).commanded .open st with dwellKind := kind }
      { s with ds := { s.ds with waiting := s.ds.waiting ++ [.command j] } } := by
  rw [formOpen_of_not_mem hj h, offerCommand_of_full (s := setDoor j _ s) hfull]
  rfl

/-! ## Notices to CT (R77) -/

/-- R77: the records of a berth with the doors-locked mark set to `b`. -/
def marked (j : Nat) (b : Bool) (s : State) : State :=
  { s with ct := { s.ct with queue := s.ct.queue.map fun c => if c.zone = j then { c with locked := b } else c } }

theorem noticeLocked_of_same {j : Nat} {b : Bool} {s : State} (h : ∀ c ∈ s.ct.queue, c.zone = j → c.locked = b) :
    noticeLocked j b s = s := by
  refine if_neg fun hc => ?_
  obtain ⟨c, hm, hz⟩ := List.any_eq_true.1 hc
  simp only [Bool.and_eq_true, beq_iff_eq, bne_iff_ne] at hz
  exact hz.2 (h c hm hz.1)

theorem noticeLocked_of_news {j : Nat} {b : Bool} {s : State} (hset : Settled s)
    (h : ∃ c ∈ s.ct.queue, c.zone = j ∧ c.locked ≠ b) : noticeLocked j b s = updateRelease (marked j b s) := by
  obtain ⟨c, hc, hz, hl⟩ := h
  have hany : s.ct.queue.any (fun c => c.zone == j && c.locked != b) = true :=
    List.any_eq_true.2 ⟨c, hc, by simp [hz, hl]⟩
  rw [noticeLocked, if_pos hany]
  exact evalRelease_settled ⟨hset.deferred, hset.waiting, hset.launched, hset.room⟩

end Sys2Proof.Machine
end

section
/-! SUPPORT. The gather, an open for a cabin, and the doors' timers. -/

namespace Sys2Proof.Machine

open Sys2Proof.Safety

/-- The command of a berth's timer runs the timer's rule, when the berth exists. -/
theorem event_forBerth {j : Nat} {s : State} (hpin : s.resetHeld = false) (hj : s.isBerth j = true)
    (f : Nat → State → State) : event (forBerth j f) s = .next (f j s) := by
  rw [event_of_released hpin, forBerth, if_pos hj]

/-! ## The gather (R104) -/

theorem isBerth_of_le {i : Nat} {s : State} (h₁ : 1 ≤ i) (h₂ : i ≤ s.berthCount) : s.isBerth i = true := by
  simp only [State.isBerth, decide_eq_true_eq]
  omega

theorem le_berthCount_of_isBerth {i : Nat} {s : State} (h : s.isBerth i = true) : 1 ≤ i ∧ i ≤ s.berthCount := by
  simp only [State.isBerth, decide_eq_true_eq] at h
  omega

theorem gathering_iff {s : State} : s.gathering = true ↔ ∃ i, s.isBerth i = true ∧ (s.door i).state = .pending := by
  simp only [State.gathering, List.any_eq_true, mem_berthList, beq_iff_eq]

theorem gathering_of_pending {i : Nat} {s : State} (hi : s.isBerth i = true) (h : (s.door i).state = .pending) :
    s.gathering = true := gathering_iff.2 ⟨i, hi, h⟩

theorem gathering_of_none {s : State} (h : ∀ i, s.isBerth i = true → (s.door i).state ≠ .pending) :
    s.gathering = false :=
  Bool.eq_false_iff.2 fun hg => by
    obtain ⟨i, hi, hp⟩ := gathering_iff.1 hg
    exact h i hi hp

/-- R104: with another record still PENDING the gather goes on. -/
theorem settleGather_of_other {j i : Nat} {s : State} {d : Door} (hj : s.isBerth j = true) (hi : s.isBerth i = true)
    (hij : i ≠ j) (hp : (s.door i).state = .pending) : settleGather (setDoor j d s) = setDoor j d s := by
  refine if_pos (gathering_of_pending (i := i) ((isBerth_congr (setDoor_straps _ _ _) i).trans hi) ?_)
  rw [door_setDoor_of_isBerth hj (isBerth_bounds hi).1, if_neg hij]
  exact hp

/-- R104: with its last record the gather ends. -/
theorem settleGather_of_last {j : Nat} {s : State} {d : Door} (hj : s.isBerth j = true) (hd : d.state ≠ .pending)
    (hlast : ∀ i, s.isBerth i = true → i ≠ j → (s.door i).state ≠ .pending) :
    settleGather (setDoor j d s) = setDoor j d { s with ds := { s.ds with windowTimer := none, capTimer := none } } := by
  have hidle : (setDoor j d s).gathering = false := gathering_of_none fun i hi => by
    have hi' : s.isBerth i = true := (isBerth_congr (setDoor_straps _ _ _) i).symm.trans hi
    rw [door_setDoor_of_isBerth hj (isBerth_bounds hi').1]
    split
    · exact hd
    · exact hlast i hi' ‹_›
  rw [settleGather, hidle]
  rfl

/-- R104: a record joins the gather; its cap is kept, or starts with the first record. -/
theorem becomePending_eq {j : Nat} {s : State} {cap : Option Nat}
    (hcap : cap = if s.gathering then s.ds.capTimer else some (s.now + 4 * ((s.berth j).entry.gatherWindow * 100))) :
    becomePending j s = setDoor j { s.door j with state := .pending, dwellTimer := .stopped }
      { s with ds := { s.ds with
        windowTimer := some (s.now + (s.berth j).entry.gatherWindow * 100), capTimer := cap } } := by
  rw [hcap]
  rfl

/-- R104: whether another door is PENDING does not depend on the record that joins. -/
theorem gathering_setDoor {j : Nat} {s : State} {d : Door} (hj : s.isBerth j = true)
    (hd : d.state ≠ .pending) (hs : (s.door j).state ≠ .pending) : (setDoor j d s).gathering = s.gathering := by
  rw [Bool.eq_iff_iff, gathering_iff, gathering_iff]
  refine exists_congr fun i => ?_
  rw [isBerth_congr (setDoor_straps _ _ _) i]
  refine and_congr_right fun hi => ?_
  rw [door_setDoor_of_isBerth hj (isBerth_bounds hi).1]
  split
  · rename_i h
    rw [h]
    exact ⟨fun h => absurd h hd, fun h => absurd h hs⟩
  · rfl

theorem closingSet_updateRelease (s : State) : (updateRelease s).closingSet = s.closingSet :=
  closingSet_of_ds ((updateRelease_lineOnly s).others .straps (by decide)) (updateRelease_ds s)

/-! ## What the berth's notice brings (R77, R106) -/

section
variable {o : Host.Outcome State Fault Refusal} {j : Nat} {b : Bool} {s t : State} {m : Byte}

/-- A step that ends in a notice to CT: the notice is no news, or the marks change and the release is evaluated. -/
theorem noticed {f : State → State} (ho : o = .next (f (noticeLocked j b t))) (hct : t.ct = s.ct)
    (hcm : t.cm.deferred = s.cm.deferred) (hsl : t.sl.txQueue = s.sl.txQueue) :
    ((∀ c ∈ s.ct.queue, c.zone = j → c.locked = b) → o = .next (f t))
    ∧ (Settled s → (∃ c ∈ s.ct.queue, c.zone = j ∧ c.locked ≠ b) →
      o = .next (f (updateRelease { t with ct := { s.ct with
        queue := s.ct.queue.map (fun c => if c.zone = j then { c with locked := b } else c) } }))) := by
  rw [ho, ← hct]
  refine ⟨fun h => ?_, fun hset h => ?_⟩
  · rw [noticeLocked_of_same h]
  · rw [noticeLocked_of_news (settled_of_eq hset hcm hct hsl) h]
    rfl

/-- A notice opened, in a step that leaves the warning set as it was. -/
theorem opened_of_same (ho : o = .next (updateWarning m (noticeLocked j false t))) (hct : t.ct = s.ct)
    (hcm : t.cm.deferred = s.cm.deferred) (hsl : t.sl.txQueue = s.sl.txQueue) (hm : t.closingSet = m) :
    ((∀ c ∈ s.ct.queue, c.zone = j → c.locked = false) → o = .next (id t))
    ∧ (Settled s → (∃ c ∈ s.ct.queue, c.zone = j ∧ c.locked = true) →
      o = .next (id (updateRelease { t with ct := { s.ct with
        queue := s.ct.queue.map (fun c => if c.zone = j then { c with locked := false } else c) } }))) := by
  obtain ⟨hsame, hnews⟩ := noticed (f := updateWarning m) ho hct hcm hsl
  refine ⟨fun h => ?_, fun hset ⟨c, hc, hz, hl⟩ => ?_⟩
  · rw [hsame h, updateWarning_of_same hm]
    rfl
  · rw [hnews hset ⟨c, hc, hz, by simp [hl]⟩]
    exact congrArg Host.Outcome.next (updateWarning_of_same ((closingSet_updateRelease _).trans hm))

/-- A notice opened, in a step that may move the warning set. -/
theorem opened_of_moved (ho : o = .next (updateWarning m (noticeLocked j false t))) (hct : t.ct = s.ct)
    (hcm : t.cm.deferred = s.cm.deferred) (hsl : t.sl.txQueue = s.sl.txQueue) :
    ((∀ c ∈ s.ct.queue, c.zone = j → c.locked = false) → o = .next (updateWarning m t))
    ∧ (Settled s → (∃ c ∈ s.ct.queue, c.zone = j ∧ c.locked = true) →
      o = .next (updateWarning m (updateRelease { t with ct := { s.ct with
        queue := s.ct.queue.map (fun c => if c.zone = j then { c with locked := false } else c) } }))) := by
  obtain ⟨hsame, hnews⟩ := noticed (f := updateWarning m) ho hct hcm hsl
  exact ⟨hsame, fun hset ⟨c, hc, hz, hl⟩ => hnews hset ⟨c, hc, hz, by simp [hl]⟩⟩

end

/-! ## An open for the cabin in the berth (R102) -/

/-- R102: the open delay's end, from the record without its delay. -/
theorem exec_openDelay {j t : Nat} {s : State} (hpin : s.resetHeld = false) (hj : s.isBerth j = true)
    (hdelay : (s.door j).openDelay = some t) :
    exec (.openDelayExpiry j) s = .next (updateWarning s.closingSet
      (openForCabin j (setDoor j { s.door j with openDelay := none } (reach t s)))) := by
  refine (event_forBerth hpin hj openDelayEnd).trans ?_
  simp only [openDelayEnd, hdelay]
  exact congrArg (fun m => Host.Outcome.next (updateWarning m _)) (closingSet_of_ds (s := s) rfl rfl)

section
variable {j : Nat} {s : State} {d : Door}

/-- R102: an open for a cabin, in a record just changed, by its state. -/
theorem openForCabin_of_shut (hj : s.isBerth j = true) (h : d.state = .closed ∨ d.state = .closing) :
    openForCabin j (setDoor j d s) = noticeLocked j false (formOpen j .opening .full (setDoor j d s)) := by
  rw [openForCabin]
  rcases h with h | h <;> simp only [door_setDoor_same (le_of_isBerth hj), h]

theorem openForCabin_of_opening (hj : s.isBerth j = true) (h : d.state = .opening ∨ d.state = .reopening) :
    openForCabin j (setDoor j d s) = noticeLocked j false (setDoor j { d with heldClose := false } s) := by
  have hj' := le_of_isBerth hj
  rw [openForCabin]
  rcases h with h | h <;> simp only [door_setDoor_same hj', h, setDoor_setDoor hj']

theorem openForCabin_of_free (hj : s.isBerth j = true) (h : d.state = .open) (hh : d.hold = .no) :
    openForCabin j (setDoor j d s) = noticeLocked j false
      (setDoor j { d with state := .open, dwellTimer := .running (s.now + (s.berth j).entry.dwell * 500) } s) := by
  have hj' := le_of_isBerth hj
  have hheld : ¬ d.held = true := by simp [Door.held, hh]
  rw [openForCabin]
  simp only [door_setDoor_same hj', h, if_neg hheld, setDoor_setDoor hj', entry_setDoor_same hj']
  rw [← h]
  rfl

theorem openForCabin_of_held (hj : s.isBerth j = true) (h : d.state = .open) (hh : d.hold ≠ .no) :
    openForCabin j (setDoor j d s) = noticeLocked j false
      (setDoor j { d with hold := .yes ((s.berth j).entry.dwell * 500) } s) := by
  have hj' := le_of_isBerth hj
  have hheld : d.held = true := bne_iff_ne.2 hh
  rw [openForCabin]
  simp only [door_setDoor_same hj', h, if_pos hheld, setDoor_setDoor hj', entry_setDoor_same hj']
  rfl

theorem openForCabin_of_pending (hj : s.isBerth j = true) (h : d.state = .pending) :
    openForCabin j (setDoor j d s) = noticeLocked j false (settleGather (setDoor j { d with
      state := .open, dwellTimer := .running (s.now + (s.berth j).entry.dwell * 500) } s)) := by
  have hj' := le_of_isBerth hj
  rw [openForCabin]
  simp only [door_setDoor_same hj', h, openWithDwell, setDoor_setDoor hj', entry_setDoor_same hj']
  rfl

theorem openForCabin_of_fault (hj : s.isBerth j = true) (h : d.state = .fault) :
    openForCabin j (setDoor j d s) = setDoor j { d with waitingOpen := true } s := by
  have hj' := le_of_isBerth hj
  rw [openForCabin]
  simp only [door_setDoor_same hj', h, setDoor_setDoor hj']

end

/-- R106: a door record set in a state no later than now, CLOSING before and after or neither, moves no warning. -/
theorem closingSet_door {j : Nat} {s u : State} {d : Door} (hj : s.isBerth j = true) (hs : u.straps = s.straps)
    (hd : u.ds.berths = s.ds.berths) (h : d.state = .closing ↔ (s.door j).state = .closing) :
    (setDoor j d u).closingSet = s.closingSet := by
  have hdoor : ∀ i, u.door i = s.door i := fun i => by rw [State.door, State.berth, hd]; rfl
  have hset : u.closingSet = s.closingSet := closingSet_congr hs fun i _ => by rw [hdoor]
  rw [closingSet_setDoor ((isBerth_congr hs j).trans hj) (by rw [hdoor]; exact h), hset]

/-- Settles O30. -/
theorem openDelayOpensTheDoor : Obligations.OpenDelayOpensTheDoor := by
  intro j t s hpin hj hdelay e d u opening running opened
  have hj' := le_of_isBerth hj
  have hstep : exec (.openDelayExpiry j) s = .next (updateWarning s.closingSet
      (openForCabin j (setDoor j { d with openDelay := none } u))) := exec_openDelay hpin hj hdelay
  have hju : u.isBerth j = true := hj
  have hdu : u.door j = d := rfl
  refine ⟨fun hst hwait => ⟨fun hroom => ?_, fun hfull => ?_⟩, fun hst => ?_, fun hst hh => ?_, fun hst hh => ?_,
    fun hst hother => ?_, fun hst hlast => ?_, fun hst => ?_⟩
  · have hform : formOpen j .opening .full (setDoor j { d with openDelay := none } u) = setDoor j
        (opening (.open, .placedOnce) (some (u.now + 300)) (some (u.now + e.motionLimit * 100)))
        { u with lr := { u.lr with door := s.lr.door ++
          [{ dest := e.doorNode, kind := .doorCmd, payload := [0], tag := 0, restart := false }] } } := by
      rw [formOpen_of_room (s := setDoor j _ u) hju hwait hroom, door_setDoor_same hj', entry_setDoor_same hj']
      exact setDoor_setDoor hj' _ { d with openDelay := none } { u with lr := { u.lr with door := s.lr.door ++
          [{ dest := e.doorNode, kind := .doorCmd, payload := [0], tag := 0, restart := false }] } }
    rw [openForCabin_of_shut (s := u) (d := { d with openDelay := none }) hju hst, hform] at hstep
    rcases hst with hst | hst
    · simp only [show ¬ d.state = .closing by simp [hst], if_false]
      exact opened_of_same hstep rfl rfl rfl (closingSet_door hj rfl rfl (by simp [opening, show (s.door j).state = _ from hst]))
    · simp only [hst, if_true]
      exact opened_of_moved hstep rfl rfl rfl
  · have hform : formOpen j .opening .full (setDoor j { d with openDelay := none } u) = setDoor j
        (opening (.open, .waiting) none none)
        { u with ds := { u.ds with waiting := s.ds.waiting ++ [.command j] } } := by
      rw [formOpen_of_full (s := setDoor j _ u) hju hwait hfull, door_setDoor_same hj']
      exact setDoor_setDoor hj' _ { d with openDelay := none }
        { u with ds := { u.ds with waiting := s.ds.waiting ++ [.command j] } }
    rw [openForCabin_of_shut (s := u) (d := { d with openDelay := none }) hju hst, hform] at hstep
    rcases hst with hst | hst
    · simp only [show ¬ d.state = .closing by simp [hst], if_false]
      exact opened_of_same hstep rfl rfl rfl (closingSet_door hj rfl rfl (by simp [opening, show (s.door j).state = _ from hst]))
    · simp only [hst, if_true]
      exact opened_of_moved hstep rfl rfl rfl
  · rw [openForCabin_of_opening (s := u) (d := { d with openDelay := none }) hju hst] at hstep
    exact opened_of_same hstep rfl rfl rfl (closingSet_door hj rfl rfl Iff.rfl)
  · rw [openForCabin_of_free (s := u) (d := { d with openDelay := none }) hju hst hh] at hstep
    exact opened_of_same hstep rfl rfl rfl
      (closingSet_door hj rfl rfl (by simp [running, show (s.door j).state = _ from hst]))
  · rw [openForCabin_of_held (s := u) (d := { d with openDelay := none }) hju hst hh] at hstep
    exact opened_of_same hstep rfl rfl rfl (closingSet_door hj rfl rfl Iff.rfl)
  · obtain ⟨i, hi, hij, hp⟩ := hother
    rw [openForCabin_of_pending (s := u) (d := { d with openDelay := none }) hju hst, settleGather_of_other (s := u) hju (i := i) hi hij hp] at hstep
    exact opened_of_same hstep rfl rfl rfl (closingSet_door hj rfl rfl (by simp [show (s.door j).state = _ from hst]))
  · rw [openForCabin_of_pending (s := u) (d := { d with openDelay := none }) hju hst, settleGather_of_last (s := u) hju (by simp) hlast] at hstep
    exact opened_of_same hstep rfl rfl rfl (closingSet_door hj rfl rfl (by simp [show (s.door j).state = _ from hst]))
  · rw [openForCabin_of_fault (s := u) (d := { d with openDelay := none }) hju hst] at hstep
    exact hstep.trans (congrArg Host.Outcome.next (updateWarning_of_same (closingSet_door hj rfl rfl Iff.rfl)))

end Sys2Proof.Machine
end

section
/-! SUPPORT. Changes of several door records at once, and the closing of the gather. -/

namespace Sys2Proof.Machine

open Sys2Proof.Safety

/-! ## Several door records -/

/-- The door records of a list of berths changed, one after another. -/
def setDoors (f : Nat → Door → Door) (js : List Nat) (s : State) : State :=
  js.foldl (fun t j => setDoor j (f j (t.door j)) t) s

theorem entry_setDoor (i j : Nat) (d : Door) (s : State) : ((setDoor j d s).berth i).entry = (s.berth i).entry := by
  rw [setDoor, berth_setBerth]
  split
  · rename_i h
    rw [State.berth, State.berth, h.1]
  · rfl

section
variable {f : Nat → Door → Door}

theorem entry_setDoors (i : Nat) (js : List Nat) (s : State) :
    ((setDoors f js s).berth i).entry = (s.berth i).entry := by
  induction js generalizing s with
  | nil => rfl
  | cons j js ih => exact (ih _).trans (entry_setDoor i j _ s)

/-- Only the berths' table changes. -/
theorem setDoors_frame (js : List Nat) (s : State) :
    setDoors f js s = { s with ds := { s.ds with berths := (setDoors f js s).ds.berths } } := by
  induction js generalizing s with
  | nil => rfl
  | cons j js ih =>
    have h := ih (setDoor j (f j (s.door j)) s)
    exact h

theorem isBerth_setDoors (i : Nat) (js : List Nat) (s : State) : (setDoors f js s).isBerth i = s.isBerth i := by
  rw [setDoors_frame]
  rfl

@[simp] theorem setDoors_lr (js : List Nat) (s : State) : (setDoors f js s).lr = s.lr := by rw [setDoors_frame]

@[simp] theorem setDoors_now (js : List Nat) (s : State) : (setDoors f js s).now = s.now := by rw [setDoors_frame]

@[simp] theorem setDoors_straps (js : List Nat) (s : State) : (setDoors f js s).straps = s.straps := by
  rw [setDoors_frame]

@[simp] theorem setDoors_params (js : List Nat) (s : State) : (setDoors f js s).params = s.params := by
  rw [setDoors_frame]
  rfl

/-- A change of door records leaves the gather's timers, the waiting frames, the notices and the set last sent. -/
theorem setDoors_ds (js : List Nat) (s : State) :
    (setDoors f js s).ds = { s.ds with berths := (setDoors f js s).ds.berths } := by
  rw [setDoors_frame]

theorem door_setDoors {i : Nat} {js : List Nat} {s : State} (hi : 1 ≤ i) (hjs : ∀ j ∈ js, s.isBerth j = true)
    (hnd : js.Nodup) : (setDoors f js s).door i = if i ∈ js then f i (s.door i) else s.door i := by
  induction js generalizing s with
  | nil => simp [setDoors]
  | cons j js ih =>
    obtain ⟨hj, hnd'⟩ := List.nodup_cons.1 hnd
    have hbj := hjs j List.mem_cons_self
    have hrest : ∀ k ∈ js, (setDoor j (f j (s.door j)) s).isBerth k = true := fun k hk =>
      (isBerth_congr (setDoor_straps _ _ _) k).trans (hjs k (List.mem_cons_of_mem _ hk))
    refine (ih hrest hnd').trans ?_
    rw [door_setDoor_of_isBerth hbj hi]
    by_cases hij : i = j
    · subst hij
      simp [hj]
    · simp [hij]

end

/-! ## The bits of the warning set (R106, R209) -/

theorem getLsbD_closingSet {k : Nat} (s : State) (hk : k < 8) :
    s.closingSet.getLsbD k = (s.berthList.any fun j => decide ((s.door j).state = .closing) && decide (j - 1 = k)) := by
  have hfold : ∀ (l : List Nat) (m : Byte),
      (l.foldl (fun m j => if (s.door j).state = .closing then m ||| BitVec.twoPow 8 (j - 1) else m) m).getLsbD k
        = (m.getLsbD k || l.any fun j => decide ((s.door j).state = .closing) && decide (j - 1 = k)) := by
    intro l
    induction l with
    | nil => simp
    | cons j l ih =>
      intro m
      rw [List.foldl_cons, ih, List.any_cons, ← Bool.or_assoc]
      by_cases hc : (s.door j).state = .closing
      · simp only [hc, if_true, decide_true, Bool.true_and, BitVec.getLsbD_or, BitVec.getLsbD_twoPow]
        by_cases hj : j - 1 = k
        · simp [hj, hk]
        · simp [hj]
      · simp [hc]
  rw [State.closingSet, hfold]
  simp

/-- R106: a berth belongs to the set exactly while its door is CLOSING. -/
theorem getLsbD_closingSet_berth {j : Nat} {s : State} (hj : s.isBerth j = true) :
    s.closingSet.getLsbD (j - 1) = decide ((s.door j).state = .closing) := by
  obtain ⟨h1, h8⟩ := isBerth_bounds hj
  rw [getLsbD_closingSet s (by omega), Bool.eq_iff_iff, List.any_eq_true, decide_eq_true_iff]
  refine ⟨fun ⟨i, hi, h⟩ => ?_, fun h => ⟨j, mem_berthList.2 hj, by simp [h]⟩⟩
  have hi' := (isBerth_bounds (mem_berthList.1 hi)).1
  simp only [Bool.and_eq_true, decide_eq_true_eq] at h
  obtain rfl : i = j := by omega
  exact h.1

theorem nodup_berthList (s : State) : s.berthList.Nodup :=
  List.nodup_range.map fun _ _ h => Nat.add_right_cancel h

/-! ## The gather closes (R105) -/

/-- R97: the commands of several records formed, none of which waits. -/
theorem recordAll_eq {js : List Nat} {s : State} (h : s.ds.waiting = []) :
    js.foldl (fun t j => recordCommand j .close .closing t) s
      = setDoors (fun _ d => d.commanded .close .closing) js s := by
  induction js generalizing s with
  | nil => rfl
  | cons j js ih =>
    rw [List.foldl_cons, recordCommand_of_not_mem (by rw [h]; exact List.not_mem_nil)]
    exact ih (s := setDoor j _ s) h

/-- Several frames join the tail of the DOOR queue. -/
def joinDoors (fs : List QFrame) (s : State) : State := { s with lr := { s.lr with door := s.lr.door ++ fs } }

theorem joinDoors_cons (f : QFrame) (fs : List QFrame) (s : State) :
    joinDoors (f :: fs) s = joinDoors fs (joinDoors [f] s) := by
  simp only [joinDoors, List.append_assoc, List.cons_append, List.nil_append]

theorem setDoors_joinDoors {f : Nat → Door → Door} (fs : List QFrame) (js : List Nat) (s : State) :
    setDoors f js (joinDoors fs s) = joinDoors fs (setDoors f js s) := by
  induction js generalizing s with
  | nil => rfl
  | cons j js ih => exact ih (setDoor j (f j (s.door j)) s)

theorem placeCommand_joinDoors {j : Nat} {s : State} {cmd : DoorCmd} (h : (s.door j).command = some (cmd, .waiting)) :
    placeCommand j s = joinDoors [commandFrame (s.berth j).entry.doorNode cmd]
      (setDoor j ((s.door j).placed cmd s.now (s.berth j).entry.motionLimit) s) := placeCommand_first h

/-- R97: the commands of several records offered while the DOOR queue has room for all. -/
theorem offerAll_eq {js : List Nat} {s : State} {cmd : DoorCmd} {now : Nat} {entry : Nat → BerthEntry}
    (hnow : s.now = now) (hentry : ∀ i, (s.berth i).entry = entry i) (hjs : ∀ j ∈ js, s.isBerth j = true)
    (hnd : js.Nodup) (hcmd : ∀ j ∈ js, (s.door j).command = some (cmd, .waiting))
    (hroom : s.lr.door.length + js.length ≤ 8) :
    js.foldl (fun t j => offerCommand j t) s
      = joinDoors (js.map fun j => commandFrame (entry j).doorNode cmd)
        (setDoors (fun j d => d.placed cmd now (entry j).motionLimit) js s) := by
  induction js generalizing s with
  | nil => simp [joinDoors, setDoors]
  | cons j js ih =>
    obtain ⟨hj, hnd'⟩ := List.nodup_cons.1 hnd
    have hbj := hjs j List.mem_cons_self
    rw [List.length_cons] at hroom
    rw [List.foldl_cons, offerCommand_of_room (by omega), placeCommand_joinDoors (hcmd j List.mem_cons_self), hnow,
      hentry]
    generalize hd : (s.door j).placed cmd now (entry j).motionLimit = d
    have hlen : (joinDoors [commandFrame (entry j).doorNode cmd] (setDoor j d s)).lr.door.length + js.length ≤ 8 := by
      simp only [joinDoors, List.length_append, List.length_cons, List.length_nil, setDoor_lr]
      omega
    have hwait : ∀ k ∈ js, ((joinDoors [commandFrame (entry j).doorNode cmd] (setDoor j d s)).door k).command
        = some (cmd, .waiting) := fun k hk => by
      have hk' := hjs k (List.mem_cons_of_mem _ hk)
      have hne : (setDoor j d s).door k = s.door k :=
        door_setDoor_ne (isBerth_bounds hk').1 (isBerth_bounds hbj).1 (fun e => hj (e ▸ hk)) d s
      exact (congrArg Door.command hne).trans (hcmd k (List.mem_cons_of_mem _ hk))
    rw [ih (s := joinDoors _ (setDoor j d s)) hnow (fun i => (entry_setDoor i j d s).trans (hentry i))
      (fun k hk => hjs k (List.mem_cons_of_mem _ hk)) hnd' hwait hlen, List.map_cons, joinDoors_cons (s := setDoors _ _ s),
      setDoors_joinDoors, ← hd]
    rfl

/-- R106: a set that has changed, and is not the one last sent, is sent at once while the DOOR queue has room. -/
theorem updateWarning_of_news {s : State} {m : Byte} (hm : s.closingSet ≠ m) (hlast : s.closingSet ≠ s.ds.warnLast)
    (hnode : s.params.warnNode ≠ 0) (hwait : s.ds.waiting = []) (hroom : s.lr.door.length < 8) :
    updateWarning m s = joinDoors [warnFrame s.params.warnNode s.closingSet]
      { s with ds := { s.ds with warnLast := s.closingSet } } := by
  have hdrop : dropWarning s = s := by rw [dropWarning, hwait, List.filter_nil, ← hwait]
  rw [updateWarning, if_neg hm, if_neg hlast, formWarning, if_neg hnode]
  simp only [hdrop]
  rw [if_pos ((doorRoom_iff s).2 hroom)]
  rfl

section
variable {s : State} {js : List Nat}

/-- R105: the gather has ended, and its records are commanded to close. -/
def closingAll (js : List Nat) (s : State) : State :=
  { setDoors (fun _ d => d.commanded .close .closing) js s with
    ds := { (setDoors (fun _ d => d.commanded .close .closing) js s).ds with windowTimer := none, capTimer := none } }

theorem closingAll_frame (js : List Nat) (s : State) : closingAll js s = { s with ds := { s.ds with
    berths := (closingAll js s).ds.berths, windowTimer := none, capTimer := none } } := by
  rw [closingAll, setDoors_frame]

theorem door_closingAll {i : Nat} (hi : 1 ≤ i) (hjs : ∀ j ∈ js, s.isBerth j = true) (hnd : js.Nodup) :
    (closingAll js s).door i = if i ∈ js then (s.door i).commanded .close .closing else s.door i :=
  door_setDoors hi hjs hnd

theorem entry_closingAll (i : Nat) : ((closingAll js s).berth i).entry = (s.berth i).entry := entry_setDoors i js s

/-- R106: a record commanded to close joins the set. -/
theorem getLsbD_closingAll {j : Nat} (hj : j ∈ js) (hjs : ∀ j ∈ js, s.isBerth j = true) (hnd : js.Nodup) :
    (closingAll js s).closingSet.getLsbD (j - 1) = true := by
  rw [getLsbD_closingSet_berth (by rw [closingAll_frame]; exact hjs j hj),
    door_closingAll (isBerth_bounds (hjs j hj)).1 hjs hnd, if_pos hj]
  rfl

/-- R105, R106, R97: the gather closes, where no frame waits and the DOOR queue has room for all. -/
theorem closeGather_of_room (hwait : s.ds.waiting = []) (hnode : s.params.warnNode ≠ 0)
    (hjs : js = s.berthList.filter fun j => (s.door j).state == .pending)
    (hmoved : (closingAll js s).closingSet ≠ s.closingSet) (hlast : s.ds.warnLast = s.closingSet)
    (hroom : s.lr.door.length + 1 + js.length ≤ 8) :
    closeGather s = joinDoors (js.map fun j => commandFrame (s.berth j).entry.doorNode .close)
      (setDoors (fun j d => d.placed .close s.now (s.berth j).entry.motionLimit) js
        (joinDoors [warnFrame s.params.warnNode (closingAll js s).closingSet]
          { closingAll js s with ds := { (closingAll js s).ds with warnLast := (closingAll js s).closingSet } })) := by
  have hberth : ∀ j ∈ js, s.isBerth j = true := fun j hj => mem_berthList.1 (List.mem_filter.1 (hjs ▸ hj)).1
  have hnd : js.Nodup := hjs ▸ (nodup_berthList s).filter _
  have hframe := closingAll_frame js s
  have hlr : (closingAll js s).lr = s.lr := by rw [hframe]
  have hwarn := updateWarning_of_news (s := closingAll js s) hmoved
    (by rw [show (closingAll js s).ds.warnLast = s.closingSet by rw [hframe, ← hlast]]; exact hmoved)
    (by rw [hframe]; exact hnode) (by rw [hframe]; exact hwait) (by rw [hlr]; omega)
  rw [closeGather, ← hjs]
  simp only [recordAll_eq hwait]
  refine (congrArg (fun t => js.foldl (fun t j => offerCommand j t) t) hwarn).trans ?_
  rw [show (closingAll js s).params = s.params by rw [hframe]; rfl]
  refine offerAll_eq (s := joinDoors _ _) (by rw [hframe]; rfl) (fun i => ?_) (fun j hj => ?_) hnd (fun j hj => ?_) ?_
  · exact entry_closingAll i
  · rw [hframe]
    exact hberth j hj
  · have hdoor := door_closingAll (isBerth_bounds (hberth j hj)).1 hberth hnd
    rw [if_pos hj] at hdoor
    exact congrArg Door.command hdoor
  · rw [joinDoors, List.length_append]
    simp only [hlr, List.length_cons, List.length_nil]
    omega

end

/-- R104, R105: DWELL_EXPIRY and the gather's two timers run their rules. -/
theorem exec_dwell {j t : Nat} {s : State} (hpin : s.resetHeld = false) (hj : s.isBerth j = true)
    (ht : (s.door j).dwellTimer = .running t) : exec (.dwellExpiry j) s = .next (becomePending j (reach t s)) := by
  refine (event_forBerth hpin hj dwellOut).trans ?_
  simp only [dwellOut, ht]

theorem exec_gatherEnd {c : Instr} {t : Nat} {s : State} (hpin : s.resetHeld = false)
    (hc : (c = .gatherWindowExpiry ∧ s.ds.windowTimer = some t) ∨ (c = .gatherCapExpiry ∧ s.ds.capTimer = some t)) :
    exec c s = .next (closeGather (reach t s)) := by
  rcases hc with ⟨rfl, h⟩ | ⟨rfl, h⟩
  · exact (event_of_released hpin windowOut).trans (by simp only [windowOut, h])
  · exact (event_of_released hpin capOut).trans (by simp only [capOut, h])

/-- Settles O31. -/
theorem gatherFillsAndCloses : Obligations.GatherFillsAndCloses := by
  refine ⟨fun j s hpin hj => ⟨?_, fun hstill => ?_⟩, ?_⟩
  · intro t ht u w v
    have hrun : exec (.dwellExpiry j) s = .next (becomePending j u) := exec_dwell hpin hj ht
    refine ⟨fun hnone => ?_, fun i h1 h2 hp => ?_⟩
    · rw [hrun, becomePending_eq (s := u) (cap := some (u.now + 4 * w))]
      · rfl
      · rw [gathering_of_none (s := u) fun i hi => hnone i (le_berthCount_of_isBerth hi).1 (le_berthCount_of_isBerth hi).2]
        rfl
    · rw [hrun, becomePending_eq (s := u) (cap := s.ds.capTimer)]
      · rfl
      · rw [gathering_of_pending (s := u) (isBerth_of_le h1 h2) hp]
        rfl
  · refine (event_forBerth hpin hj dwellOut).trans ?_
    rcases hstill with h | h <;> simp only [dwellOut, h]
  · intro c t s hpin hc hwait hnode hlast pending hne hroom at'
    have hberth : ∀ j ∈ pending, s.isBerth j = true := fun j hj => mem_berthList.1 (List.mem_filter.1 hj).1
    have hpend : ∀ j ∈ pending, (s.door j).state = .pending := fun j hj => by
      simpa using (List.mem_filter.1 hj).2
    have hnd : pending.Nodup := (nodup_berthList s).filter _
    generalize hv : closingAll pending (reach t s) = v
    have hbits : ∀ j ∈ pending, v.closingSet.getLsbD (j - 1) = true := fun j hj =>
      hv ▸ getLsbD_closingAll hj hberth hnd
    have hframe : v = { reach t s with ds := { s.ds with
        berths := v.ds.berths, windowTimer := none, capTimer := none } } := hv ▸ closingAll_frame pending (reach t s)
    obtain ⟨j0, hj0⟩ := List.exists_mem_of_ne_nil pending hne
    have hmoved : v.closingSet ≠ s.closingSet := fun h => by
      have h0 := hbits j0 hj0
      rw [h, getLsbD_closingSet_berth (hberth j0 hj0), hpend j0 hj0] at h0
      exact absurd h0 (by decide)
    have hzero : v.closingSet ≠ 0 := fun h => by
      have h0 := hbits j0 hj0
      rw [h] at h0
      simp at h0
    have hclose := closeGather_of_room (s := reach t s) hwait hnode (js := pending) rfl (hv ▸ hmoved) hlast hroom
    rw [hv] at hclose
    rw [exec_gatherEnd hpin hc, hclose]
    have hdoor : ∀ i, 1 ≤ i → v.door i = if i ∈ pending then (s.door i).commanded .close .closing else s.door i :=
      fun i hi => hv ▸ door_closingAll hi hberth hnd
    have hentry : ∀ i, (v.berth i).entry = (s.berth i).entry := fun i => hv ▸ entry_closingAll i
    have hvstraps : v.straps = s.straps := by
      rw [hframe]
      rfl
    generalize hset : v.closingSet = set at *
    generalize hx : joinDoors [warnFrame (reach t s).params.warnNode set] _ = x
    have hxdoor : ∀ i, x.door i = v.door i := fun i => hx ▸ rfl
    have hxentry : ∀ i, (x.berth i).entry = (s.berth i).entry := fun i => hx ▸ hentry i
    have hxframe : x = { reach t s with
        ds := { s.ds with berths := x.ds.berths, windowTimer := none, capTimer := none, warnLast := set }
        lr := { s.lr with door := s.lr.door ++ [warnFrame s.params.warnNode set] } } := by
      rw [← hx]
      generalize v.ds.berths = berths at hframe
      subst hframe
      rfl
    have hxberth : ∀ j ∈ pending, x.isBerth j = true := fun j hj => by
      rw [hxframe]
      exact hberth j hj
    generalize hw : setDoors _ pending x = w
    have hwframe : w = { reach t s with
        ds := { s.ds with berths := w.ds.berths, windowTimer := none, capTimer := none, warnLast := set }
        lr := { s.lr with door := s.lr.door ++ [warnFrame s.params.warnNode set] } } := by
      have h := setDoors_frame (f := fun j d => d.placed .close at' (s.berth j).entry.motionLimit) pending x
      rw [hxframe] at h
      rw [← hw, hxframe]
      exact h
    have hwdoor : ∀ i, 1 ≤ i → w.door i = if i ∈ pending then
        ((s.door i).commanded .close .closing).placed .close at' (s.berth i).entry.motionLimit else s.door i := by
      intro i hi
      rw [← hw, door_setDoors hi hxberth hnd, hxdoor, hdoor i hi]
      split <;> rfl
    have hwset : w.closingSet = set := by
      rw [← hset]
      refine closingSet_congr (by rw [hwframe, hvstraps]; rfl) fun i hi => ?_
      rw [hwdoor i (isBerth_bounds hi).1, hdoor i (isBerth_bounds hi).1]
      split <;> rfl
    refine ⟨_, rfl, ?_, ?_⟩
    · intro b hb
      rw [hwframe]
      cases b <;> simp [Block.same, joinDoors, reach] at hb ⊢
    · have hds : w.ds = { s.ds with berths := w.ds.berths, windowTimer := none, capTimer := none, warnLast := set } := by
        rw [hwframe]
      have hlr : w.lr = { s.lr with door := s.lr.door ++ [warnFrame s.params.warnNode set] } := by rw [hwframe]
      have hwarn : warnFrame s.params.warnNode set =
          { dest := s.params.warnNode, kind := .warn, payload := [1, set], tag := 0, restart := false } := by
        rw [warnFrame, encMark, if_pos (bne_iff_ne.2 hzero)]
        rfl
      refine ⟨?_, ?_, ?_, ?_, ?_, ?_, ?_, fun j hj => ?_, fun j hj hn => ?_, ?_⟩
      · rw [hwframe]
        rfl
      · exact congrArg DoorSeq.windowTimer hds
      · exact congrArg DoorSeq.capTimer hds
      · exact (congrArg DoorSeq.waiting hds).trans hwait
      · exact (congrArg DoorSeq.notices hds).trans rfl
      · exact (congrArg DoorSeq.warnLast hds).trans hwset.symm
      · intro i
        rw [← hw]
        exact (entry_setDoors i pending x).trans (hxentry i)
      · exact (hwdoor j (isBerth_bounds (hberth j hj)).1).trans (if_pos hj)
      · exact (hwdoor j (isBerth_bounds (mem_berthList.1 hj)).1).trans (if_neg hn)
      · rw [joinDoors, hlr, hwarn]
        rw [← hwset]
        rfl

end Sys2Proof.Machine
end

section
/-! SUPPORT. The doors' other timers, a door's fault, and the places of the DOOR queue. -/

namespace Sys2Proof.Machine

open Sys2Proof.Safety

/-! ## A door's fault (R112) -/

/-- R112: a door record that has gone to FAULT. -/
def Door.faulted (d : Door) : Door :=
  { d with
    state := .fault, command := none, ackTimer := none, motionTimer := none, dwellTimer := .stopped, holdTimer := none
    openDelay := none, heldClose := false, hold := .no, waitingOpen := false, deskMark := none }

/-- R112: DOOR_FAULT of a berth, a latched STOP. -/
def doorFaultRaise (j : Nat) : Raise :=
  { source := .berth j, code := .doorFault, cls := .stop, latched := true, present := true }

theorem doorFault_of_not_mem {j : Nat} {s : State} (h : DoorWait.command j ∉ s.ds.waiting) :
    doorFault j s = setFlag .doorFault (raise (doorFaultRaise j) (settleGather (setDoor j (s.door j).faulted s))) :=
  congrArg (fun t => setFlag .doorFault (raise (doorFaultRaise j) (settleGather t)))
    (unwait_of_not_mem (s := setDoor j (s.door j).faulted s) h)

/-- R104: with both timers stopped the gather's end has nothing to stop. -/
theorem settleGather_of_idle {s : State} (hw : s.ds.windowTimer = none) (hc : s.ds.capTimer = none) :
    settleGather s = s := by
  have hds : ({ s.ds with windowTimer := none, capTimer := none } : DoorSeq) = s.ds := by
    generalize s.ds = d at hw hc ⊢
    cases d
    cases hw
    cases hc
    rfl
  rw [settleGather, hds]
  exact ite_self s

/-- R106: what a line event changes moves no warning. -/
theorem closingSet_of_lineOnly {s t : State} (h : LineOnly s t) : t.closingSet = s.closingSet :=
  closingSet_congr (h.others .straps (by decide)) fun j _ => by rw [h.doors j]

/-! ## The timers (R98, R100, R111) -/

/-- What the ack timer's end does with the record once its timer is cleared. -/
def ackRetry (j : Nat) (s : State) : State :=
  match (s.door j).command with
  | some (cmd, .placedOnce) =>
    if s.doorRoom then placeCommand j s
    else
      let s2 := setDoor j { s.door j with command := some (cmd, .waitingAgain) } s
      { s2 with ds := { s2.ds with waiting := s2.ds.waiting ++ [.command j] } }
  | _ => updateWarning s.closingSet (doorFault j s)

theorem ackOut_eq {j t : Nat} {s : State} (ht : (s.door j).ackTimer = some t) :
    ackOut j s = ackRetry j (setDoor j { s.door j with ackTimer := none } (reach t s)) := by
  simp only [ackOut, ht]
  rfl

theorem ackRetry_of_room {j : Nat} {s : State} {cmd : DoorCmd} (hcmd : (s.door j).command = some (cmd, .placedOnce))
    (hroom : s.lr.door.length < 8) : ackRetry j s = placeCommand j s := by
  rw [ackRetry, hcmd]
  exact if_pos ((doorRoom_iff s).2 hroom)

theorem ackRetry_of_twice {j : Nat} {s : State} {cmd : DoorCmd} (hcmd : (s.door j).command = some (cmd, .placedTwice)) :
    ackRetry j s = updateWarning s.closingSet (doorFault j s) := by
  rw [ackRetry, hcmd]

theorem exec_ack {j t : Nat} {s : State} {cmd : DoorCmd} (hpin : s.resetHeld = false) (hj : s.isBerth j = true)
    (ht : (s.door j).ackTimer = some t) (hcmd : (s.door j).command = some (cmd, .placedOnce))
    (hroom : s.lr.door.length < 8) :
    exec (.ackTimerExpiry j) s = .next (placeCommand j (setDoor j { s.door j with ackTimer := none } (reach t s))) := by
  refine (event_forBerth hpin hj ackOut).trans ?_
  have hcmd' : ((setDoor j { s.door j with ackTimer := none } (reach t s)).door j).command = some (cmd, .placedOnce) :=
    (congrArg Door.command (door_setDoor_same (le_of_isBerth hj) _ _)).trans hcmd
  have hroom' : (setDoor j { s.door j with ackTimer := none } (reach t s)).lr.door.length < 8 := hroom
  exact congrArg Host.Outcome.next ((ackOut_eq ht).trans (ackRetry_of_room hcmd' hroom'))

/-- R98, R100: a command placed twice, and a motion not ended in time, put the record in FAULT. -/
theorem exec_doorFault {c : Instr} {j t : Nat} {s : State} (hpin : s.resetHeld = false) (hj : s.isBerth j = true)
    (hc : (c = .ackTimerExpiry j ∧ (s.door j).ackTimer = some t ∧ ∃ cmd, (s.door j).command = some (cmd, .placedTwice))
      ∨ (c = .motionTimerExpiry j ∧ (s.door j).motionTimer = some t)) :
    ∃ d : Door, d.faulted = (s.door j).faulted ∧ (d.state = (s.door j).state) ∧
      exec c s = .next (updateWarning s.closingSet (doorFault j (setDoor j d (reach t s)))) := by
  rcases hc with ⟨rfl, ht, cmd, hcmd⟩ | ⟨rfl, ht⟩
  · refine ⟨{ s.door j with ackTimer := none }, rfl, rfl, (event_forBerth hpin hj ackOut).trans ?_⟩
    have hcmd' : ((setDoor j { s.door j with ackTimer := none } (reach t s)).door j).command = some (cmd, .placedTwice) :=
      (congrArg Door.command (door_setDoor_same (le_of_isBerth hj) _ _)).trans hcmd
    rw [ackOut_eq ht, ackRetry_of_twice hcmd']
    exact congrArg (fun m => Host.Outcome.next (updateWarning m _)) (closingSet_door hj rfl rfl Iff.rfl)
  · refine ⟨s.door j, rfl, rfl, (event_forBerth hpin hj motionOut).trans ?_⟩
    rw [show setDoor j (s.door j) (reach t s) = reach t s from setDoor_self j (reach t s)]
    simp only [motionOut, ht]

theorem exec_hold {j t : Nat} {s v : State} (hpin : s.resetHeld = false) (hj : s.isBerth j = true)
    (ht : (s.door j).holdTimer = some t) (h : release j (reach t s) = some v) : exec (.holdTimerExpiry j) s = .next v := by
  refine (event_forBerth hpin hj holdOut).trans ?_
  simp only [holdOut, ht, h]
  rfl

/-! ## A hold released (R111) -/

section
variable {j : Nat} {s : State}

theorem release_of_moving (hs : (s.door j).state = .opening ∨ (s.door j).state = .reopening)
    (hh : (s.door j).hold ≠ .no) :
    release j s = some (setDoor j { s.door j with hold := .no, holdTimer := none } s) := by
  rw [release]
  cases hold : (s.door j).hold with
  | no => exact absurd hold hh
  | beforeOpen => rcases hs with h | h <;> simp only [h]
  | yes n => rcases hs with h | h <;> simp only [h]

theorem release_of_dwell {n : Nat} (hs : (s.door j).state = .open) (hh : (s.door j).hold = .yes (n + 1)) :
    release j s = some (setDoor j { s.door j with
      hold := .no, holdTimer := none, dwellTimer := .running (s.now + (n + 1)) } s) := by
  rw [release]
  simp only [hs, hh]

theorem release_of_spent (hj : s.isBerth j = true) (hs : (s.door j).state = .open) (hh : (s.door j).hold = .yes 0)
    (hidle : ∀ i, s.isBerth i = true → (s.door i).state ≠ .pending) :
    release j s = some (setDoor j { s.door j with
        hold := .no, holdTimer := none, deskMark := some .closed, state := .pending, dwellTimer := .stopped }
      { s with ds := { s.ds with
        windowTimer := some (s.now + (s.berth j).entry.gatherWindow * 100)
        capTimer := some (s.now + 4 * ((s.berth j).entry.gatherWindow * 100)) } }) := by
  have hj' := le_of_isBerth hj
  generalize hd : ({ s.door j with hold := .no, holdTimer := none, deskMark := some .closed } : Door) = d
  have hopen : d.state = .open := hd ▸ hs
  have hfree : (setDoor j d s).gathering = false := by
    rw [gathering_setDoor hj (by simp [hopen]) (hidle j hj), gathering_of_none hidle]
  have hrel : release j s = some (becomePending j (setDoor j d s)) := by
    rw [release]
    simp only [hs, hh, ← hd]
  rw [hrel, becomePending_eq (s := setDoor j d s) (by rw [hfree]), door_setDoor_same hj', entry_setDoor_same hj', ← hd]
  exact congrArg some (setDoor_setDoor hj' _ _ { s with ds := { s.ds with
        windowTimer := some (s.now + (s.berth j).entry.gatherWindow * 100)
        capTimer := some (s.now + 4 * ((s.berth j).entry.gatherWindow * 100)) } })

end

/-- Settles O32. -/
theorem doorTimersAndHoldsRunOut : Obligations.DoorTimersAndHoldsRunOut := by
  refine ⟨?_, ?_⟩
  · intro j t s hpin hj d u
    have hj' := le_of_isBerth hj
    refine ⟨fun cmd ht hcmd hroom => ?_, fun c hc hset hopening hwait hw hcap => ?_⟩
    · rw [exec_ack hpin hj ht hcmd hroom, placeCommand_again (s := setDoor j _ (reach t s)) (cmd := cmd)
        (by rw [door_setDoor_same hj']; exact hcmd), door_setDoor_same hj', entry_setDoor_same hj']
      exact congrArg Host.Outcome.next (setDoor_setDoor hj' _ { d with ackTimer := none } { u with
        lr := { u.lr with door := s.lr.door ++ [commandFrame (s.berth j).entry.doorNode cmd] } })
    · obtain ⟨d', hfault, hstate, hexec⟩ := exec_doorFault hpin hj hc
      have hdf : doorFault j (setDoor j d' u) = setFlag .doorFault (raise (doorFaultRaise j) (setDoor j d.faulted u)) := by
        rw [doorFault_of_not_mem (s := setDoor j d' u) hwait, door_setDoor_same hj', hfault, setDoor_setDoor hj',
          settleGather_of_idle (s := setDoor j _ u) hw hcap]
      have hraised := raise_raised (s := setDoor j d.faulted u) (doorFaultRaise j) (settled_of_eq hset rfl rfl rfl)
      refine ⟨_, ?_, hraised⟩
      rw [hexec, show setDoor j d' (reach t s) = setDoor j d' u from rfl, hdf]
      have hsame : (setDoor j d.faulted u).closingSet = s.closingSet :=
        closingSet_door hj rfl rfl (by simp [Door.faulted, show (s.door j).state = _ from hopening])
      have hflag : ∀ v : State, (setFlag .doorFault v).closingSet = v.closingSet := fun v =>
        closingSet_of_ds (setFlag_straps _ _) (setFlag_ds _ _)
      rw [updateWarning_of_same ((hflag _).trans ((closingSet_of_lineOnly hraised.frame).trans hsame))]
  · intro j t s hpin hj ht d u
    refine ⟨fun n hs hh => ?_, fun hs hh hidle => ?_, fun hs hh => ?_⟩
    · exact exec_hold hpin hj ht (release_of_dwell (s := u) hs hh)
    · exact exec_hold hpin hj ht (release_of_spent (s := u) hj hs hh fun i hi =>
        hidle i (le_berthCount_of_isBerth hi).1 (le_berthCount_of_isBerth hi).2)
    · exact exec_hold hpin hj ht (release_of_moving (s := u) hs (by rw [show (u.door j).hold = _ from hh]; simp))

/-! ## A freed place (R171) -/

/-- R171: what a notice does with the longest-waiting frame. -/
def placeWait (w : DoorWait) (s : State) : State :=
  match w with
  | .command j => placeCommand j s
  | .warning dest set => joinDoor (warnFrame dest set) { s with ds := { s.ds with warnLast := set } }

theorem placeLongestWaiting_of_room {s : State} {k : Nat} {w : DoorWait} {rest : List DoorWait}
    (hk : s.ds.notices = k + 1) (hroom : s.lr.door.length < 8) (hwait : s.ds.waiting = w :: rest) :
    placeLongestWaiting s = placeWait w { s with ds := { s.ds with notices := k, waiting := rest } } := by
  have hroom' : s.doorRoom = true := (doorRoom_iff s).2 hroom
  simp only [placeLongestWaiting, hk, hwait]
  rw [if_neg (by omega), if_neg (fun h => by
    have h' : (!s.doorRoom) = true := h
    rw [hroom'] at h'
    exact absurd h' (by decide))]
  cases w <;> rfl

/-- Settles O33. -/
theorem doorQueuePlaceFilled : Obligations.DoorQueuePlaceFilled := by
  intro s hpin
  have hrun : exec .doorQueuePlace s = .next (placeLongestWaiting s) := event_of_released hpin _
  refine ⟨fun h => ?_, fun k rest hk hroom => ⟨fun j cmd hwait hj hcmd => ?_, fun dest set hwait => ?_⟩⟩
  · rw [hrun, placeLongestWaiting, if_pos h]
  · rw [hrun, placeLongestWaiting_of_room hk hroom hwait]
    exact congrArg Host.Outcome.next (placeCommand_first (s := { s with
      ds := { s.ds with notices := k, waiting := rest } }) hcmd)
  · rw [hrun, placeLongestWaiting_of_room hk hroom hwait]
    have hmark : encMark (set != 0) ++ [set] = [if set = 0 then 0 else 1, set] := by
      by_cases h : set = 0 <;> simp [encMark, h]
    simp only [placeWait, joinDoor, warnFrame, hmark]
    rfl

end Sys2Proof.Machine
end

section
/-! SUPPORT. The desk's door requests: the row's answer, the checks, and each request by the record's state. -/

namespace Sys2Proof.Machine

open Sys2Proof.Safety

/-! ## The rows of DOOR (R109) -/

section
variable {r : Request} {rest : List Request} {j : Nat} {s t : State} {req : Nat → State → DoorResult}

/-- R109, R183: an accepted door request. -/
theorem event_door_accepted {op : Byte} (hop : op.toNat < 4) (hj : j < 256) (h : Asked r rest [0x05, BitVec.ofNat 8 j, op] s)
    (hreq : req j (keyless (taken rest s)) = .ok t) :
    event (takeRequest (hasSub 0x05 2 4 op.toNat) fitsDoor (plain fun p t => acceptedOr (req (u8 p 1) t) t)) s
      = .next (replied r [0x05, 1, 0] t) := by
  refine event_plain_of_fits (a := .accepted) h ?_ ?_ ?_
  · simp [hasSub, hasCode, u8]
  · simp [fitsDoor, u8]
    omega
  · simp only [u8_cons_succ, u8_ofNat_of_lt hj, hreq, acceptedOr]

/-- R109, R182: a refused door request changes nothing. -/
theorem event_door_refused {op : Byte} {why : Reason} (hop : op.toNat < 4) (hj : j < 256)
    (h : Asked r rest [0x05, BitVec.ofNat 8 j, op] s) (hreq : req j (keyless (taken rest s)) = .error why) :
    event (takeRequest (hasSub 0x05 2 4 op.toNat) fitsDoor (plain fun p t => acceptedOr (req (u8 p 1) t) t)) s
      = .next (replied r (0x05 :: (enc1 2 ++ enc1 why.code)) (keyless (taken rest s))) := by
  refine (event_plain_of_fits (a := .refused why []) (t := keyless (taken rest s)) h ?_ ?_ ?_).trans ?_
  · simp [hasSub, hasCode, u8]
  · simp [fitsDoor, u8]
    omega
  · simp only [u8_cons_succ, u8_ofNat_of_lt hj, hreq, acceptedOr]
  · rw [Answer.bytes, List.append_nil]

end

/-! ## The checks (R109) -/

section
variable {j : Nat} {s : State}

theorem doorChecks_range (h : s.isBerth j = false) : doorChecks j s = some .range := by
  rw [doorChecks, h]
  rfl

theorem doorChecks_state (hj : s.isBerth j = true) (h : (s.berth j).entry.doorNode = 0 ∨ (s.door j).state = .fault) :
    doorChecks j s = some .state := by
  rw [doorChecks, hj]
  by_cases hn : (s.berth j).entry.doorNode = 0
  · simp [hn]
  · simp [hn, h.resolve_left hn]

theorem doorChecks_pass (hj : s.isBerth j = true) (hn : (s.berth j).entry.doorNode ≠ 0) (hf : (s.door j).state ≠ .fault) :
    doorChecks j s = none := by
  rw [doorChecks, hj]
  simp [hn, hf]

/-- R109: the checks come first in each of the four requests. -/
theorem requests_of_refused {why : Reason} (h : doorChecks j s = some why) :
    requestOpen j s = .error why ∧ requestClose j s = .error why ∧ requestHold j s = .error why
      ∧ requestRelease j s = .error why := by
  refine ⟨?_, ?_, ?_, ?_⟩
  · simp only [requestOpen, h]
  · simp only [requestClose, h]
  · simp only [requestHold, h]
  · simp only [requestRelease, h]

end

/-- Settles O37. -/
theorem doorRequestsChecked : Obligations.DoorRequestsChecked := by
  intro c op j r rest s hj hc hask
  have hrefused : ∀ why, doorChecks j s = some why →
      exec c s = .next (replied r (0x05 :: (enc1 2 ++ enc1 why.code)) (keyless (taken rest s))) := by
    intro why h
    obtain ⟨hopen, hclose, hhold, hrelease⟩ := requests_of_refused (s := keyless (taken rest s)) h
    simp only [List.mem_cons, Prod.mk.injEq, List.not_mem_nil, or_false] at hc
    rcases hc with ⟨rfl, rfl⟩ | ⟨rfl, rfl⟩ | ⟨rfl, rfl⟩ | ⟨rfl, rfl⟩
    · exact event_door_refused (op := 0) (req := requestOpen) (by decide) hj hask hopen
    · exact event_door_refused (op := 1) (req := requestClose) (by decide) hj hask hclose
    · exact event_door_refused (op := 2) (req := requestHold) (by decide) hj hask hhold
    · exact event_door_refused (op := 3) (req := requestRelease) (by decide) hj hask hrelease
  exact ⟨fun h => hrefused .range (doorChecks_range h), fun h hn => hrefused .state (doorChecks_state h hn)⟩

end Sys2Proof.Machine
end

section
/-! SUPPORT. DOOR_OPEN, DOOR_CLOSE, DOOR_HOLD and DOOR_RELEASE by the state of the door record. -/

namespace Sys2Proof.Machine

open Sys2Proof.Safety

section
variable {j : Nat} {s : State}

/-! ## OPEN and CLOSE (R110) -/

theorem requestOpen_of_vacant (h : doorChecks j s = none) (hc : (s.door j).cabin = none) :
    requestOpen j s = .error .state := by
  simp only [requestOpen, h, hc]
  rfl

/-- R110: an OPEN that forms a command, no command of the berth waiting. -/
theorem deskOpen_of_not_mem (hj : s.isBerth j = true) (h : DoorWait.command j ∉ s.ds.waiting) :
    deskOpen j s = noticeLocked j false (markDesk j .open (offerCommand j (setDoor j { s.door j with
      openDelay := none, waitingOpen := false, state := .opening, command := some (.open, .waiting)
      ackTimer := none, motionTimer := none, dwellTimer := .stopped, dwellKind := .full } s))) := by
  have hj' := le_of_isBerth hj
  rw [deskOpen]
  simp only [formOpen_of_not_mem (s := setDoor j _ s) hj h, door_setDoor_same hj', setDoor_setDoor hj']
  rfl

theorem requestOpen_of_closed (h : doorChecks j s = none) (hc : (s.door j).cabin.isSome = true)
    (hs : (s.door j).state = .closed) : requestOpen j s = .ok (deskOpen j s) := by
  have hn : ¬ (s.door j).cabin.isNone = true := by simpa [Option.isSome_iff_ne_none] using hc
  simp only [requestOpen, h, hs, if_neg hn]

theorem requestOpen_of_closing (h : doorChecks j s = none) (hc : (s.door j).cabin.isSome = true)
    (hs : (s.door j).state = .closing) : requestOpen j s = .ok (updateWarning s.closingSet (deskOpen j s)) := by
  have hn : ¬ (s.door j).cabin.isNone = true := by simpa [Option.isSome_iff_ne_none] using hc
  simp only [requestOpen, h, hs, if_neg hn]

theorem requestOpen_of_moving (hj : s.isBerth j = true) (h : doorChecks j s = none)
    (hc : (s.door j).cabin.isSome = true) (hs : (s.door j).state = .opening ∨ (s.door j).state = .reopening) :
    requestOpen j s = .ok (setDoor j { s.door j with heldClose := false, deskMark := some .open } s) := by
  have hn : ¬ (s.door j).cabin.isNone = true := by simpa [Option.isSome_iff_ne_none] using hc
  have hj' := le_of_isBerth hj
  rcases hs with hs | hs <;>
    simp only [requestOpen, h, hs, if_neg hn, markDesk, door_setDoor_same hj', setDoor_setDoor hj']

theorem requestOpen_of_free (h : doorChecks j s = none)
    (hc : (s.door j).cabin.isSome = true) (hs : (s.door j).state = .open) (hh : (s.door j).hold = .no) :
    requestOpen j s = .ok (setDoor j { s.door j with
      dwellTimer := .running (s.now + (s.berth j).entry.dwell * 500) } s) := by
  have hn : ¬ (s.door j).cabin.isNone = true := by simpa [Option.isSome_iff_ne_none] using hc
  have hheld : ¬ (s.door j).held = true := by simp [Door.held, hh]
  simp only [requestOpen, h, hs, if_neg hn, if_neg hheld]
  rfl

theorem requestOpen_of_held (h : doorChecks j s = none)
    (hc : (s.door j).cabin.isSome = true) (hs : (s.door j).state = .open) (hh : (s.door j).hold ≠ .no) :
    requestOpen j s = .ok (setDoor j { s.door j with hold := .yes ((s.berth j).entry.dwell * 500) } s) := by
  have hn : ¬ (s.door j).cabin.isNone = true := by simpa [Option.isSome_iff_ne_none] using hc
  have hheld : (s.door j).held = true := bne_iff_ne.2 hh
  simp only [requestOpen, h, hs, if_neg hn, if_pos hheld]
  rfl

theorem requestOpen_of_pending (h : doorChecks j s = none) (hc : (s.door j).cabin.isSome = true)
    (hs : (s.door j).state = .pending) : requestOpen j s = .ok (settleGather (setDoor j { s.door j with
      state := .open, dwellTimer := .running (s.now + (s.berth j).entry.dwell * 500) } s)) := by
  have hn : ¬ (s.door j).cabin.isNone = true := by simpa [Option.isSome_iff_ne_none] using hc
  simp only [requestOpen, h, hs, if_neg hn]
  rfl

theorem requestClose_of_shut (h : doorChecks j s = none)
    (hs : (s.door j).state = .closed ∨ (s.door j).state = .pending ∨ (s.door j).state = .closing) :
    requestClose j s = .ok s := by
  rcases hs with hs | hs | hs <;> simp only [requestClose, h, hs]

theorem requestClose_of_moving (hj : s.isBerth j = true) (h : doorChecks j s = none)
    (hs : (s.door j).state = .opening ∨ (s.door j).state = .reopening) :
    requestClose j s = .ok (setDoor j { s.door j with
      heldClose := true, hold := .no, holdTimer := none, deskMark := some .closed } s) := by
  have hj' := le_of_isBerth hj
  rcases hs with hs | hs <;>
    simp only [requestClose, h, hs, markDesk, door_setDoor_same hj', setDoor_setDoor hj']

theorem requestClose_of_open {cap : Option Nat} (hj : s.isBerth j = true) (h : doorChecks j s = none)
    (hs : (s.door j).state = .open)
    (hcap : ((∀ i, s.isBerth i = true → (s.door i).state ≠ .pending)
        ∧ cap = some (s.now + 4 * ((s.berth j).entry.gatherWindow * 100)))
      ∨ ((∃ i, s.isBerth i = true ∧ (s.door i).state = .pending) ∧ cap = s.ds.capTimer)) :
    requestClose j s = .ok (setDoor j { s.door j with
        state := .pending, hold := .no, holdTimer := none, deskMark := some .closed, dwellTimer := .stopped }
      { s with ds := { s.ds with
        windowTimer := some (s.now + (s.berth j).entry.gatherWindow * 100), capTimer := cap } }) := by
  have hj' := le_of_isBerth hj
  generalize hd : ({ s.door j with state := .open, hold := .no, holdTimer := none } : Door) = d
  have hopen : d.state = .open := hd ▸ rfl
  have hcap' : cap = if (setDoor j d s).gathering then (setDoor j d s).ds.capTimer
      else some ((setDoor j d s).now + 4 * (((setDoor j d s).berth j).entry.gatherWindow * 100)) := by
    rw [gathering_setDoor hj (by simp [hopen]) (by simp [hs]), entry_setDoor_same hj']
    rcases hcap with ⟨hidle, rfl⟩ | ⟨hother, rfl⟩
    · rw [gathering_of_none hidle]
      rfl
    · rw [gathering_iff.2 hother]
      rfl
  have hreq : requestClose j s = .ok (markDesk j .closed (becomePending j (setDoor j d s))) := by
    simp only [requestClose, h, hs]
    rw [← hd]
  rw [hreq, becomePending_eq hcap', entry_setDoor_same hj', door_setDoor_same hj', markDesk,
    door_setDoor_same hj', setDoor_setDoor hj', ← hd]
  exact congrArg Except.ok (setDoor_setDoor hj' _ _ { s with ds := { s.ds with
    windowTimer := some (s.now + (s.berth j).entry.gatherWindow * 100), capTimer := cap } })

/-! ## HOLD and RELEASE (R111) -/

/-- R111: the hold timer that an accepted HOLD starts. -/
def heldFrom (j : Nat) (s : State) : Option Nat := some (s.now + (s.berth j).entry.holdLimit * 1000)

theorem requestHold_of_closed (h : doorChecks j s = none) (hs : (s.door j).state = .closed) :
    requestHold j s = .error .state := by
  simp only [requestHold, h, hs]

theorem requestHold_of_moving (h : doorChecks j s = none)
    (hs : (s.door j).state = .opening ∨ (s.door j).state = .reopening) :
    requestHold j s = .ok (setDoor j { s.door j with
      holdTimer := heldFrom j s, hold := .beforeOpen, heldClose := false } s) := by
  rcases hs with hs | hs <;> simp only [requestHold, h, hs] <;> rfl

theorem requestHold_of_running {t : Nat} (h : doorChecks j s = none) (hs : (s.door j).state = .open)
    (ht : (s.door j).dwellTimer = .running t) :
    requestHold j s = .ok (setDoor j { s.door j with
      holdTimer := heldFrom j s, hold := .yes (t - s.now), dwellTimer := .suspended } s) := by
  simp only [requestHold, h, hs, ht]
  rfl

theorem requestHold_of_suspended (h : doorChecks j s = none) (hs : (s.door j).state = .open)
    (ht : (s.door j).dwellTimer = .suspended) :
    requestHold j s = .ok (setDoor j { s.door j with holdTimer := heldFrom j s } s) := by
  rw [requestHold, h]
  simp only [hs, ht]
  rfl

theorem requestHold_of_pending (h : doorChecks j s = none) (hs : (s.door j).state = .pending) :
    requestHold j s = .ok (settleGather (setDoor j { s.door j with
      holdTimer := heldFrom j s, state := .open, hold := .yes 0, dwellTimer := .suspended } s)) := by
  simp only [requestHold, h, hs]
  rfl

/-- R97: an offer changes of a door record its command and the command's timers alone. -/
theorem cabin_offerCommand (hj : j ≤ 8) : ((offerCommand j s).door j).cabin = (s.door j).cabin := by
  rw [offerCommand]
  split
  · rw [placeCommand]
    split
    · rfl
    · exact (congrArg Door.cabin (door_setDoor_same hj _ s)).trans rfl
  · rfl

theorem requestHold_of_closing (hj : s.isBerth j = true) (h : doorChecks j s = none) (hs : (s.door j).state = .closing)
    (hwait : DoorWait.command j ∉ s.ds.waiting) {v : State}
    (hv : v = offerCommand j (setDoor j { s.door j with
      holdTimer := heldFrom j s, hold := .beforeOpen, state := .opening, command := some (.open, .waiting)
      ackTimer := none, motionTimer := none, dwellTimer := .stopped, dwellKind := .full } s)) :
    requestHold j s = .ok (updateWarning s.closingSet (if (s.door j).cabin.isSome then
      noticeLocked j false (markDesk j .open v) else markDesk j .open v)) := by
  have hj' := le_of_isBerth hj
  have hcabin : ((markDesk j .open v).door j).cabin = (s.door j).cabin := by
    rw [markDesk, door_setDoor_same hj', hv]
    exact (cabin_offerCommand hj').trans ((congrArg Door.cabin (door_setDoor_same hj' _ s)).trans rfl)
  have hform : formOpen j .opening .full (setDoor j { s.door j with
      state := .closing, holdTimer := heldFrom j s, hold := .beforeOpen } s) = v := by
    rw [formOpen_of_not_mem (s := setDoor j _ s) hj hwait, door_setDoor_same hj', setDoor_setDoor hj', hv]
    rfl
  have hreq : requestHold j s = .ok (updateWarning s.closingSet (sendOpened j (markDesk j .open v))) := by
    simp only [requestHold, h, hs]
    rw [← hform]
    rfl
  rw [hreq, sendOpened, hcabin]

theorem requestRelease_of_none (h : doorChecks j s = none)
    (hs : (s.door j).hold = .no ∨ (s.door j).state = .closed ∨ (s.door j).state = .pending ∨ (s.door j).state = .closing) :
    requestRelease j s = .error .state := by
  have hrel : release j s = none := by
    rw [release]
    rcases hs with hs | hs | hs | hs
    · rw [hs]
      cases (s.door j).state <;> rfl
    all_goals
      rw [hs]
  simp only [requestRelease, h, hrel]

theorem requestRelease_of_some {t : State} (h : doorChecks j s = none) (ht : release j s = some t) :
    requestRelease j s = .ok t := by
  simp only [requestRelease, h, ht]

end

/-- Settles O35. -/
theorem deskOpensAndCloses : Obligations.DeskOpensAndCloses := by
  intro j r rest s hj hnode d k
  have hj' := le_of_isBerth hj
  have hk : k.isBerth j = true := hj
  have hsetk : k.closingSet = s.closingSet := closingSet_of_ds rfl rfl
  have hpass : ∀ {st : DoorState}, d.state = st → st ≠ .fault → doorChecks j k = none := fun h hf =>
    doorChecks_pass (s := k) hj hnode (show d.state ≠ .fault from h ▸ hf)
  refine ⟨?_, ?_⟩
  · intro hask answers full opened
    have haccept : ∀ {t}, requestOpen j k = .ok t → answers [1, 0] t := fun h =>
      event_door_accepted (op := 0) (req := requestOpen) (by decide) (by omega) hask h
    refine ⟨fun hc => ?_, fun hc => ⟨?_, fun hs => ?_, fun hs hh => ?_, fun hs hh => ?_, fun hs hother => ?_,
      fun hs hlast => ?_⟩⟩
    · refine event_door_refused (op := 0) (req := requestOpen) (why := .state) (by decide) (by omega) hask ?_
      by_cases hf : d.state = .fault
      · exact (requests_of_refused (doorChecks_state (s := k) hj (.inr hf))).1
      · exact requestOpen_of_vacant (doorChecks_pass (s := k) hj hnode hf) hc
    · intro hwait v told
      have htold : deskOpen j k = told := deskOpen_of_not_mem hk hwait
      refine ⟨fun hs => ?_, fun hs => ?_⟩
      · rw [← htold]
        exact haccept (requestOpen_of_closed (hpass hs (by simp)) hc hs)
      · rw [← htold, ← hsetk]
        exact haccept (requestOpen_of_closing (hpass hs (by simp)) hc hs)
    · exact haccept (requestOpen_of_moving hk (hs.elim (hpass · (by simp)) (hpass · (by simp))) hc hs)
    · exact haccept (requestOpen_of_free (hpass hs (by simp)) hc hs hh)
    · exact haccept (requestOpen_of_held (hpass hs (by simp)) hc hs hh)
    · obtain ⟨i, hi, hij, hp⟩ := hother
      refine haccept ((requestOpen_of_pending (hpass hs (by simp)) hc hs).trans (congrArg Except.ok ?_))
      exact settleGather_of_other (s := k) hk (i := i) hi hij hp
    · refine haccept ((requestOpen_of_pending (hpass hs (by simp)) hc hs).trans (congrArg Except.ok ?_))
      exact settleGather_of_last (s := k) hk (by simp) hlast
  · intro hask answers w
    have haccept : ∀ {t}, requestClose j k = .ok t → answers t := fun h =>
      event_door_accepted (op := 1) (req := requestClose) (by decide) (by omega) hask h
    refine ⟨fun hs => ?_, fun hs => ?_, fun cap hs hcap => ?_⟩
    · have hp : doorChecks j k = none := by
        rcases hs with h | h | h <;> exact hpass h (by simp)
      exact haccept (requestClose_of_shut hp hs)
    · exact haccept (requestClose_of_moving hk (hs.elim (hpass · (by simp)) (hpass · (by simp))) hs)
    · exact haccept (requestClose_of_open hk (hpass hs (by simp)) hs hcap)

/-- Settles O36. -/
theorem deskHoldsAndReleases : Obligations.DeskHoldsAndReleases := by
  intro j r rest s hj hnode d k
  have hj' := le_of_isBerth hj
  have hk : k.isBerth j = true := hj
  have hsetk : k.closingSet = s.closingSet := closingSet_of_ds rfl rfl
  have hpass : ∀ {st : DoorState}, d.state = st → st ≠ .fault → doorChecks j k = none := fun h hf =>
    doorChecks_pass (s := k) hj hnode (show d.state ≠ .fault from h ▸ hf)
  refine ⟨?_, ?_⟩
  · intro hask answers h
    have haccept : ∀ {t}, requestHold j k = .ok t → answers [1, 0] t := fun h =>
      event_door_accepted (op := 2) (req := requestHold) (by decide) (by omega) hask h
    refine ⟨fun hs => ?_, fun hs => ?_, fun t hs ht => ?_, fun hs ht => ?_, fun hs hother => ?_, fun hs hwait => ?_⟩
    · exact event_door_refused (op := 2) (req := requestHold) (why := .state) (by decide) (by omega) hask
        (requestHold_of_closed (hpass hs (by simp)) hs)
    · exact haccept (requestHold_of_moving (hs.elim (hpass · (by simp)) (hpass · (by simp))) hs)
    · exact haccept (requestHold_of_running (hpass hs (by simp)) hs ht)
    · exact haccept (requestHold_of_suspended (hpass hs (by simp)) hs ht)
    · obtain ⟨i, hi, hij, hp⟩ := hother
      refine haccept ((requestHold_of_pending (hpass hs (by simp)) hs).trans (congrArg Except.ok ?_))
      exact settleGather_of_other (s := k) hk (i := i) hi hij hp
    · intro opened v m
      rw [← hsetk]
      exact haccept (requestHold_of_closing (s := k) hk (hpass hs (by simp)) hs hwait (v := v) rfl)
  · intro hask answers w
    have haccept : ∀ {t}, requestRelease j k = .ok t → answers [1, 0] t := fun h =>
      event_door_accepted (op := 3) (req := requestRelease) (by decide) (by omega) hask h
    refine ⟨fun hs => ?_, fun hs hh => ?_, fun n hs hh => ?_, fun hs hh hidle => ?_⟩
    · refine event_door_refused (op := 3) (req := requestRelease) (why := .state) (by decide) (by omega) hask ?_
      by_cases hf : d.state = .fault
      · exact (requests_of_refused (doorChecks_state (s := k) hj (.inr hf))).2.2.2
      · exact requestRelease_of_none (doorChecks_pass (s := k) hj hnode hf) hs
    · exact haccept (requestRelease_of_some (hs.elim (hpass · (by simp)) (hpass · (by simp))) (release_of_moving (s := k) hs hh))
    · exact haccept (requestRelease_of_some (hpass hs (by simp)) (release_of_dwell (s := k) hs hh))
    · exact haccept (requestRelease_of_some (hpass hs (by simp)) (release_of_spent (s := k) hk hs hh hidle))

end Sys2Proof.Machine
end

section
/-! SUPPORT. DOOR_RESET: the record takes the state that the drive's last status shows. -/

namespace Sys2Proof.Machine

open Sys2Proof.Safety

/-- R77: a notice to CT, in a settled state, leaves the doors and the line alone. -/
theorem noticeLocked_frame {j : Nat} {b : Bool} {s : State} (h : Settled s) :
    (noticeLocked j b s).ds = s.ds ∧ (noticeLocked j b s).ls = s.ls ∧ (noticeLocked j b s).straps = s.straps := by
  by_cases hnews : ∃ c ∈ s.ct.queue, c.zone = j ∧ c.locked ≠ b
  · rw [noticeLocked_of_news h hnews]
    exact ⟨updateRelease_ds _, updateRelease_ls _, (updateRelease_lineOnly _).others .straps (by decide)⟩
  · rw [noticeLocked_of_same fun c hc hz => by
      by_contra hl
      exact hnews ⟨c, hc, hz, hl⟩]
    exact ⟨rfl, rfl, rfl⟩

theorem ite_noticeLocked_frame {P : Prop} [Decidable P] {j : Nat} {b : Bool} {s t : State} (h : Settled s)
    (ht : t = if P then noticeLocked j b s else s) : t.ds = s.ds ∧ t.ls = s.ls ∧ t.straps = s.straps := by
  subst ht
  split
  · exact noticeLocked_frame h
  · exact ⟨rfl, rfl, rfl⟩

theorem sendLocked_setDoor {j : Nat} {s : State} {d : Door} (hj : j ≤ 8) : sendLocked j (setDoor j d s) =
    if d.cabin.isSome ∧ d.openDelay = none ∧ d.waitingOpen = false then noticeLocked j true (setDoor j d s)
    else setDoor j d s := by
  rw [sendLocked, door_setDoor_same hj]
  exact if_congr (by simp [and_assoc]) rfl rfl

theorem sendOpened_setDoor {j : Nat} {s : State} {d : Door} (hj : j ≤ 8) : sendOpened j (setDoor j d s) =
    if d.cabin.isSome then noticeLocked j false (setDoor j d s) else setDoor j d s := by
  rw [sendOpened, door_setDoor_same hj]

theorem cycling_iff (s : State) : s.cycling = true ↔
    s.ls.line = .starting ∨ s.ls.line = .running ∨ s.ls.line = .slowed ∨ s.ls.line = .stopping := decide_eq_true_iff

section
variable {j : Nat} {s : State}

/-- The record that a DOOR_RESET leaves for the state its drive shows (R113), before a waiting open is made. -/
def resetTo (j : Nat) (st : DoorStatus) (s : State) : State :=
  match st with
  | .locked => sendLocked j (setDoor j { s.door j with state := .closed } s)
  | .open => foundOpen j s
  | .opening => foundMoving j .opening s
  | .closing => foundMoving j .closing s
  | .obstructed => sendOpened j (formOpen j .opening .full s)
  | .failed => s

/-- R113: the waiting open that the line state has not cancelled. -/
def reopened (j : Nat) (s : State) : State :=
  if (s.door j).waitingOpen ∧ (s.door j).cabin.isSome ∧ s.cycling then
    openForCabin j (setDoor j { s.door j with waitingOpen := false } s)
  else s

theorem requestDoorReset_of_fault {st : DoorStatus} {g : Bool} (hj : s.isBerth j = true)
    (hs : (s.door j).state = .fault) (hl : (s.door j).lastStatus = some (st, g)) (hst : st ≠ .failed) :
    requestDoorReset j s = .ok (updateWarning s.closingSet (reopened j (resetTo j st
      (gone (.berth j) .doorFault (setDoor j { s.door j with retryCount := 0, stallCount := 0 } s))))) := by
  rw [requestDoorReset, hj]
  simp only [hs, hl, hst, if_false, Bool.not_true, Bool.false_eq_true]
  cases st <;> rfl

theorem requestDoorReset_of_range (h : s.isBerth j = false) : requestDoorReset j s = .error .range := by
  rw [requestDoorReset, h]
  rfl

theorem requestDoorReset_of_state (hj : s.isBerth j = true)
    (h : (s.door j).state ≠ .fault ∨ (s.door j).lastStatus = none ∨ ∃ g, (s.door j).lastStatus = some (.failed, g)) :
    requestDoorReset j s = .error .state := by
  rw [requestDoorReset, hj]
  simp only [Bool.not_true, Bool.false_eq_true, if_false]
  split
  · rename_i st _ hs hl
    refine if_pos ?_
    rcases h with h | h | ⟨g, h⟩
    · exact absurd hs h
    · rw [hl] at h
      cases h
    · rw [hl] at h
      cases h
      rfl
  · rfl

/-- R95, R113: doors found open with a cabin, while another record gathers or none does; and with none. -/
theorem foundOpen_of_cabin (hc : (s.door j).cabin.isSome = true) : foundOpen j s = settleGather (setDoor j { s.door j with
    state := .open, dwellTimer := .running (s.now + (s.berth j).entry.dwell * 500) } s) := if_pos hc

theorem foundOpen_of_vacant (hc : (s.door j).cabin = none) : foundOpen j s = becomePending j s :=
  if_neg (by rw [hc]; simp)

end

/-- Settles O38. -/
theorem doorResetTakesTheStateShown : Obligations.DoorResetTakesTheStateShown := by
  intro j r rest s hjb hask d k
  have hjudge : ∀ {a t}, doneOr (requestDoorReset j k) k = (a, t) →
      exec .doorReset s = .next (replied r (0x06 :: a.bytes) t) := fun h =>
    event_plain_of_fits hask rfl rfl (by rw [u8_cons_succ, u8_ofNat_of_lt hjb]; exact h)
  refine ⟨fun hj => ?_, fun hj h => ?_, ?_⟩
  · exact hjudge (by rw [requestDoorReset_of_range (s := k) hj, doneOr])
  · exact hjudge (by rw [requestDoorReset_of_state (s := k) hj h, doneOr])
  · intro st g hj hset hs hl hst
    have hj' := le_of_isBerth hj
    have hsetk : k.closingSet = s.closingSet := closingSet_of_ds rfl rfl
    generalize hu : setDoor j { d with retryCount := 0, stallCount := 0 } k = u
    have hsetu : Settled u := settled_of_eq hset (hu ▸ rfl) (hu ▸ rfl) (hu ▸ rfl)
    have hgone := gone_withdrawn (.berth j) .doorFault hsetu
    have hreset := requestDoorReset_of_fault (s := k) hj hs hl hst
    rw [show k.door j = d from rfl, hu] at hreset
    generalize gone (.berth j) .doorFault u = v at hgone hreset
    refine ⟨v, hgone, ?_⟩
    intro x e moves opens shows running opening told
    have hframe := hgone.frame
    have hsetv : Settled v := hsetu.after hframe
    have hstraps : v.straps = s.straps := (hframe.others .straps (by decide)).trans (hu ▸ rfl)
    have hjv : v.isBerth j = true := (isBerth_congr hstraps j).trans hj
    have hnow : v.now = s.now := (hframe.others .now (by decide)).trans (hu ▸ rfl)
    have hentry : (v.berth j).entry = e := (hframe.entries j).trans (hu ▸ entry_setDoor_same hj' _ _)
    have hstate : ∀ i, s.isBerth i = true → i ≠ j → (v.door i).state = (s.door i).state := fun i hi hij => by
      rw [hframe.doors i, ← hu, door_setDoor_ne (isBerth_bounds hi).1 (isBerth_bounds hj).1 hij]
      rfl
    have hxstate : x.state = .fault := by
      rw [show x = v.door j from rfl, hframe.doors j, ← hu, door_setDoor_same hj']
      exact hs
    have hcabin : x.cabin = d.cabin := by
      rw [show x = v.door j from rfl, hframe.doors j, ← hu, door_setDoor_same hj']
    have hclosing : v.closingSet = s.closingSet := (closingSet_of_lineOnly hframe).trans
      (hu ▸ closingSet_door hj rfl rfl Iff.rfl)
    have hvwait : v.ds.waiting = s.ds.waiting := (congrArg DoorSeq.waiting hframe.ds).trans (hu ▸ rfl)
    have hvdoor : v.lr.door = s.lr.door := (congrArg (·.door) hframe.lr).trans (hu ▸ rfl)
    have hshows : ∀ {f : State → State} {t : State}, resetTo j st v = t → (t.door j).waitingOpen = x.waitingOpen →
        (t.door j).cabin = d.cabin → t.ls = v.ls → updateWarning s.closingSet t = f t → shows f t := by
      intro f t ht hw hc hls hf
      have hopens : ((t.door j).waitingOpen = true ∧ (t.door j).cabin.isSome = true ∧ t.cycling = true) ↔ opens := by
        rw [hw, hc, cycling_iff, hls]
      rw [ht, hsetk] at hreset
      have hrun := hjudge (by rw [hreset, doneOr])
      refine ⟨fun hn => ?_, fun ho => ?_⟩
      · rw [hrun, reopened, if_neg (fun h => hn (hopens.1 h)), hf]
        rfl
      · rw [hrun, reopened, if_pos (hopens.2 ho)]
        rfl
    have hsame : ∀ {t w : State} {y : Door}, resetTo j st v = t → t.ds = (setDoor j y w).ds → t.ls = v.ls →
        t.straps = v.straps → w.ds.berths = v.ds.berths → w.straps = v.straps → y.waitingOpen = x.waitingOpen →
        y.cabin = x.cabin → y.state ≠ .closing → shows id t := by
      intro t w y ht hds hls hst hb hws hwait hcab hy
      have hdoor : t.door j = y := by
        rw [State.door, State.berth, hds]
        exact door_setDoor_same hj' y w
      refine hshows ht (by rw [hdoor, hwait]) (by rw [hdoor, hcab, hcabin]) hls (updateWarning_of_same ?_)
      rw [closingSet_of_ds (s := setDoor j y w) (hst.trans hws.symm) hds, closingSet_door hjv hws hb ?_, hclosing]
      exact ⟨fun h => absurd h hy, fun h => by rw [show v.door j = x from rfl, hxstate] at h; cases h⟩
    refine ⟨fun h => ?_, fun h => ?_, fun h => ?_, fun h hc => ⟨fun hother => ?_, fun hlast => ?_⟩, fun cap h hc hcap => ?_,
      fun h hwait => ⟨fun hroom => ?_, fun hfull => ?_⟩⟩
    · subst h
      obtain ⟨hds, hls, hst⟩ := ite_noticeLocked_frame
        (P := d.cabin.isSome ∧ x.openDelay = none ∧ x.waitingOpen = false) (j := j) (b := true) (s := setDoor j { x with state := .closed } v)
        (settled_of_eq hsetv rfl rfl rfl) rfl
      refine hsame (y := { x with state := .closed }) (w := v) ?_ hds hls hst rfl rfl rfl rfl (by simp)
      rw [resetTo, sendLocked_setDoor hj', ← hcabin]
    · subst h
      refine hsame (y := { x with state := .opening, motionTimer := moves }) (w := v) ?_ rfl rfl rfl rfl rfl rfl rfl (by simp)
      simp only [resetTo, foundMoving, hnow, hentry]
      rfl
    · subst h
      refine hshows (t := setDoor j { x with state := .closing, motionTimer := moves } v) ?_ ?_ ?_ rfl rfl
      · simp only [resetTo, foundMoving, hnow, hentry]
        rfl
      · rw [door_setDoor_same hj']
      · rw [door_setDoor_same hj']
        exact hcabin
    · subst h
      obtain ⟨i, hi, hij, hp⟩ := hother
      refine hsame (y := running) (w := v) ?_ rfl rfl rfl rfl rfl rfl rfl (by simp [running])
      rw [resetTo, foundOpen_of_cabin (by rw [show v.door j = x from rfl, hcabin]; exact hc),
        settleGather_of_other hjv (i := i) ((isBerth_congr hstraps i).trans hi) hij (by rw [hstate i hi hij, hp]), hnow, hentry]
    · subst h
      refine hsame (y := running) (w := { v with ds := { v.ds with windowTimer := none, capTimer := none } }) ?_ rfl rfl rfl rfl
        rfl rfl rfl (by simp [running])
      rw [resetTo, foundOpen_of_cabin (by rw [show v.door j = x from rfl, hcabin]; exact hc),
        settleGather_of_last hjv (by simp) (fun i hi hij => ?_), hnow, hentry]
      have hi' : s.isBerth i = true := (isBerth_congr hstraps i).symm.trans hi
      rw [hstate i hi' hij]
      exact hlast i hi' hij
    · subst h
      have hgather : v.gathering = true ↔ ∃ i, s.isBerth i = true ∧ (s.door i).state = .pending := by
        rw [gathering_iff]
        refine exists_congr fun i => ?_
        rw [isBerth_congr hstraps i]
        refine and_congr_right fun hi => ?_
        by_cases hij : i = j
        · subst hij
          rw [show v.door i = x from rfl, hxstate, show (s.door i).state = .fault from hs]
        · rw [hstate i hi hij]
      have hcap' : cap = if v.gathering then v.ds.capTimer
          else some (v.now + 4 * ((v.berth j).entry.gatherWindow * 100)) := by
        rw [hnow, hentry]
        rcases hcap with ⟨hidle, rfl⟩ | ⟨hother, rfl⟩
        · rw [if_neg fun hg => by
            obtain ⟨i, hi, hp⟩ := hgather.1 hg
            exact hidle i hi hp]
        · rw [if_pos (hgather.2 hother), hframe.ds, ← hu]
          rfl
      refine hsame (y := { x with state := .pending, dwellTimer := .stopped }) (w := { v with ds := { v.ds with
        windowTimer := some (s.now + e.gatherWindow * 100), capTimer := cap } }) ?_ rfl rfl rfl rfl rfl rfl rfl (by simp)
      rw [resetTo, foundOpen_of_vacant (by rw [show v.door j = x from rfl, hcabin]; exact hc), becomePending_eq hcap', hnow,
        hentry]
    · subst h
      obtain ⟨hds, hls, hst⟩ := ite_noticeLocked_frame (P := d.cabin.isSome = true) (j := j) (b := false)
        (s := setDoor j (opening (.open, .placedOnce) (some (s.now + 300)) moves)
            { v with lr := { v.lr with door := s.lr.door ++
              [{ dest := e.doorNode, kind := .doorCmd, payload := [0], tag := 0, restart := false }] } })
        (settled_of_eq hsetv rfl rfl rfl) rfl
      refine hsame ?_ hds hls hst rfl rfl rfl rfl (by simp [opening])
      have hdoor : ({ ((v.door j).commanded .open .opening).placed .open v.now (v.berth j).entry.motionLimit with
          dwellKind := .full } : Door) = opening (.open, .placedOnce) (some (s.now + 300)) moves := by
        rw [hnow, hentry]
        rfl
      have hstate' : ({ v with lr := { v.lr with
          door := v.lr.door ++ [commandFrame (v.berth j).entry.doorNode .open] } } : State) = { v with lr := { v.lr with
            door := s.lr.door ++ [{ dest := e.doorNode, kind := .doorCmd, payload := [0], tag := 0, restart := false }] } } := by
        rw [hvdoor, hentry]
        rfl
      rw [resetTo, formOpen_of_room hjv (hvwait ▸ hwait) (hvdoor ▸ hroom), hdoor, hstate', sendOpened_setDoor hj',
        show (opening (.open, .placedOnce) (some (s.now + 300)) moves).cabin = d.cabin from hcabin]
    · subst h
      obtain ⟨hds, hls, hst⟩ := ite_noticeLocked_frame (P := d.cabin.isSome = true) (j := j) (b := false)
        (s := setDoor j (opening (.open, .waiting) none none)
            { v with ds := { v.ds with waiting := s.ds.waiting ++ [.command j] } })
        (settled_of_eq hsetv rfl rfl rfl) rfl
      refine hsame ?_ hds hls hst rfl rfl rfl rfl (by simp [opening])
      have hdoor : ({ (v.door j).commanded .open .opening with dwellKind := .full } : Door)
          = opening (.open, .waiting) none none := rfl
      rw [resetTo, formOpen_of_full hjv (hvwait ▸ hwait) (hvdoor ▸ hfull), hdoor, hvwait, sendOpened_setDoor hj',
        show (opening (.open, .waiting) none none).cabin = d.cabin from hcabin]

end Sys2Proof.Machine
end

section
/-! SUPPORT. Keyed requests, commissioning, notes to the summit, restart, and the break of the summit. -/

namespace Sys2Proof.Machine

open Sys2Proof.Safety

/-! ## Requests with a key (R187, R188) -/

section
variable {r : Request} {rest : List Request} {code : Byte} {operands : List Byte} {s : State}
  {mine fits : List Byte → Bool}

/-- R182: a request that suits its row is answered as the row judges it. -/
theorem event_judge {judge : Judge} {a : Answer} {restart : Bool} {t : State}
    (h : Asked r rest (code :: operands) s) (hmine : mine (code :: operands) = true)
    (hfits : fits (code :: operands) = true) (hjudge : judge (code :: operands) (taken rest s) = (a, restart, t)) :
    event (takeRequest mine fits judge) s = .next (reply r a restart t) := by
  rw [event, h.pin, takeRequest_of_asked h hmine, if_pos hfits, hjudge]
  rfl

theorem event_judge_replied {judge : Judge} {a : Answer} {t : State}
    (h : Asked r rest (code :: operands) s) (hmine : mine (code :: operands) = true)
    (hfits : fits (code :: operands) = true) (hjudge : judge (code :: operands) (taken rest s) = (a, false, t)) :
    event (takeRequest mine fits judge) s = .next (replied r (code :: a.bytes) t) :=
  (event_judge h hmine hfits hjudge).trans (congrArg _ (reply_eq_replied h.payload a t))

/-- R187: a keyed request in state B is judged with the key spent. -/
theorem event_keyed {judge : List Byte → State → Answer × State} {a : Answer} {t : State}
    (h : Asked r rest (code :: operands) s) (hmine : mine (code :: operands) = true)
    (hfits : fits (code :: operands) = true) (hkey : s.dr.key = .b)
    (hjudge : judge (code :: operands) (keyless (taken rest s)) = (a, t)) :
    event (takeRequest mine fits (keyed judge)) s = .next (replied r (code :: a.bytes) t) := by
  refine event_judge_replied h hmine hfits ?_
  rw [keyed, if_pos (show (taken rest s).dr.key = .b from hkey), setKey_none, hjudge]

/-- R187: a keyed request in another state is refused with KEY. -/
theorem event_keyed_refused {judge : List Byte → State → Answer × State}
    (h : Asked r rest (code :: operands) s) (hmine : mine (code :: operands) = true)
    (hfits : fits (code :: operands) = true) (hkey : s.dr.key ≠ .b) :
    event (takeRequest mine fits (keyed judge)) s = .next (replied r [code, 2, 6] (keyless (taken rest s))) := by
  refine event_judge_replied (a := .refused .key []) h hmine hfits ?_
  rw [keyed, if_neg (show ¬ (taken rest s).dr.key = .b from hkey), setKey_none]

end

/-- Settles O47. -/
theorem keySequence : Obligations.KeySequence := by
  intro r rest s k
  refine ⟨fun h => ?_, fun h => ⟨fun hk => ?_, fun hk => ?_⟩, ?_, fun t hpin ht => ?_⟩
  · exact event_judge_replied (a := .done []) h rfl rfl rfl
  · refine event_judge_replied (a := .done []) h rfl rfl ?_
    rw [judgeKeyB, if_pos (show (taken rest s).dr.key = .a from hk)]
    rfl
  · refine event_judge_replied (a := .refused .key []) h rfl rfl ?_
    rw [judgeKeyB, if_neg (show ¬ (taken rest s).dr.key = .a from hk), setKey_none]
  · intro c code operands hc h0 h1 h hk
    simp only [List.mem_cons, Prod.mk.injEq, List.not_mem_nil, or_false] at hc
    rcases hc with ⟨rfl, rfl, hl⟩ | ⟨rfl, rfl, hl⟩ | ⟨rfl, rfl, hl⟩ | ⟨rfl, rfl, hl⟩ | ⟨rfl, rfl, hl⟩
    · exact event_keyed_refused h rfl (by simp [fitsBare, hl]) hk
    · exact event_keyed_refused h rfl (by simp [fitsBypass, hl, u8_cons_succ, h0, h1]) hk
    · exact event_keyed_refused h rfl (by simp [fitsReinstate, hl, u8_cons_succ, h0]) hk
    · exact event_keyed_refused h rfl (by simp [fitsBare, hl]) hk
    · refine event_judge_replied (a := .refused .key []) h rfl (by simp [fitsBare, hl]) ?_
      rw [judgeRestart, if_pos (show (taken rest s).dr.key ≠ .b from hk), setKey_none]
  · refine (event_of_released hpin keyOut).trans ?_
    simp only [keyOut, ht]
    rfl

/-! ## The summit's break (R132) -/

/-- Settles O45. -/
theorem summitBreakTrips : Obligations.SummitBreakTrips := by
  intro s hpin hset
  refine ⟨?_, fun hb => ?_⟩
  · intro hquiet spoilt
    have hlow : s.deLow = true := by simp [State.deLow, hquiet]
    refine ⟨_, (event_of_released hpin breakDetected).trans ?_, raise_raised _ (settled_of_eq hset rfl rfl rfl)⟩
    rw [breakDetected, hlow]
    cases hturn : s.sl.turn <;> simp only [spoilt, hturn] <;> rfl
  · refine ⟨_, (event_of_released hpin breakEnded).trans ?_, gone_withdrawn _ _ (settled_of_eq hset rfl rfl rfl)⟩
    rw [breakEnded, if_pos hb]

/-! ## SUMMIT_NOTE, COMMISSION, RESTART and an unknown request (R136, R189, R190, R182) -/

/-- R189: which check fails first. -/
theorem commissionChecks_first {s : State} {i : Nat} (h1 : 1 ≤ i) (h8 : i ≤ 8) (hi : ¬ Commissionable s i)
    (hbefore : ∀ n, 1 ≤ n → n < i → Commissionable s n) :
    (commissionChecks s).findIdx? (fun b => !b) = some (i - 1) := by
  have hlen : (commissionChecks s).length = 8 := rfl
  rw [List.findIdx?_eq_some_iff_getElem]
  refine ⟨by omega, ?_, fun m hm => ?_⟩
  · have h := mt (commissionChecks_iff s i h1 h8).1 hi
    rw [List.getElem?_eq_getElem (by omega)] at h
    simpa using h
  · have h := (commissionChecks_iff s (m + 1) (by omega) (by omega)).2 (hbefore (m + 1) (by omega) (by omega))
    rw [Nat.add_sub_cancel, List.getElem?_eq_getElem (by omega)] at h
    simpa using h

theorem commissionChecks_all {s : State} (h : ∀ i, 1 ≤ i → i ≤ 8 → Commissionable s i) :
    (commissionChecks s).findIdx? (fun b => !b) = none := by
  rw [List.findIdx?_eq_none_iff]
  intro b hb
  obtain ⟨i, hi, rfl⟩ := List.getElem_of_mem hb
  have hlen : (commissionChecks s).length = 8 := rfl
  have hc := (commissionChecks_iff s (i + 1) (by omega) (by omega)).2 (h (i + 1) (by omega) (by omega))
  rw [Nat.add_sub_cancel, List.getElem?_eq_getElem hi] at hc
  simpa using hc

theorem txOffer_of_room {m : Message} {s : State} (h : s.sl.txQueue.length < 16) :
    txOffer m s = (true, evalRelease { s with sl := { s.sl with
      txQueue := s.sl.txQueue ++ [{ msg := m, seq := s.sl.nextSend, sent := false, age := 0 }]
      nextSend := s.sl.nextSend + 1 } }) := by
  rw [txOffer, txFull_eq_false h]
  rfl

theorem txOffer_of_full {m : Message} {s : State} (h : 16 ≤ s.sl.txQueue.length) : txOffer m s = (false, s) := by
  rw [txOffer, txFull_eq_true h]
  rfl

section
variable {p : List Byte} {s : State}

theorem judgeCommission_of_moving (h : ¬ (s.ls.line = .stopped ∨ s.ls.line = .tripped)) :
    judgeCommission p s = (.refused .state [], s) := if_pos h

theorem judgeCommission_of_all (h : s.ls.line = .stopped ∨ s.ls.line = .tripped)
    (hall : ∀ i, 1 ≤ i → i ≤ 8 → Commissionable s i) :
    judgeCommission p s = (.done [], { s with ls := { s.ls with commissioned := true } }) := by
  rw [judgeCommission, if_neg (not_not.2 h), commissionChecks_all hall]

theorem judgeCommission_of_failed {i : Nat} (h : s.ls.line = .stopped ∨ s.ls.line = .tripped) (h1 : 1 ≤ i) (h8 : i ≤ 8)
    (hi : ¬ Commissionable s i) (hbefore : ∀ n, 1 ≤ n → n < i → Commissionable s n) :
    judgeCommission p s = (.refused .config (enc1 i), s) := by
  rw [judgeCommission, if_neg (not_not.2 h), commissionChecks_first h1 h8 hi hbefore]
  simp only [Nat.sub_add_cancel h1]

theorem judgeRestart_of_moving (hk : s.dr.key = .b) (h : s.ls.line ≠ .stopped) :
    judgeRestart p s = (.refused .state [], false, setKey .none s) := by
  rw [judgeRestart, if_neg (not_not.2 hk), if_pos h]

theorem judgeRestart_of_stopped (hk : s.dr.key = .b) (h : s.ls.line = .stopped) :
    judgeRestart p s = (.done [], true, { setKey .none s with dr := { (setKey .none s).dr with restartWait := true } }) := by
  rw [judgeRestart, if_neg (not_not.2 hk), if_neg (not_not.2 h)]

end

/-- Settles O58. -/
theorem notesCommissioningAndRestart : Obligations.NotesCommissioningAndRestart := by
  intro r rest s k
  refine ⟨fun note hlen h => ⟨fun hroom => ?_, fun hfull => ?_⟩, fun hkey h => ⟨fun hl => ?_, fun hl => ⟨fun hall => ?_,
    fun i h1 h8 hi hbefore => ?_⟩⟩, fun hkey h => ⟨fun hl => ?_, fun hl => ?_⟩, fun code operands hc h => ?_⟩
  · refine event_plain_of_fits (a := .done []) h rfl (by simp [fitsNote]; omega) ?_
    rw [judgeNote, txOffer_of_room (s := keyless (taken rest s)) hroom]
    rfl
  · refine event_plain_of_fits (a := .refused .busy []) h rfl (by simp [fitsNote]; omega) ?_
    rw [judgeNote, txOffer_of_full (s := keyless (taken rest s)) hfull]
    rfl
  · exact event_keyed h rfl rfl hkey (judgeCommission_of_moving (s := k) fun hn => hn.elim hl.1 hl.2)
  · exact event_keyed h rfl rfl hkey (judgeCommission_of_all (s := k) hl hall)
  · exact event_keyed h rfl rfl hkey (judgeCommission_of_failed (s := k) hl h1 h8 hi hbefore)
  · exact event_judge_replied h rfl rfl (judgeRestart_of_moving (s := taken rest s) hkey hl)
  · refine (event_judge h rfl rfl (judgeRestart_of_stopped (s := taken rest s) hkey hl)).trans ?_
    rw [reply, h.payload]
    rfl
  · refine event_plain_of_fits (a := .refused .unknown []) h ?_ rfl rfl
    rcases hc with rfl | hc
    · rfl
    · simp [noCode, u8, hc]

end Sys2Proof.Machine
end

section
/-! SUPPORT. The status record (R186) and the reports (R192, R195). -/

namespace Sys2Proof.Machine

open Sys2Proof.Safety

/-! ## The status record (R186, R210) -/

theorem length_filter_isSome (l : List (Option FleetCabin)) :
    (l.filter fun o => o.isSome).length = (l.filterMap id).length := by
  induction l with
  | nil => rfl
  | cons o l ih => cases o <;> simp [ih]

/-- R186: the summit's last safety word, and the profile's progress, as the record holds them. -/
def summitBytes (w : Option SafetyWord) : List Byte :=
  match w with
  | some w => enc1 1 ++ w.bytes
  | none => enc1 0 ++ enc2 0

def profileBytes (p : ProfileState) : List Byte :=
  match p with
  | .idle => enc1 0 ++ enc1 0
  | .reading p _ => enc1 1 ++ enc1 (profileCode (some p))
  | .applying p => enc1 2 ++ enc1 (profileCode (some p))

theorem statusRecord_eq (s : State) : statusRecord s =
    enc1 s.ls.line.code ++ (enc1 s.ls.effDemand.code ++ (enc1 s.ls.deskDemand.code ++ (encMark s.ls.commissioned
    ++ (enc1 s.ls.faults.length ++ (enc4 s.ra.p ++ (enc2s (if s.ra.speedValid then s.ra.vf else 0)
    ++ (encMark s.ra.speedValid ++ (enc1 (cabins s).length ++ (enc1 s.ct.queue.length ++ (enc1 s.ct.uphill.length
    ++ (enc1 s.ct.downhill.length ++ (enc1 s.cm.subst.length ++ (enc1 s.sl.link.code ++ (summitBytes s.sl.summitWord
    ++ (enc1 s.sl.txQueue.length ++ (enc1 s.sl.rxQueue.length ++ (enc1 s.cs.call.code ++ (encOpt1 s.cs.phone
    ++ (enc1 s.cs.priority.code ++ (enc1 s.cs.waiting.length ++ (enc1 s.lr.loop.code ++ (enc1 s.lr.relay.length
    ++ (enc1 s.lr.requests.length ++ (enc1 s.lr.safety.length ++ (enc1 s.lr.door.length ++ (enc1 s.lr.voice.length
    ++ (enc1 s.lr.report.length ++ (enc1 s.lr.outstanding.length ++ (enc1 s.cl.load.code ++ (enc1 s.cl.outcome.code
    ++ (enc2 s.cl.skip ++ (profileBytes s.cl.profile ++ (enc1 (profileCode s.cl.pending)
    ++ (enc1 s.cl.lastOutcome.code ++ (enc2 s.cl.lastSkip ++ enc3 s.dr.flags.toNat)))))))))))))))))))))))))))))))))))
    := by
  unfold statusRecord cabins summitBytes profileBytes
  simp only [List.append_assoc, length_filter_isSome] <;> rfl

/-- Settles O48. -/
theorem statusReturnsTheRecord : Obligations.StatusReturnsTheRecord := by
  intro r rest s h k line rope cabins' channels summit calls loop profile loader record
  have hprofile : ∀ q, [profile q] = enc1 (profileCode q) := fun q => by
    rcases q with _ | q
    · rfl
    · cases q <;> rfl
  have hsummit : summit = enc1 s.sl.link.code ++ (summitBytes s.sl.summitWord
      ++ (enc1 s.sl.txQueue.length ++ enc1 s.sl.rxQueue.length)) := by
    simp only [summit, List.append_assoc]
    cases s.sl.summitWord <;> rfl
  have hcalls : calls = enc1 s.cs.call.code ++ (encOpt1 s.cs.phone
      ++ (enc1 s.cs.priority.code ++ enc1 s.cs.waiting.length)) := by
    simp only [calls, List.append_assoc]
    cases s.cs.phone <;> rfl
  have hloader : loader = enc1 s.cl.load.code ++ (enc1 s.cl.outcome.code ++ (enc2 s.cl.skip
      ++ (profileBytes s.cl.profile ++ (enc1 (profileCode s.cl.pending)
      ++ (enc1 s.cl.lastOutcome.code ++ enc2 s.cl.lastSkip))))) := by
    simp only [loader, List.append_assoc, hprofile]
    cases s.cl.profile with
    | idle => rfl
    | reading q _ => cases q <;> rfl
    | applying q => cases q <;> rfl
  have hrecord : statusRecord k = record := by
    simp only [statusRecord_eq, record, hsummit, hcalls, hloader, line, rope, cabins', channels, loop, List.append_assoc]
    rfl
  have hsum : ∀ w, (summitBytes w).length = 3 := fun w => by cases w <;> rfl
  have hphone : ∀ w, (encOpt1 w).length = 2 := fun w => by cases w <;> rfl
  have hstate : ∀ w, (profileBytes w).length = 2 := fun w => by cases w <;> rfl
  refine ⟨?_, ?_⟩
  · rw [← hrecord, statusRecord_eq]
    simp only [List.length_append, hsum, hphone, hstate, enc1, enc2, enc2s, enc3, enc4, encMark, List.length_cons,
      List.length_nil]
  · refine event_plain_of_fits (a := .done record) h rfl rfl ?_
    rw [judgeStatusRequest, hrecord]

end Sys2Proof.Machine
end

section
/-! SUPPORT. The reports: flags, capture blocks, notes (R192, R195). -/

namespace Sys2Proof.Machine

open Sys2Proof.Safety

section
variable {s : State}

theorem mayReport_of_room (hwait : s.dr.restartWait = false) (hplace : s.dr.placeNotice = false)
    (h : s.lr.report.length < 7) : s.mayReport = true := by
  simp [State.mayReport, hwait, hplace, Config.doorCap, h]

theorem mayReport_of_full (h : 7 ≤ s.lr.report.length) : s.mayReport = false := by
  have hn : ¬ s.lr.report.length < 7 := Nat.not_lt.2 h
  simp [State.mayReport, Config.doorCap, hn]

/-! ## Nothing to report -/

theorem flagReport_of_barred (h : s.mayReport = false ∨ s.dr.owed = 0) : flagReport s = s := by
  refine if_neg fun hc => ?_
  simp only [Bool.and_eq_true, bne_iff_ne] at hc
  rcases h with h | h
  · rw [h] at hc
    cases hc.1
  · exact hc.2 h

/-- R192: no block goes while reports are barred, while a flag is owed, and while none is ready. -/
theorem captureReport_of_barred (h : s.mayReport = false ∨ s.dr.owed ≠ 0 ∨ ∀ q, s.dr.capture = some q → q.ready = false) :
    captureReport s = s := by
  rw [captureReport]
  split
  · rename_i q hq
    refine if_neg fun hc => ?_
    simp only [Bool.and_eq_true, beq_iff_eq] at hc
    rcases h with h | h | h
    · rw [h] at hc
      cases hc.1.1
    · exact h hc.1.2
    · rw [h q hq] at hc
      cases hc.2
  · rfl

/-- R192: no note goes while reports are barred, while a flag is owed, and while a block is ready. -/
theorem noteReport_of_barred (h : s.mayReport = false ∨ s.dr.owed ≠ 0 ∨ ∃ q, s.dr.capture = some q ∧ q.ready = true) :
    noteReport s = s := by
  rw [noteReport]
  split
  · refine if_neg fun hc => ?_
    simp only [Bool.and_eq_true, beq_iff_eq] at hc
    rcases h with h | h | ⟨q, hq, hready⟩
    · rw [h] at hc
      cases hc.1.1
    · exact h hc.1.2
    · simp [hq, hready] at hc
  · rfl

/-! ## The reports -/

/-- R192, R209: a report to the desk joins the REPORT queue. -/
theorem sendReport_eq (payload : List Byte) (s : State) : sendReport payload s = { s with lr := { s.lr with
    report := s.lr.report ++
      [{ dest := s.params.deskNode, kind := .report, payload := payload, tag := 0, restart := false }] } } := rfl

theorem flagReport_of_owed (hmay : s.mayReport = true) (h : s.dr.owed ≠ 0) : flagReport s =
    sendReport ([1] ++ enc3 s.dr.owed.toNat ++ enc3 s.dr.flags.toNat) { s with dr := { s.dr with owed := 0 } } := by
  rw [flagReport, hmay, if_pos (by simpa using h)]
  rfl

theorem captureReport_of_ready {q : Capture} (hmay : s.mayReport = true) (howed : s.dr.owed = 0)
    (hq : s.dr.capture = some q) (h : q.ready = true) : captureReport s = sendBlock q s := by
  simp [captureReport, hq, hmay, howed, h]

theorem noteReport_of_free {note : List Byte} {rest : List (List Byte)} (hmay : s.mayReport = true) (howed : s.dr.owed = 0)
    (hn : s.sl.rxQueue = note :: rest) (h : ∀ q, s.dr.capture = some q → q.ready = false) :
    noteReport s = sendReport ([3] ++ enc1 note.length ++ note)
      { s with sl := { s.sl with rxQueue := rest, holdFlag := s.sl.holdFlag && decide (2 < rest.length) } } := by
  rw [noteReport, hn]
  cases hcap : s.dr.capture with
  | none =>
    simp only [hmay, howed]
    rfl
  | some q =>
    simp only [hmay, howed, h q hcap]
    rfl

/-! ## Capture blocks (R195) -/

variable {q : Capture}

theorem ready_iff (q : Capture) :
    q.ready = true ↔ q.block ≤ q.buffer.length ∨ q.written = true ∨ (q.remaining = 0 ∧ q.buffer ≠ []) := by
  simp [Capture.ready, or_assoc]

theorem not_ready_iff (q : Capture) :
    q.ready = false ↔ q.buffer.length < q.block ∧ q.written = false ∧ (q.remaining ≠ 0 ∨ q.buffer = []) := by
  rw [← Bool.not_eq_true, ready_iff]
  simp only [not_or, Nat.not_le, Bool.not_eq_true, not_and_or, not_not]

/-- A block that leaves samples behind, or more to come. -/
theorem sendBlock_of_more (h : q.endCause (q.buffer.drop q.block) = 0) : sendBlock q s =
    sendReport ([2] ++ enc1 q.channel ++ enc1 q.nextBlock ++ [0] ++ enc1 (q.buffer.take q.block).length
        ++ (q.buffer.take q.block).flatMap Sample.bytes)
      { s with dr := { s.dr with
        capture := some { q with buffer := q.buffer.drop q.block, nextBlock := (q.nextBlock + 1) % 128 } } } := by
  simp only [sendBlock, h, if_true]
  rfl

/-- The last block ends the capture. -/
theorem sendBlock_of_last {cause : Nat} (hlen : q.buffer.length ≤ q.block) (h : q.endCause [] = cause) (hc : cause ≠ 0) :
    sendBlock q s = setFlag .captureDone { sendReport ([2] ++ enc1 q.channel ++ enc1 q.nextBlock ++ enc1 cause
      ++ enc1 q.buffer.length ++ q.buffer.flatMap Sample.bytes) s with
        dr := { s.dr with capture := none } } := by
  simp only [sendBlock, List.take_of_length_le hlen, List.drop_of_length_le hlen, h, if_neg hc]
  rfl

end

/-- Settles O57. -/
theorem reportsSentInOrder : Obligations.ReportsSentInOrder := by
  intro s hpin hwait hplace sent
  have hflag : exec .flagReport s = .next (flagReport s) := event_of_released hpin _
  have hcapture : exec .captureBlockReport s = .next (captureReport s) := event_of_released hpin _
  have hnote : exec .noteReport s = .next (noteReport s) := event_of_released hpin _
  rw [hflag, hcapture, hnote]
  refine ⟨fun hfull => ?_, fun hroom => ?_⟩
  · have hmay := mayReport_of_full hfull
    rw [flagReport_of_barred (.inl hmay), captureReport_of_barred (.inl hmay), noteReport_of_barred (.inl hmay)]
    exact ⟨rfl, rfl, rfl⟩
  have hmay := mayReport_of_room hwait hplace hroom
  refine ⟨fun howed => ?_, fun howed => ⟨?_, fun hnone => ?_, ?_, fun note rest hn hidle => ?_⟩⟩
  · rw [flagReport_of_owed hmay howed, captureReport_of_barred (.inr (.inl howed)), noteReport_of_barred (.inr (.inl howed))]
    exact ⟨rfl, rfl, rfl⟩
  · rw [flagReport_of_barred (.inr howed)]
  · rw [captureReport_of_barred (.inr (.inr fun q hq => by rw [hnone] at hq; cases hq))]
  · intro q hq block ended
    refine ⟨fun hmore => ?_, fun hlast => ⟨fun hne hrem hwr => ?_, fun hwr => ?_⟩, fun hshort hwr hrem => ?_, fun hready => ?_⟩
    · rw [captureReport_of_ready hmay howed hq ((ready_iff q).2 (.inl (by omega))), sendBlock_of_more]
      · rfl
      · rcases hmore with hlt | ⟨heq, hrem, hwr⟩
        · have : q.buffer.drop q.block ≠ [] := by simp [hlt]
          simp [Capture.endCause, this]
        · simp [Capture.endCause, heq, hrem, hwr]
    · rw [captureReport_of_ready hmay howed hq ((ready_iff q).2 (.inr (.inr ⟨hrem, hne⟩))),
        sendBlock_of_last (cause := 1) hlast (by simp [Capture.endCause, hwr, hrem]) (by decide)]
      rfl
    · rw [captureReport_of_ready hmay howed hq ((ready_iff q).2 (.inr (.inl hwr))),
        sendBlock_of_last (cause := 2) hlast (by simp [Capture.endCause, hwr]) (by decide)]
      rfl
    · rw [captureReport_of_barred (.inr (.inr fun q' hq' => ?_))]
      obtain rfl : q = q' := Option.some.inj (hq.symm.trans hq')
      exact (not_ready_iff q).2 ⟨hshort, hwr, hrem⟩
    · rw [noteReport_of_barred (.inr (.inr ⟨q, hq, (ready_iff q).2 hready⟩))]
  · rw [noteReport_of_free hmay howed hn fun q hq => (not_ready_iff q).2 (hidle q hq)]
    rfl

end Sys2Proof.Machine
end

section
/-! SUPPORT. The checks that every request meets before its block judges it (R182). -/

namespace Sys2Proof.Machine

open Sys2Proof.Safety

/-! ## Which row takes a request (R183, log entry 5) -/

section
variable {p : List Byte}

theorem u8_zero_of_headD {id : Byte} (hc : p.headD 0 = id) : u8 p 0 = id.toNat := by
  cases p <;> simp_all [u8]

theorem hasCode_of_headD {id : Byte} (hp : p ≠ []) (hc : p.headD 0 = id) : hasCode id.toNat p = true := by
  simp [hasCode, hp, u8_zero_of_headD hc]

theorem hasSub_of_select {id : Byte} {off val last : Nat} (hp : p ≠ []) (hc : p.headD 0 = id)
    (hsel : p.length ≤ off ∨ last < u8 p off ∨ u8 p off = val) : hasSub id.toNat off (last + 1) val p = true := by
  rw [hasSub, hasCode_of_headD hp hc]
  rcases hsel with h | h | h
  · simp [h]
  · simp [Nat.succ_le_of_lt h]
  · simp [h]

theorem noCode_of_headD (hc : p.headD 0 = 0 ∨ 0x12 < (p.headD 0).toNat) : noCode p = true := by
  have h0 : u8 p 0 = (p.headD 0).toNat := u8_zero_of_headD rfl
  rw [noCode, Bool.or_eq_true, decide_eq_true_iff, h0]
  exact .inr (hc.imp_left fun h => by rw [h]; rfl)

end

/-! ## The checks (R182) -/

section
variable {r : Request} {rest : List Request} {s : State} {mine fits : List Byte → Bool} {judge : Judge}

/-- R182: a request that stands at the head of the queue, and that DR may take. -/
structure Waits (r : Request) (rest : List Request) (s : State) : Prop where
  pin : s.resetHeld = false
  head : s.lr.requests = r :: rest
  room : s.lr.report.length < 8
  free : s.dr.restartWait = false
  code : r.payload ≠ []

theorem Waits.takes (h : Waits r rest s) : s.takesRequest = true := by
  simp [State.takesRequest, h.free, Config.doorCap, h.room]

theorem Waits.replies (h : Waits r rest s) (a : Answer) (t : State) :
    reply r a false t = replied r (r.payload.headD 0 :: a.bytes) t := by
  obtain ⟨code, operands, hp⟩ := List.exists_cons_of_ne_nil h.code
  rw [reply_eq_replied hp, hp]
  rfl

theorem Waits.runs (h : Waits r rest s) (hmine : mine r.payload = true) : event (takeRequest mine fits judge) s = .next (
    if r.source.toNat ≠ s.params.deskNode then reply r (.refused .source []) false (taken rest s)
    else if s.cl.load = .loading then reply r (.refused .notReady []) false (taken rest s)
    else if !fits r.payload then reply r (.refused .range []) false (keyless (taken rest s))
    else reply r (judge r.payload (taken rest s)).1 (judge r.payload (taken rest s)).2.1
      (judge r.payload (taken rest s)).2.2) := by
  have hn : ¬ (!s.takesRequest || !mine r.payload) = true := by simp [h.takes, hmine]
  rw [event, h.pin]
  simp only [takeRequest, h.head, if_neg hn]
  rfl

/-- R182: the three refusals of a row. -/
theorem Waits.checked {c : Instr} (h : Waits r rest s) (hexec : exec c s = event (takeRequest mine fits judge) s)
    (hmine : mine r.payload = true) :
    (¬ r.source.toNat = s.params.deskNode → exec c s = .next (replied r [r.payload.headD 0, 2, 1] (taken rest s)))
    ∧ (r.source.toNat = s.params.deskNode → s.cl.load = .loading →
      exec c s = .next (replied r [r.payload.headD 0, 2, 2] (taken rest s)))
    ∧ (r.source.toNat = s.params.deskNode → s.cl.load = .ready → fits r.payload = false →
      exec c s = .next (replied r [r.payload.headD 0, 2, 3] (keyless (taken rest s)))) := by
  rw [hexec, h.runs hmine]
  refine ⟨fun hd => ?_, fun hd hl => ?_, fun hd hl hf => ?_⟩
  · rw [if_pos hd, h.replies]
    rfl
  · rw [if_neg (not_not.2 hd), if_pos hl, h.replies]
    rfl
  · rw [if_neg (not_not.2 hd), if_neg (by simp [hl]), hf, if_pos (by decide), h.replies]
    rfl

end

/-! ## What the rows of one code take alike -/

section
variable {p : List Byte}

theorem entryLength_of_unknown {table : Nat} (h : 4 < table) : entryLength table = none := by
  obtain ⟨n, rfl⟩ := Nat.exists_eq_add_of_le' h
  rfl

theorem not_fitsWrite {table len : Nat} (hsel : p.length ≤ 1 ∨ 4 < u8 p 1 ∨ u8 p 1 = table)
    (hlen : entryLength table = some len) (hn : ¬ (p.length = len + 4 ∧ u8 p 1 = table)) : fitsWrite p = false := by
  refine Bool.eq_false_iff.2 fun hf => hn ?_
  simp only [fitsWrite, Bool.and_eq_true, decide_eq_true_eq, beq_iff_eq] at hf
  obtain ⟨h4, hlen'⟩ := hf
  rcases hsel with h | h | h
  · omega
  · rw [entryLength_of_unknown h] at hlen'
    cases hlen'
  · rw [h, hlen] at hlen'
    exact ⟨by have := Option.some.inj hlen'; omega, h⟩

theorem not_fitsLine {level : Nat} (hsel : p.length ≤ 1 ∨ 2 < u8 p 1 ∨ u8 p 1 = level)
    (hn : ¬ (p.length = 2 ∧ u8 p 1 = level)) : fitsLine p = false :=
  decide_eq_false fun ⟨h1, h2⟩ => hn ⟨h1, by omega⟩

theorem not_fitsDoor {op : Nat} (hsel : p.length ≤ 2 ∨ 3 < u8 p 2 ∨ u8 p 2 = op)
    (hn : ¬ (p.length = 3 ∧ u8 p 2 = op)) : fitsDoor p = false :=
  decide_eq_false fun ⟨h1, h2⟩ => hn ⟨h1, by omega⟩

theorem not_fitsCabin {op : Nat} (hsel : p.length ≤ 1 ∨ 4 < u8 p 1 ∨ u8 p 1 = op)
    (hn : ¬ (p.length = 4 ∧ u8 p 1 = op)) : fitsCabin p = false :=
  decide_eq_false fun ⟨h1, h2⟩ => hn ⟨h1, by omega⟩

end

/-- Settles O46. -/
theorem requestsAreChecked : Obligations.RequestsAreChecked := by
  intro r rest s hpin hhead hroom hfree hcode p code desk checked
  have h : Waits r rest s := ⟨hpin, hhead, hroom, hfree, hcode⟩
  have hrow : ∀ {c : Instr} {mine fits : List Byte → Bool} {judge : Judge} {suits : Prop},
      exec c s = event (takeRequest mine fits judge) s → mine p = true → (¬ suits → fits p = false) →
      checked c ∧ (desk → s.cl.load = .ready → ¬ suits → exec c s = .next (replied r [code, 2, 3] (keyless (taken rest s)))) := by
    intro c mine fits judge suits hexec hmine hfits
    obtain ⟨h1, h2, h3⟩ := h.checked hexec hmine
    exact ⟨⟨h1, h2⟩, fun hd hl hn => h3 hd hl (hfits hn)⟩
  refine ⟨fun hc => ?_, fun c id select suits hmem hc hsel => ?_⟩
  · exact (hrow (suits := True) (c := .unknownRequest) rfl (noCode_of_headD hc) (fun h => absurd trivial h)).1
  · have hplain := hasCode_of_headD hcode hc
    have hsub : ∀ {off val last}, select = some (off, val, last) → hasSub id.toNat off (last + 1) val p = true :=
      fun hs => hasSub_of_select hcode hc (hsel _ _ _ hs)
    simp only [List.mem_cons, Prod.mk.injEq, List.not_mem_nil, or_false] at hmem
    rcases hmem with ⟨rfl, rfl, rfl, rfl⟩ | ⟨rfl, rfl, rfl, rfl⟩ | ⟨rfl, rfl, rfl, rfl⟩ | ⟨rfl, rfl, rfl, rfl⟩ |
      ⟨rfl, rfl, rfl, rfl⟩ | ⟨rfl, rfl, rfl, rfl⟩ | ⟨rfl, rfl, rfl, rfl⟩ | ⟨rfl, rfl, rfl, rfl⟩ |
      ⟨rfl, rfl, rfl, rfl⟩ | ⟨rfl, rfl, rfl, rfl⟩ | ⟨rfl, rfl, rfl, rfl⟩ | ⟨rfl, rfl, rfl, rfl⟩ |
      ⟨rfl, rfl, rfl, rfl⟩ | ⟨rfl, rfl, rfl, rfl⟩ | ⟨rfl, rfl, rfl, rfl⟩ | ⟨rfl, rfl, rfl, rfl⟩ |
      ⟨rfl, rfl, rfl, rfl⟩ | ⟨rfl, rfl, rfl, rfl⟩ | ⟨rfl, rfl, rfl, rfl⟩ | ⟨rfl, rfl, rfl, rfl⟩ |
      ⟨rfl, rfl, rfl, rfl⟩ | ⟨rfl, rfl, rfl, rfl⟩ | ⟨rfl, rfl, rfl, rfl⟩ | ⟨rfl, rfl, rfl, rfl⟩ |
      ⟨rfl, rfl, rfl, rfl⟩ | ⟨rfl, rfl, rfl, rfl⟩ | ⟨rfl, rfl, rfl, rfl⟩ | ⟨rfl, rfl, rfl, rfl⟩ |
      ⟨rfl, rfl, rfl, rfl⟩ | ⟨rfl, rfl, rfl, rfl⟩ | ⟨rfl, rfl, rfl, rfl⟩
    · exact hrow rfl hplain decide_eq_false
    · exact hrow rfl hplain decide_eq_false
    · exact hrow rfl (hsub rfl) (not_fitsWrite (hsel _ _ _ rfl) rfl)
    · exact hrow rfl (hsub rfl) (not_fitsWrite (hsel _ _ _ rfl) rfl)
    · exact hrow rfl (hsub rfl) (not_fitsWrite (hsel _ _ _ rfl) rfl)
    · exact hrow rfl (hsub rfl) (not_fitsWrite (hsel _ _ _ rfl) rfl)
    · exact hrow rfl (hsub rfl) (not_fitsWrite (hsel _ _ _ rfl) rfl)
    · exact hrow rfl (hsub rfl) (not_fitsLine (hsel _ _ _ rfl))
    · exact hrow rfl (hsub rfl) (not_fitsLine (hsel _ _ _ rfl))
    · exact hrow rfl (hsub rfl) (not_fitsLine (hsel _ _ _ rfl))
    · exact hrow rfl (hsub rfl) (not_fitsDoor (hsel _ _ _ rfl))
    · exact hrow rfl (hsub rfl) (not_fitsDoor (hsel _ _ _ rfl))
    · exact hrow rfl (hsub rfl) (not_fitsDoor (hsel _ _ _ rfl))
    · exact hrow rfl (hsub rfl) (not_fitsDoor (hsel _ _ _ rfl))
    · exact hrow rfl hplain beq_eq_false_iff_ne.2
    · exact hrow rfl (hsub rfl) (not_fitsCabin (hsel _ _ _ rfl))
    · exact hrow rfl (hsub rfl) (not_fitsCabin (hsel _ _ _ rfl))
    · exact hrow rfl (hsub rfl) (not_fitsCabin (hsel _ _ _ rfl))
    · exact hrow rfl (hsub rfl) (not_fitsCabin (hsel _ _ _ rfl))
    · exact hrow rfl (hsub rfl) decide_eq_false
    · exact hrow rfl hplain beq_eq_false_iff_ne.2
    · exact hrow rfl hplain beq_eq_false_iff_ne.2
    · exact hrow rfl hplain decide_eq_false
    · exact hrow rfl hplain decide_eq_false
    · exact hrow rfl hplain decide_eq_false
    · exact hrow rfl hplain decide_eq_false
    · exact hrow rfl hplain decide_eq_false
    · exact hrow rfl hplain decide_eq_false
    · exact hrow rfl hplain decide_eq_false
    · exact hrow rfl hplain decide_eq_false
    · exact hrow rfl hplain decide_eq_false

end Sys2Proof.Machine
end

section
/-! SUPPORT. CLEAR_FAULT and TRIP_RESET (R53, R61). -/

namespace Sys2Proof.Machine

open Sys2Proof.Safety

/-! ## What a change of LS that is followed leaves -/

theorem mostSevere_congr {s t : State} {d : Demand} (hls : t.ls = s.ls) (hcm : t.cm = s.cm) :
    MostSevere t d ↔ MostSevere s d := by
  have hst : ∀ e, Stands t e ↔ Stands s e := fun e => stands_congr hcm e
  simp only [MostSevere, hls, hst]

/-- R54: in a settled state what follows a line event keeps the demand that the event formed. -/
theorem follow_mostSevere {s u : State} (h : Settled u) (hd : u.ls.effDemand = u.demandNow) :
    MostSevere (follow s u) (follow s u).ls.effDemand := by
  have hls := follow_ls_settled (s := s) h
  rw [mostSevere_congr hls ((follow_lineOnly h).others .cm (by decide)), hls, hd]
  exact demandNow_mostSevere u

/-! ## CLEAR_FAULT (R53) -/

section
variable {n : Nat} {s : State}

theorem find_namedBy_none (h : ∀ e ∈ s.ls.faults, e.order.toNat ≠ n) : s.ls.faults.find? (namedBy n) = none :=
  List.find?_eq_none.2 fun e he => by simpa [namedBy] using h e he

theorem find_namedBy_some {e : FaultEntry} {before after : List FaultEntry} (hl : s.ls.faults = before ++ e :: after)
    (he : e.order.toNat = n) (hb : ∀ x ∈ before, x.order.toNat ≠ n) : s.ls.faults.find? (namedBy n) = some e := by
  rw [hl, List.find?_append, List.find?_eq_none.2 fun x hx => by simpa [namedBy] using hb x hx]
  simp [namedBy, he]

theorem eraseP_namedBy {e : FaultEntry} {before after : List FaultEntry} (he : e.order.toNat = n)
    (hb : ∀ x ∈ before, x.order.toNat ≠ n) : (before ++ e :: after).eraseP (namedBy n) = before ++ after := by
  rw [List.eraseP_append_right _ fun x hx => by simpa [namedBy] using hb x hx, List.eraseP_cons_of_pos (by simp [namedBy, he])]

/-- R53: the state from which the demand is formed again. -/
def unlisted (n : Nat) (s : State) : State :=
  setFlag .faultGone { s with ls := { s.ls with faults := s.ls.faults.eraseP (namedBy n) } }

theorem unlisted_faults (n : Nat) (s : State) : (unlisted n s).ls.faults = s.ls.faults.eraseP (namedBy n) :=
  congrArg LineSup.faults (setFlag_ls _ _)

/-- R53: what an accepted CLEAR_FAULT leaves. -/
theorem clearFault_leaves {e : FaultEntry} {before after : List FaultEntry} (hl : s.ls.faults = before ++ e :: after)
    (he : e.order.toNat = n) (hb : ∀ x ∈ before, x.order.toNat ≠ n) (hset : Settled s) {t : State}
    (ht : t = follow s (clearEntry n s)) : t.flag .faultGone = true
      ∧ (∀ x ∈ before ++ after, ¬ IsAutoSlow x → x ∈ t.ls.faults)
      ∧ (∀ x ∈ t.ls.faults, x ∈ before ++ after ∨ IsAutoSlow x)
      ∧ MostSevere t t.ls.effDemand ∧ LineOnly s t := by
  have hclear := clearEntry_lineOnly n s
  have hfollow := follow_lineOnly (s := s) (hset.after hclear)
  have hls : t.ls = (reform (unlisted n s)).ls := ht ▸ follow_ls_settled (hset.after hclear)
  have hfaults : (unlisted n s).ls.faults = before ++ after := by rw [unlisted_faults, hl, eraseP_namedBy he hb]
  obtain ⟨hkept, hmade⟩ := reform_faults (unlisted n s)
  rw [hfaults] at hkept hmade
  rw [hls, ht]
  refine ⟨hfollow.flags _ ((reform_lineOnly (unlisted n s)).flags _ (flag_setFlag_same _ _)), hkept, fun x hx => ?_, ?_,
    hclear.trans hfollow⟩
  · rcases hmade x hx with h | ⟨g, -, hg, -, rfl⟩
    · exact .inl h
    · exact .inr hg
  · rw [← hls, ht]
    exact follow_mostSevere (hset.after hclear) (reform_spec (unlisted n s)).2.2.2.2

/-! ## TRIP_RESET (R61) -/

theorem tripEntry_iff (e : FaultEntry) :
    tripEntry e = true ↔ e.latched = true ∧ e.cls = .trip ∧ e.present = false := by
  simp [tripEntry, and_assoc]

/-- R61: the state in which the entries are gone and the overflow demand is RUN. -/
def untripped (s : State) : State :=
  let s1 := { s with ls := { s.ls with faults := s.ls.faults.filter fun e => !tripEntry e, overflow := .run } }
  if s.ls.faults.any tripEntry then setFlag .faultGone s1 else s1

theorem clearTrips_eq (s : State) :
    clearTrips s = if s.ls.line = .tripped then enterLine .stopped (untripped s) else reform (untripped s) := rfl

theorem untripped_ls (s : State) : (untripped s).ls =
    { s.ls with faults := s.ls.faults.filter fun e => !tripEntry e, overflow := .run } := by
  rw [untripped]
  split
  · exact setFlag_ls _ _
  · rfl

theorem untripped_flag (h : ∃ e ∈ s.ls.faults, e.latched = true ∧ e.cls = .trip ∧ e.present = false) :
    (untripped s).flag .faultGone = true := by
  obtain ⟨e, he, hc⟩ := h
  rw [untripped, if_pos (List.any_eq_true.2 ⟨e, he, (tripEntry_iff e).2 hc⟩)]
  exact flag_setFlag_same _ _

theorem untripped_lineOnly (s : State) : LineOnly s (untripped s) := by
  have h1 : LineOnly s { s with ls := { s.ls with
    faults := s.ls.faults.filter fun e => !tripEntry e, overflow := .run } } := .of_ls rfl rfl
  rw [untripped]
  split
  · exact h1.trans (setFlag_lineOnly _ _)
  · exact h1

theorem judgeTripReset_refused {p : List Byte} (h : (s.ls.line ≠ .tripped ∧ s.ls.line ≠ .stopped)
      ∨ (∃ e ∈ s.ls.faults, e.cls = .trip ∧ e.present = true) ∨ (s.ls.line ≠ .stopped ∧ s.atRest = false)) :
    judgeTripReset p s = (.refused .state [], s) := by
  refine if_pos ?_
  rcases h with ⟨h1, h2⟩ | ⟨e, he, h1, h2⟩ | ⟨h1, h2⟩
  · exact .inl fun h => h.elim h1 h2
  · exact .inr (.inl (List.any_eq_true.2 ⟨e, he, by simp [h1, h2]⟩))
  · exact .inr (.inr fun h => h.elim h1 (by simp [h2]))

theorem judgeTripReset_done {p : List Byte} (hl : s.ls.line = .stopped ∨ (s.ls.line = .tripped ∧ s.atRest = true))
    (h : ∀ e ∈ s.ls.faults, e.cls = .trip → e.present = false) : judgeTripReset p s = (.done [], tripReset s) := by
  refine if_neg ?_
  rintro (h1 | h1 | h1)
  · exact h1 (hl.elim .inr fun h => .inl h.1)
  · obtain ⟨e, he, hc⟩ := List.any_eq_true.1 h1
    simp only [Bool.and_eq_true, beq_iff_eq] at hc
    rw [h e he hc.1] at hc
    cases hc.2
  · exact h1 (hl.imp_right (·.2))

/-- R61: what TRIP_RESET leaves beside the line and its faults. -/
theorem tripReset_frame (hset : Settled s) : (tripReset s).ls = (clearTrips s).ls ∧ LineOnly s (tripReset s)
    ∧ MostSevere (tripReset s) (tripReset s).ls.effDemand
    ∧ ((∃ e ∈ s.ls.faults, e.latched = true ∧ e.cls = .trip ∧ e.present = false) →
      (tripReset s).flag .faultGone = true) := by
  have hbase := untripped_lineOnly s
  have hclear : LineOnly (untripped s) (clearTrips s) ∧ (clearTrips s).ls.effDemand = (clearTrips s).demandNow := by
    rw [clearTrips_eq]
    split
    · exact ⟨enterLine_lineOnly _ _, (enterLine_spec .stopped (untripped s)).2.2.2.2.2.1⟩
    · exact ⟨reform_lineOnly _, (reform_spec (untripped s)).2.2.2.2⟩
  have hsetu : Settled (clearTrips s) := hset.after (hbase.trans hclear.1)
  have hfollow := follow_lineOnly (s := s) hsetu
  exact ⟨follow_ls_settled hsetu, (hbase.trans hclear.1).trans hfollow, follow_mostSevere hsetu hclear.2,
    fun h => hfollow.flags _ (hclear.1.flags _ (untripped_flag h))⟩

end

/-- Settles O53. -/
theorem faultsAreClearedByTheDesk : Obligations.FaultsAreClearedByTheDesk := by
  intro r rest s k
  refine ⟨fun n hn h => ?_, fun h hkey => ⟨fun hbad => ?_, ?_⟩⟩
  · have hname : u16 (0x08 :: enc2 n) 1 = n := u16_ofNat_of_lt hn []
    have hjudge : ∀ {a t}, judgeClear (0x08 :: enc2 n) k = (a, t) →
        exec .clearFault s = .next (replied r (0x08 :: a.bytes) t) := fun h' => event_plain_of_fits h rfl rfl h'
    refine ⟨fun hnone => ?_, fun e before after hl he hb => ?_⟩
    · refine hjudge (a := .refused .range []) ?_
      rw [judgeClear, hname, find_namedBy_none (s := k) hnone]
    · have hfind : k.ls.faults.find? (namedBy n) = some e := find_namedBy_some (s := k) hl he hb
      refine ⟨fun hbad => ?_, fun hlat hcls hpres hset => ?_⟩
      · refine hjudge (a := .refused .state []) ?_
        rw [judgeClear, hname, hfind]
        exact if_pos (hbad.imp_left fun h => by simp [h])
      · refine ⟨follow k (clearEntry n k), hjudge (a := .done []) ?_,
          clearFault_leaves (s := k) hl he hb (settled_of_eq hset rfl rfl rfl) rfl⟩
        rw [judgeClear, hname, hfind]
        exact if_neg (by simp [hlat, hcls, hpres])
  · exact event_keyed h rfl rfl hkey (judgeTripReset_refused (s := k) hbad)
  · intro hnone hset cleared
    have hdone : ∀ hl, exec .tripReset s = .next (replied r [0x0E, 0, 0] (tripReset k)) := fun hl =>
      event_keyed h rfl rfl hkey (judgeTripReset_done (s := k) hl hnone)
    obtain ⟨hls, hlo, hms, hflag⟩ := tripReset_frame (s := k) (settled_of_eq hset rfl rfl rfl)
    have hkls := untripped_ls k
    refine ⟨fun hl hrest => ?_, fun hl => ?_⟩
    · have hclear : clearTrips k = enterLine .stopped (untripped k) := if_pos hl
      obtain ⟨hline, -, hover, hfaults, -⟩ := enterLine_spec .stopped (untripped k)
      refine ⟨tripReset k, hdone (.inr ⟨hl, hrest⟩), ?_, ?_, hflag, ?_, hms, hlo⟩
      · rw [hls, hclear, hline]
      · rw [hls, hclear, hfaults, hkls]
        refine List.filter_congr fun e _ => ?_
        by_cases hc : tripEntry e = true
        · simp [hc, (tripEntry_iff e).1 hc]
        · simp [hc, mt (tripEntry_iff e).2 hc]
      · rw [hls, hclear, hover, hkls]
    · have hclear : clearTrips k = reform (untripped k) := if_neg (by rw [show k.ls.line = .stopped from hl]; decide)
      obtain ⟨hkept, hmade⟩ := reform_faults (untripped k)
      refine ⟨tripReset k, hdone (.inl hl), fun x hx hc ha => ?_, fun x hx => ?_, hflag, ?_, hms, hlo⟩
      · rw [hls, hclear]
        refine hkept x ?_ ha
        rw [hkls]
        exact List.mem_filter.2 ⟨hx, by simpa using mt (tripEntry_iff x).1 hc⟩
      · rw [hls, hclear] at hx
        rw [hkls] at hmade
        rcases hmade x hx with h | ⟨g, -, hg, -, rfl⟩
        · obtain ⟨hm, hc⟩ := List.mem_filter.1 h
          exact .inl ⟨hm, fun hc' => by simp [(tripEntry_iff x).2 hc'] at hc⟩
        · exact .inr hg
      · rw [hls, hclear, (reform_spec (untripped k)).2.1, hkls]

end Sys2Proof.Machine
end

section
/-! SUPPORT. The rules of CM's table: a fault that is not listed, the encoder channel, the wind band; BYPASS and
REINSTATE (R38, R39). -/

namespace Sys2Proof.Machine

open Sys2Proof.Safety

/-! ## A fault that is not listed -/

theorem demandKept_of_bypassed {s t : State} (h : DemandKept s) (hls : t.ls = s.ls) (hb : ∀ c, t.bypassed c = s.bypassed c) :
    DemandKept t := by
  have hdesk := ((demandKept_iff s).1 h).2.2
  refine (demandKept_iff t).2 ⟨?_, ?_, ?_⟩
  · rw [demandNow_congr_bypassed (by rw [hls]) (by rw [hls]) (by rw [hls]) hb, hls]
    exact ((demandKept_iff s).1 h).1
  · rw [hls]
    exact ((demandKept_iff s).1 h).2.1
  · refine hdesk.of_eq ?_ ?_ ?_ ?_ ?_ <;> rw [hls]

section
variable {s : State} {src : Source} {code : FaultCode}

theorem listGone_of_absent {l : List FaultEntry} (h : ∀ e ∈ l, ¬ (e.source = src ∧ e.code = code)) :
    listGone src code l = (l, false) := by
  have hany : l.any (fun e => decide (e.source = src ∧ e.code = code) && !e.latched) = false := by
    rw [List.any_eq_false]
    intro e he hc
    simp only [Bool.and_eq_true, decide_eq_true_eq] at hc
    exact h e he hc.1
  have hmap : l.map (fun e => if decide (e.source = src ∧ e.code = code) then { e with present := false } else e) = l := by
    refine (List.map_congr_left fun e he => ?_).trans (List.map_id l)
    rw [if_neg (by simpa using h e he)]
    rfl
  simp only [listGone, hany, hmap]
  rfl

theorem dropFault_of_absent (h : ∀ e ∈ s.ls.faults, ¬ (e.source = src ∧ e.code = code)) : dropFault src code s = s := by
  rw [dropFault, listGone_of_absent h]
  rfl

/-- R51, R54: a fault that is not listed is reported gone in a state that obeys its demand: nothing changes. -/
theorem goneCore_of_absent (hkept : DemandKept s) (h : ∀ e ∈ s.ls.faults, ¬ (e.source = src ∧ e.code = code)) :
    goneCore src code s = s := by
  rw [goneCore, dropFault_of_absent h, reform_of_demandKept hkept]

theorem follow_same {s t : State} (h : t.ls.line = s.ls.line) : follow s t = t := if_pos h

theorem goneF_of_absent (hkept : DemandKept s) (h : ∀ e ∈ s.ls.faults, ¬ (e.source = src ∧ e.code = code)) :
    goneF follow src code s = s := by
  rw [goneF, goneCore_of_absent hkept h, follow_same rfl]

theorem goneAll_of_absent {c : Nat} {codes : List FaultCode} (hkept : DemandKept s)
    (h : ∀ e ∈ s.ls.faults, e.source ≠ .channel c) : goneAll follow c codes s = s := by
  induction codes with
  | nil => rfl
  | cons code codes ih =>
    rw [goneAll, List.foldl_cons, goneF_of_absent hkept fun e he hc => h e he hc.1]
    exact ih

end

/-! ## The table (R1, R29) -/

theorem setChan_setChan (c : Nat) (x y : Channel) (s : State) : setChan c x (setChan c y s) = setChan c x s := by
  simp only [setChan, Vector.setIfInBounds_setIfInBounds]

theorem encoderNow_congr {s t : State} (h : ∀ i, ActiveOf .encoder t i ↔ ActiveOf .encoder s i) :
    t.encoderNow = s.encoderNow := by
  rw [encoderNow_iff, show ActiveOf .encoder t = ActiveOf .encoder s from funext fun i => propext (h i), ← encoderNow_iff]

theorem bandNow_congr {s t : State} (h : ∀ i, ActiveOf .wind t i ↔ ActiveOf .wind s i)
    (hb : ∀ i, ActiveOf .wind s i → (t.chan i).rt.band = (s.chan i).rt.band) : t.bandNow = s.bandNow := by
  have hle : ∀ k, t.bandNow.code ≤ k ↔ s.bandNow.code ≤ k := fun k => by
    rw [bandNow_le, bandNow_le]
    refine forall_congr' fun i => ⟨fun hi ha => ?_, fun hi ha => ?_⟩
    · exact hb i ha ▸ hi ((h i).2 ha)
    · exact (hb i ((h i).1 ha)).symm ▸ hi ((h i).1 ha)
  exact Band.code_inj (Nat.le_antisymm ((hle _).2 le_rfl) ((hle _).1 le_rfl))

/-- A channel's change leaves which channels are ACTIVE of a kind, when it is of another kind before and after. -/
theorem activeOf_setChan {k : ChanKind} {c : Nat} {x : Channel} {s : State} (hold : (s.chan c).entry.kind ≠ k)
    (hnew : x.entry.kind ≠ k) (i : Nat) : ActiveOf k (setChan c x s) i ↔ ActiveOf k s i := by
  unfold ActiveOf
  rw [chan_setChan]
  split
  · rename_i h
    obtain ⟨rfl, -⟩ := h
    simp [hold, hnew]
  · rfl

theorem encoderNow_setChan {c : Nat} {x : Channel} {s : State} (hold : (s.chan c).entry.kind ≠ .encoder)
    (hnew : x.entry.kind ≠ .encoder) : (setChan c x s).encoderNow = s.encoderNow :=
  encoderNow_congr (activeOf_setChan hold hnew)

theorem bandNow_setChan {c : Nat} {x : Channel} {s : State} (hold : (s.chan c).entry.kind ≠ .wind)
    (hnew : x.entry.kind ≠ .wind) : (setChan c x s).bandNow = s.bandNow := by
  refine bandNow_congr (activeOf_setChan hold hnew) fun i hi => ?_
  have hne : c ≠ i := fun h => hold (by rw [h]; exact hi.2.2)
  rw [chan_setChan_ne hne]

theorem determineEncoder_of_same {s : State} (h : s.ra.encoder = s.encoderNow) : determineEncoder follow s = s :=
  if_pos h.symm

theorem formBand_of_same {s : State} (h : s.cm.windBand = s.bandNow) : formBand s = s := if_pos h.symm

theorem captureWritten_of_none {c : Nat} {s : State} (h : s.dr.capture = none) : captureWritten c s = s := by
  simp only [captureWritten, h]

theorem bypassed_setChan {c : Nat} {x : Channel} {s : State} (h : x.bypass.isSome = (s.chan c).bypass.isSome) (i : Nat) :
    (setChan c x s).bypassed i = s.bypassed i := by
  rw [State.bypassed, chan_setChan]
  split
  · rename_i hi
    rw [h, State.bypassed, hi.1]
  · rfl

/-! ## REINSTATE (R38) -/

section
variable {s : State} {c b : Nat}

theorem standDown_of_absent (hb : b < 48) (hkept : DemandKept s) (h : ∀ e ∈ s.ls.faults, e.source ≠ .channel b) :
    standDown b s = setChan b { s.chan b with
      entry := { (s.chan b).entry with state := .standby }
      rt := { (s.chan b).rt with condition := .normal, runCount := 0, returnCount := 0, windyCount := 0, stormCount := 0 } }
      s := by
  have hkept' : DemandKept (setEntry b { (s.chan b).entry with state := .standby } s) :=
    demandKept_of_bypassed hkept rfl (bypassed_setChan rfl)
  rw [standDown, goneAll_of_absent hkept' h]
  simp only [setEntry, setRt, chan_setChan_same hb, setChan_setChan]

theorem resetRuntime_of_absent (hkept : DemandKept s) (h : ∀ e ∈ s.ls.faults, e.source ≠ .channel c) :
    resetRuntime follow c s = setRt c ((s.chan c).rt.restart s.now) s := by
  rw [resetRuntime, goneAll_of_absent hkept h]

theorem staleGone_of_not_raised (h : (s.chan c).rt.staleRaised = false) : staleGone follow c s = s :=
  if_neg (by simp [h])

theorem reinstate_of_quiet (hc : c < 48) (hb : b < 48) (hbc : b ≠ c) (hkept : DemandKept s)
    (henc : s.ra.encoder = s.encoderNow) (hband : s.cm.windBand = s.bandNow) (hcap : s.dr.capture = none)
    (hkenc : (s.chan c).entry.kind ≠ .encoder) (hkwind : (s.chan c).entry.kind ≠ .wind)
    (hkind : (s.chan b).entry.kind = (s.chan c).entry.kind) (hstale : (s.chan c).rt.staleRaised = false)
    (hfaults : ∀ e ∈ s.ls.faults, e.source ≠ .channel c ∧ e.source ≠ .channel b) :
    reinstate c b s = setChan c { s.chan c with
        entry := { (s.chan c).entry with state := .active }, rt := (s.chan c).rt.restart s.now }
      (setChan b { s.chan b with
        entry := { (s.chan b).entry with state := .standby }
        rt := { (s.chan b).rt with condition := .normal, runCount := 0, returnCount := 0, windyCount := 0, stormCount := 0 } }
        { s with cm := { s.cm with subst := s.cm.subst.eraseP fun e => e.primary == c } }) := by
  generalize hs1 : ({ s with cm := { s.cm with subst := s.cm.subst.eraseP fun e => e.primary == c } } : State) = s1
  have hchan : ∀ i, s1.chan i = s.chan i := fun i => hs1 ▸ rfl
  have hkept1 : DemandKept s1 := demandKept_of_bypassed hkept (hs1 ▸ rfl) fun i => hs1 ▸ rfl
  have henc1 : s1.ra.encoder = s1.encoderNow := by
    rw [encoderNow_congr (s := s) fun i => by rw [ActiveOf, hchan, ActiveOf], ← henc, ← hs1]
  have hband1 : s1.cm.windBand = s1.bandNow := by
    rw [bandNow_congr (s := s) (fun i => by rw [ActiveOf, hchan, ActiveOf]) fun i _ => by rw [hchan], ← hband, ← hs1]
  have hfaults1 : s1.ls.faults = s.ls.faults := hs1 ▸ rfl
  have hsf : ∀ {src : Nat}, (∀ e ∈ s.ls.faults, e.source ≠ .channel src) → ∀ e ∈ s1.ls.faults, e.source ≠ .channel src :=
    fun h => hfaults1 ▸ h
  -- The standby stands down.
  have hdown := standDown_of_absent hb hkept1 (hsf fun e he => (hfaults e he).2)
  rw [hchan] at hdown
  generalize hB : ({ s.chan b with
    entry := { (s.chan b).entry with state := .standby }
    rt := { (s.chan b).rt with condition := .normal, runCount := 0, returnCount := 0, windyCount := 0, stormCount := 0 } }
    : Channel) = B at hdown ⊢
  have hBkind : B.entry.kind = (s.chan c).entry.kind := hB ▸ hkind
  have hkept2 : DemandKept (setChan b B s1) := demandKept_of_bypassed hkept1 rfl (bypassed_setChan (by rw [hchan, ← hB]))
  have hchanc : (setChan b B s1).chan c = s.chan c := (chan_setChan_ne hbc B s1).trans (hchan c)
  -- The primary is ACTIVE again, its record reset.
  have hkept3 : DemandKept (setEntry c { (s.chan c).entry with state := .active } (setChan b B s1)) :=
    demandKept_of_bypassed hkept2 rfl (bypassed_setChan rfl)
  have hreset : resetRuntime follow c (setEntry c { (s.chan c).entry with state := .active } (setChan b B s1))
      = setChan c { s.chan c with
        entry := { (s.chan c).entry with state := .active }, rt := (s.chan c).rt.restart s.now } (setChan b B s1) := by
    rw [resetRuntime_of_absent hkept3 (hsf fun e he => (hfaults e he).1)]
    simp only [setEntry, setRt, chan_setChan_same hc, setChan_setChan, hchanc]
    rw [← hs1]
    rfl
  generalize hC : ({ s.chan c with
    entry := { (s.chan c).entry with state := .active }, rt := (s.chan c).rt.restart s.now } : Channel) = C at hreset ⊢
  have hCkind : C.entry.kind = (s.chan c).entry.kind := hC ▸ rfl
  have hCstale : C.rt.staleRaised = false := hC ▸ hstale
  have hkinds : ∀ k, (s.chan c).entry.kind ≠ k →
      ((setChan b B s1).chan c).entry.kind ≠ k ∧ C.entry.kind ≠ k ∧ (s1.chan b).entry.kind ≠ k ∧ B.entry.kind ≠ k := by
    intro k hk
    rw [hchanc, hCkind, hchan, hkind, hBkind]
    exact ⟨hk, hk, hk, hk⟩
  obtain ⟨he1, he2, he3, he4⟩ := hkinds _ hkenc
  obtain ⟨hw1, hw2, hw3, hw4⟩ := hkinds _ hkwind
  rw [reinstate]
  simp only [hs1, hdown, hchanc, hreset]
  rw [staleGone_of_not_raised (by rw [chan_setChan_same hc, hCstale]),
    determineEncoder_of_same (by rw [encoderNow_setChan he1 he2, encoderNow_setChan he3 he4]; exact henc1),
    formBand_of_same (by rw [bandNow_setChan hw1 hw2, bandNow_setChan hw3 hw4]; exact hband1),
    captureWritten_of_none (c := c) (by rw [← hs1]; exact hcap), captureWritten_of_none (by rw [← hs1]; exact hcap)]

end

/-! ## BYPASS (R39) -/

section
variable {c m : Nat} {s : State}

/-- R39: the bypass that an accepted BYPASS starts. -/
def bypassStarted (c m : Nat) (s : State) : State :=
  setChan c { s.chan c with
    bypass := some { minutes := if m = 0 then s.params.bypassDefault else m, minuteEnd := s.now + 60000 } } s

theorem judgeBypass_of_unused {p : List Byte} (hc : u8 p 1 = c) (h : (s.chan c).entry.state = .unused) :
    judgeBypass p s = (.refused .range [], s) := by
  simp only [judgeBypass, hc, h, if_true]

theorem judgeBypass_of_barred {p : List Byte} (hc : u8 p 1 = c) (hu : (s.chan c).entry.state ≠ .unused)
    (h : (s.ls.line ≠ .stopped ∧ s.ls.line ≠ .slowed) ∨ (s.chan c).entry.cls = .trip ∨ (s.chan c).entry.kind = .encoder) :
    judgeBypass p s = (.refused .state [], s) := by
  simp only [judgeBypass, hc, if_neg hu]
  rcases h with ⟨h1, h2⟩ | h
  · rw [if_pos fun h => h.elim h1 h2]
  · rw [if_pos h, ite_self]

theorem judgeBypass_of_free {p : List Byte} (hc : u8 p 1 = c) (hm : u8 p 2 = m) (hu : (s.chan c).entry.state ≠ .unused)
    (hl : s.ls.line = .stopped ∨ s.ls.line = .slowed) (ht : (s.chan c).entry.cls ≠ .trip)
    (hk : (s.chan c).entry.kind ≠ .encoder) : judgeBypass p s = (.done [], if (s.chan c).bypass.isSome then
      bypassStarted c m s else raise (bypassFault c) (bypassStarted c m s)) := by
  simp only [judgeBypass, hc, hm, if_neg hu, if_neg (not_not.2 hl), if_neg (fun h => Or.elim h ht hk)]
  rfl

theorem judgeReinstate_of_none {p : List Byte} (hc : u8 p 1 = c) (h : ∀ e ∈ s.cm.subst, e.primary ≠ c) :
    judgeReinstate p s = (.refused .range [], s) := by
  have hfind : s.cm.subst.find? (fun e => e.primary == c) = none :=
    List.find?_eq_none.2 fun e he => by simpa using h e he
  simp only [judgeReinstate, hc, hfind]

theorem judgeReinstate_of_moving {p : List Byte} (hc : u8 p 1 = c) (h : ∃ e ∈ s.cm.subst, e.primary = c)
    (hl : s.ls.line ≠ .stopped) : judgeReinstate p s = (.refused .state [], s) := by
  obtain ⟨e, he⟩ : ∃ e, s.cm.subst.find? (fun e => e.primary == c) = some e := by
    rw [← Option.isSome_iff_exists, List.find?_isSome]
    simpa using h
  simp only [judgeReinstate, hc, he, if_pos hl]

theorem judgeReinstate_of_found {p : List Byte} {e : SubstEntry} {before after : List SubstEntry} (hc : u8 p 1 = c)
    (h : s.cm.subst = before ++ e :: after) (he : e.primary = c) (hb : ∀ x ∈ before, x.primary ≠ c)
    (hl : s.ls.line = .stopped) : judgeReinstate p s = (.done [], reinstate c e.standby s) := by
  have hfind : s.cm.subst.find? (fun e => e.primary == c) = some e := by
    rw [h, List.find?_append, List.find?_eq_none.2 fun x hx => by simpa using hb x hx]
    simp [he]
  simp only [judgeReinstate, hc, hfind, if_neg (not_not.2 hl)]

end

/-- Settles O54. -/
theorem bypassAndReinstateJudged : Obligations.BypassAndReinstateJudged := by
  intro c m r rest s hc hm hkey k ch started
  have hu1 : ∀ bs, u8 (0x0F :: BitVec.ofNat 8 c :: bs) 1 = c := fun bs => u8_ofNat_of_lt (by omega) bs
  refine ⟨fun h => ?_, fun h => ?_⟩
  · have hu2 : u8 [0x0F, BitVec.ofNat 8 c, BitVec.ofNat 8 m] 2 = m := u8_ofNat_of_lt (by omega) []
    have hfits : fitsBypass [0x0F, BitVec.ofNat 8 c, BitVec.ofNat 8 m] = true :=
      decide_eq_true ⟨rfl, by rw [hu1]; exact hc, by rw [hu2]; exact hm⟩
    have hrun : ∀ {a t}, judgeBypass [0x0F, BitVec.ofNat 8 c, BitVec.ofNat 8 m] k = (a, t) →
        exec .bypass s = .next (replied r (0x0F :: a.bytes) t) := fun hj => event_keyed h rfl hfits hkey hj
    refine ⟨fun hu => ?_, fun hu hbad => ?_, fun hu hl ht hk => ⟨fun hby => ?_, fun hby hset => ?_⟩⟩
    · exact hrun (judgeBypass_of_unused (s := k) (hu1 _) hu)
    · exact hrun (judgeBypass_of_barred (s := k) (hu1 _) hu hbad)
    · refine hrun (a := .done []) ((judgeBypass_of_free (s := k) (hu1 _) hu2 hu hl ht hk).trans ?_)
      rw [if_pos (show (k.chan c).bypass.isSome = true from hby)]
      rfl
    · refine ⟨_, hrun (a := .done []) ((judgeBypass_of_free (s := k) (hu1 _) hu2 hu hl ht hk).trans ?_),
        raise_raised _ (settled_of_eq hset rfl rfl rfl)⟩
      rw [if_neg (by rw [show (k.chan c).bypass = none from hby]; simp)]
      rfl
  · have hu : u8 [0x10, BitVec.ofNat 8 c] 1 = c := u8_ofNat_of_lt (by omega) []
    have hfits : fitsReinstate [0x10, BitVec.ofNat 8 c] = true :=
      decide_eq_true ⟨rfl, by rw [hu]; exact hc⟩
    refine ⟨fun hnone => ?_, fun hsome hl => ?_, ?_⟩
    · exact event_keyed h rfl hfits hkey (judgeReinstate_of_none (s := k) hu hnone)
    · exact event_keyed h rfl hfits hkey (judgeReinstate_of_moving (s := k) hu hsome hl)
    · intro e before after hsub he hb hl hstandby hne hkept henc hband hcap hkenc hkwind hkind hstale hfaults b
      have hkept' : DemandKept k := hkept.of_eq rfl rfl
      have hquiet := reinstate_of_quiet (s := k) (c := c) (b := e.standby) (by omega) (by omega) hne hkept' henc hband hcap
        hkenc hkwind hkind hstale hfaults
      have herase : k.cm.subst.eraseP (fun x => x.primary == c) = before ++ after := by
        rw [show k.cm.subst = before ++ e :: after from hsub,
          List.eraseP_append_right _ fun x hx => by simpa using hb x hx, List.eraseP_cons_of_pos (by simp [he])]
      rw [herase] at hquiet
      exact event_keyed h rfl hfits hkey ((judgeReinstate_of_found (s := k) hu hsub he hb hl).trans
        (congrArg (Prod.mk (Answer.done [])) hquiet))

end Sys2Proof.Machine
end

section
/-! SUPPORT. The desk's cabin requests (R85 to R90). -/

namespace Sys2Proof.Machine

open Sys2Proof.Safety

/-! ## A record of the queue by name -/

theorem find?_of_split {α : Type} {p : α → Bool} {before after : List α} {c : α} (hb : ∀ x ∈ before, p x = false)
    (hc : p c = true) : (before ++ c :: after).find? p = some c := by
  rw [List.find?_append, List.find?_eq_none.2 fun x hx => by simp [hb x hx], List.find?_cons_of_pos hc]
  rfl

theorem eraseP_of_split {α : Type} {p : α → Bool} {before after : List α} {c : α} (hb : ∀ x ∈ before, p x = false)
    (hc : p c = true) : (before ++ c :: after).eraseP p = before ++ after := by
  rw [List.eraseP_append_right _ fun x hx => by simp [hb x hx], List.eraseP_cons_of_pos hc]

theorem modifyFirst_of_split {α : Type} {p : α → Bool} {f : α → α} {before after : List α} {c : α}
    (hb : ∀ x ∈ before, p x = false) (hc : p c = true) :
    modifyFirst p f (before ++ c :: after) = before ++ f c :: after := by
  induction before with
  | nil => simp [modifyFirst, hc]
  | cons x xs ih =>
    rw [List.cons_append, modifyFirst, hb x List.mem_cons_self]
    simp only [Bool.false_eq_true, if_false, List.cons_append]
    rw [ih fun y hy => hb y (List.mem_cons_of_mem _ hy)]

section
variable {id : Nat} {s : State}

theorem badId_of_registered (h1 : 1 ≤ id) (h2 : id ≤ 999) (h : s.registered id = true) : badId id s = false := by
  simp [badId, h]
  omega

theorem badId_of_not_registered (h : s.registered id = false) : badId id s = true := by
  simp [badId, h]

/-- R69: a registered cabin has a location. -/
theorem registered_iff : s.registered id = true ↔ ∃ loc, s.location id = some loc := Option.isSome_iff_exists

/-! ## INSERT (R86) -/

theorem requestInsert_of_range (h : s.registered id = false) : requestInsert id s = .error .range := by
  rw [requestInsert, badId_of_not_registered h]
  rfl

theorem requestInsert_of_state (h1 : 1 ≤ id) (h2 : id ≤ 999) (h : s.registered id = true)
    (hbad : ¬ (s.ls.line = .stopped ∨ s.ls.line = .slowed)
      ∨ (s.location id ≠ some .garage ∧ s.location id ≠ some .unplaced) ∨ 24 ≤ s.ct.queue.length) :
    requestInsert id s = .error .state := by
  rw [requestInsert, badId_of_registered h1 h2 h]
  simp only [Bool.false_eq_true, if_false]
  rcases hbad with h | h | h
  · rw [if_pos h]
  · rw [if_pos (c := _ ∨ _) (.inl fun hl => hl.elim h.1 h.2), ite_self]
  · rw [if_pos (show _ ∨ Config.queueCap ≤ _ from .inr h), ite_self]

theorem requestInsert_of_room (h1 : 1 ≤ id) (h2 : id ≤ 999) (h : s.registered id = true)
    (hl : s.ls.line = .stopped ∨ s.ls.line = .slowed) (hloc : s.location id = some .garage ∨ s.location id = some .unplaced)
    (hroom : s.ct.queue.length < 24) :
    requestInsert id s = .ok (evalRelease (setFlag .cabinEntry (joinTerminal id false s))) := by
  rw [requestInsert, badId_of_registered h1 h2 h]
  simp only [Bool.false_eq_true, if_false]
  rw [if_neg (not_not.2 hl), if_neg]
  rintro (hn | hn)
  · exact hn hloc
  · exact absurd hroom (Nat.not_lt.2 hn)

/-! ## WITHDRAW (R87) -/

theorem withdrawNames_of_registered (h1 : 1 ≤ id) (h : s.registered id = true) :
    withdrawNames id s = fun c => c.id == id := by
  funext c
  rw [withdrawNames, if_neg (by omega), if_pos h]

theorem requestWithdraw_of_none (h1 : 1 ≤ id) (h2 : id ≤ 999) (h : s.registered id = true)
    (hn : ∀ c ∈ s.ct.queue, c.id ≠ id) : requestWithdraw id s = .error .state := by
  have hfind : s.ct.queue.find? (fun c => c.id == id) = none :=
    List.find?_eq_none.2 fun c hc => by simpa using hn c hc
  rw [requestWithdraw, if_neg (by omega), withdrawNames_of_registered h1 h, hfind]
  exact if_pos h

variable {c : Cabin} {before after : List Cabin}

theorem requestWithdraw_of_moving (h1 : 1 ≤ id) (h2 : id ≤ 999) (h : s.registered id = true)
    (hq : s.ct.queue = before ++ c :: after) (hc : c.id = id) (hb : ∀ x ∈ before, x.id ≠ id)
    (hl : ¬ (s.ls.line = .stopped ∨ s.ls.line = .slowed)) : requestWithdraw id s = .error .state := by
  have hfind : (before ++ c :: after).find? (fun x => x.id == id) = some c :=
    find?_of_split (fun x hx => by simpa using hb x hx) (by simp [hc])
  rw [requestWithdraw, if_neg (by omega), withdrawNames_of_registered h1 h, hq, hfind]
  exact if_pos hl

theorem recordGone_of_quiet (hset : Settled s) (hg : c.grip ≠ .fail) : recordGone c s = s := by
  simp only [recordGone, if_neg hg]
  exact if_neg (by rw [hset.waiting]; simp)

theorem requestWithdraw_of_found (h1 : 1 ≤ id) (h2 : id ≤ 999) (h : s.registered id = true)
    (hq : s.ct.queue = before ++ c :: after) (hc : c.id = id) (hb : ∀ x ∈ before, x.id ≠ id)
    (hl : s.ls.line = .stopped ∨ s.ls.line = .slowed) (hi : c.identity = .registered) (hz : s.isBerth c.zone = false)
    (hg : c.grip ≠ .fail) (hset : Settled s) : requestWithdraw id s = .ok (updateRelease
      (setLocation id .garage { s with ct := { s.ct with queue := before ++ after } })) := by
  have hbf : ∀ x ∈ before, (x.id == id) = false := fun x hx => by simpa using hb x hx
  have hmove : withdrawMove id c s = setLocation id .garage { s with ct := { s.ct with queue := before ++ after } } := by
    rw [withdrawMove, withdrawNames_of_registered h1 h, hq, eraseP_of_split hbf (by simp [hc]), if_pos hi, hc]
    rfl
  have hset' : Settled (withdrawMove id c s) := hmove ▸ ⟨hset.deferred, hset.waiting, hset.launched, hset.room⟩
  have hz' : (withdrawMove id c s).isBerth c.zone = false := by
    rw [hmove]
    exact hz
  have hfind : (before ++ c :: after).find? (fun x => x.id == id) = some c := find?_of_split hbf (by simp [hc])
  rw [requestWithdraw, if_neg (by omega), withdrawNames_of_registered h1 h, hq, hfind]
  simp only [if_neg (not_not.2 hl), hz, Bool.false_eq_true, false_and, if_false, recordGone_of_quiet hset' hg, hz']
  rw [evalRelease_settled hset', hmove]

/-! ## ASSIGN (R88) -/

theorem requestAssign_of_none (h1 : 1 ≤ id) (h2 : id ≤ 999) (h : s.registered id = true)
    (hn : ∀ c ∈ s.ct.queue, c.identity ≠ .anonymous) : requestAssign id s = .error .state := by
  have hfind : s.ct.queue.find? isAnonymous = none :=
    List.find?_eq_none.2 fun c hc => by simpa [isAnonymous] using hn c hc
  rw [requestAssign, badId_of_registered h1 h2 h, hfind]
  rfl

theorem requestAssign_of_elsewhere (h1 : 1 ≤ id) (h2 : id ≤ 999) (h : s.registered id = true)
    (hu : s.location id ≠ some .unplaced) (hd : s.location id ≠ some .downhill) : requestAssign id s = .error .state := by
  rw [requestAssign, badId_of_registered h1 h2 h]
  simp only [Bool.false_eq_true, if_false]
  split
  · rfl
  · exact if_pos fun hl => hl.elim hu hd

theorem requestAssign_of_found (h1 : 1 ≤ id) (h2 : id ≤ 999) (h : s.registered id = true)
    (hq : s.ct.queue = before ++ c :: after) (hc : c.identity = .anonymous) (hb : ∀ x ∈ before, x.identity ≠ .anonymous)
    (hl : s.location id = some .unplaced ∨ s.location id = some .downhill) (hg : c.grip ≠ .fail) (hset : Settled s) :
    requestAssign id s = .ok (updateRelease (setLocation id .terminal { s with ct := { s.ct with
      queue := before ++ { c with id := id, identity := .registered } :: after
      downhill := s.ct.downhill.filter fun e => e.id ≠ id } })) := by
  have hbf : ∀ x ∈ before, isAnonymous x = false := fun x hx => by simpa [isAnonymous] using hb x hx
  have hca : isAnonymous c = true := by simp [isAnonymous, hc]
  have hdown : (s.ct.downhill.filter fun e => e.id != id) = s.ct.downhill.filter fun e => e.id ≠ id :=
    List.filter_congr fun e _ => by by_cases he : e.id = id <;> simp [he]
  have hmove : assignMove id s = setLocation id .terminal { s with ct := { s.ct with
      queue := before ++ { c with id := id, identity := .registered } :: after
      downhill := s.ct.downhill.filter fun e => e.id ≠ id } } := by
    rw [assignMove, hq, modifyFirst_of_split hbf hca, hdown]
  have hset' : Settled (assignMove id s) := hmove ▸ ⟨hset.deferred, hset.waiting, hset.launched, hset.room⟩
  rw [requestAssign, badId_of_registered h1 h2 h, hq, find?_of_split hbf hca]
  simp only [Bool.false_eq_true, if_false, if_neg (not_not.2 hl), if_neg hg]
  rw [evalRelease_settled hset', hmove]

/-! ## RETEST (R90) -/

theorem requestRetest_of_none (hn : ∀ c ∈ s.ct.queue, c.id ≠ id) : requestRetest id s = .error .range := by
  have hfind : s.ct.queue.find? (fun c => c.id == id) = none :=
    List.find?_eq_none.2 fun c hc => by simpa using hn c hc
  rw [requestRetest, hfind]
  exact ite_self _

theorem requestRetest_of_other (h1 : 1 ≤ id) (h2 : id ≤ 999) (hq : s.ct.queue = before ++ c :: after) (hc : c.id = id)
    (hb : ∀ x ∈ before, x.id ≠ id) (h : c.zone ≠ s.launchZone ∨ c.grip ≠ .fail) :
    requestRetest id s = .error .state := by
  have hfind : (before ++ c :: after).find? (fun x => x.id == id) = some c :=
    find?_of_split (fun x hx => by simpa using hb x hx) (by simp [hc])
  rw [requestRetest, if_neg (by omega), hq, hfind]
  exact if_pos h

/-- The named record's grip stands at NONE. -/
def retested (before after : List Cabin) (c : Cabin) (s : State) : State :=
  { s with ct := { s.ct with queue := before ++ { c with grip := .none, force := none } :: after } }

theorem requestRetest_of_failed (h1 : 1 ≤ id) (h2 : id ≤ 999) (hq : s.ct.queue = before ++ c :: after) (hc : c.id = id)
    (hb : ∀ x ∈ before, x.id ≠ id) (ha : ∀ x ∈ after, x.id ≠ id) (hz : c.zone = s.launchZone) (hg : c.grip = .fail) (hset : Settled s) :
    ∃ t, requestRetest id s = .ok (updateRelease t)
      ∧ Withdrawn (.cabin id) .gripFail (retested before after c s) t := by
  have hbf : ∀ x ∈ before, (x.id == id) = false := fun x hx => by simpa using hb x hx
  have hfind : (before ++ c :: after).find? (fun x => x.id == id) = some c := find?_of_split hbf (by simp [hc])
  have hmark : retestMark id s = retested before after c s := by
    rw [retestMark, hq, modifyFirst_of_split hbf (by simp [hc])]
    rfl
  have hset' : Settled (retested before after c s) := ⟨hset.deferred, hset.waiting, hset.launched, hset.room⟩
  have hw : Withdrawn (.cabin id) .gripFail (retested before after c s) (gripGone id (retested before after c s)) := by
    rw [gripGone, if_neg]
    · exact gone_withdrawn _ _ hset'
    · have hq' : (∀ x ∈ before, x.id = id → ¬ x.grip = .fail) ∧ ∀ x ∈ after, x.id = id → ¬ x.grip = .fail :=
        ⟨fun x hx h => absurd h (hb x hx), fun x hx h => absurd h (ha x hx)⟩
      simpa [retested] using hq'
  refine ⟨_, ?_, hw⟩
  rw [requestRetest, if_neg (by omega), hq, hfind]
  simp only [if_neg (show ¬ (c.zone ≠ s.launchZone ∨ c.grip ≠ .fail) from not_or.2 ⟨not_not.2 hz, not_not.2 hg⟩), hmark]
  rw [evalRelease_settled (hset'.after hw.frame)]

/-! ## PLACE (R89) -/

variable {loc : Location} {offset : Nat}

theorem requestPlace_of_range (h : s.registered id = false ∨ loc = .terminal ∨ loc = .unplaced
    ∨ s.params.loopLen ≤ offset) : requestPlace id loc offset s = .error .range :=
  if_pos (h.imp_left badId_of_not_registered)

theorem requestPlace_of_named (h1 : 1 ≤ id) (h2 : id ≤ 999) (h : s.registered id = true) (ht : loc ≠ .terminal)
    (hu : loc ≠ .unplaced) (ho : offset < s.params.loopLen) : requestPlace id loc offset s =
      if s.ls.line ≠ .stopped ∨ s.location id ≠ some .unplaced ∨ listFull loc s then .error .state
      else .ok (evalRelease (placeMove id loc offset s)) := by
  refine if_neg ?_
  rintro (hn | hn | hn | hn)
  · rw [badId_of_registered h1 h2 h] at hn
    exact Bool.noConfusion hn
  · exact ht hn
  · exact hu hn
  · omega

theorem requestPlace_of_state (h1 : 1 ≤ id) (h2 : id ≤ 999) (h : s.registered id = true) (ht : loc ≠ .terminal)
    (hu : loc ≠ .unplaced) (ho : offset < s.params.loopLen) (hbad : s.ls.line ≠ .stopped
      ∨ s.location id ≠ some .unplaced ∨ (loc = .uphill ∧ 64 ≤ s.ct.uphill.length)
      ∨ (loc = .downhill ∧ 64 ≤ s.ct.downhill.length)) : requestPlace id loc offset s = .error .state := by
  rw [requestPlace_of_named h1 h2 h ht hu ho]
  refine if_pos (hbad.imp_right fun hb => hb.imp_right ?_)
  rintro (⟨rfl, hn⟩ | ⟨rfl, hn⟩) <;> exact decide_eq_true hn

theorem requestPlace_of_room (h1 : 1 ≤ id) (h2 : id ≤ 999) (h : s.registered id = true) (ht : loc ≠ .terminal)
    (hu : loc ≠ .unplaced) (ho : offset < s.params.loopLen) (hl : s.ls.line = .stopped)
    (hloc : s.location id = some .unplaced) (hroom : listFull loc s = false) (hset : Settled s) :
    requestPlace id loc offset s = .ok (updateRelease (placeMove id loc offset s)) := by
  rw [requestPlace_of_named h1 h2 h ht hu ho, if_neg (by simp [hl, hloc, hroom])]
  have hset' : Settled (placeMove id loc offset s) := by
    cases loc <;> exact ⟨hset.deferred, hset.waiting, hset.launched, hset.room⟩
  rw [evalRelease_settled hset']

/-- R89: with the offset on the loop, the place lies the offset behind P. -/
theorem offsetPos_eq (ho : offset < s.params.loopLen) :
    offsetPos offset s = (s.ra.p + s.params.loopLen - offset) % s.params.loopLen := by
  have hshift : ((s.ra.p : Int) - offset) % s.params.loopLen
      = ((s.ra.p + s.params.loopLen - offset : Nat) : Int) % s.params.loopLen := by
    rw [Nat.cast_sub (by omega), Nat.cast_add, add_sub_right_comm, Int.add_emod_right]
  rw [offsetPos, hshift, ← Int.natCast_mod, Int.toNat_natCast]

end

/-- The fields of a CABIN request other than a PLACE, as R209 lays them out. -/
theorem fitsCabin_and_id (op : Byte) (hop : op.toNat ≤ 3) {id : Nat} (h : id ≤ 999) :
    fitsCabin ([0x07, op] ++ enc2 id) = true ∧ u16 ([0x07, op] ++ enc2 id) 2 = id :=
  ⟨decide_eq_true ⟨rfl, hop⟩, u16_ofNat_of_lt (by omega) []⟩

/-- Settles O59. -/
theorem cabinRequestsMoveTheFleet : Obligations.CabinRequestsMoveTheFleet := by
  intro id r rest s h1 h2 hset k working
  have hset' : Settled k := settled_of_eq hset rfl rfl rfl
  refine ⟨fun h => ?_, fun h hreg => ?_, fun h hreg => ?_⟩
  · obtain ⟨hfits, hid⟩ := fitsCabin_and_id 0 (by decide) h2
    have hrun : ∀ {res}, requestInsert id k = res → exec .cabinInsert s
        = .next (replied r (0x07 :: (doneOr res k).1.bytes) (doneOr res k).2) := fun hj =>
      event_plain_of_fits (judge := fun p t => doneOr (requestInsert (u16 p 2) t) t) h rfl hfits
        (congrArg (fun n => doneOr (requestInsert n k) k) hid |>.trans (congrArg (doneOr · k) hj))
    refine ⟨fun hreg => ?_, fun hreg hbad => ?_, fun hreg hl hloc hroom => ?_⟩
    · exact (hrun (requestInsert_of_range (s := k) hreg)).trans rfl
    · exact (hrun (requestInsert_of_state (s := k) h1 h2 hreg hbad)).trans rfl
    · refine (hrun (requestInsert_of_room (s := k) h1 h2 hreg hl hloc hroom)).trans ?_
      rw [evalRelease_settled (Settled.after (s := joinTerminal id false k)
        ⟨hset.deferred, hset.waiting, hset.launched, hset.room⟩ (setFlag_lineOnly _ _))]
      rfl
  · obtain ⟨hfits, hid⟩ := fitsCabin_and_id 1 (by decide) h2
    have hrun : ∀ {res}, requestWithdraw id k = res → exec .cabinWithdraw s
        = .next (replied r (0x07 :: (doneOr res k).1.bytes) (doneOr res k).2) := fun hj =>
      event_plain_of_fits (judge := fun p t => doneOr (requestWithdraw (u16 p 2) t) t) h rfl hfits
        (congrArg (fun n => doneOr (requestWithdraw n k) k) hid |>.trans (congrArg (doneOr · k) hj))
    refine ⟨fun hn => ?_, fun c before after hq hc hb => ⟨fun hl => ?_, fun hl hi hz hg => ?_⟩⟩
    · exact (hrun (requestWithdraw_of_none (s := k) h1 h2 hreg hn)).trans rfl
    · exact (hrun (requestWithdraw_of_moving (s := k) h1 h2 hreg hq hc hb hl)).trans rfl
    · exact (hrun (requestWithdraw_of_found (s := k) h1 h2 hreg hq hc hb hl hi hz hg hset')).trans rfl
  · obtain ⟨hfits, hid⟩ := fitsCabin_and_id 2 (by decide) h2
    have hrun : ∀ {res}, requestAssign id k = res → exec .cabinAssign s
        = .next (replied r (0x07 :: (doneOr res k).1.bytes) (doneOr res k).2) := fun hj =>
      event_plain_of_fits (judge := fun p t => doneOr (requestAssign (u16 p 2) t) t) h rfl hfits
        (congrArg (fun n => doneOr (requestAssign n k) k) hid |>.trans (congrArg (doneOr · k) hj))
    refine ⟨fun hn => ?_, fun c before after hq hc hb => ⟨fun hu hd => ?_, fun hloc hg => ?_⟩⟩
    · exact (hrun (requestAssign_of_none (s := k) h1 h2 hreg hn)).trans rfl
    · exact (hrun (requestAssign_of_elsewhere (s := k) h1 h2 hreg hu hd)).trans rfl
    · exact (hrun (requestAssign_of_found (s := k) h1 h2 hreg hq hc hb hloc hg hset')).trans rfl

/-- Settles O60. -/
theorem cabinPlacedAndRetested : Obligations.CabinPlacedAndRetested := by
  intro id r rest s h1 h2 hset k
  have hset' : Settled k := settled_of_eq hset rfl rfl rfl
  refine ⟨fun loc offset ho h => ?_, fun h => ?_⟩
  · have hid : u16 (0x07 :: 4 :: (enc2 id ++ enc1 loc.code ++ enc4 offset)) 2 = id :=
      u16_ofNat_of_lt (by omega) (enc1 loc.code ++ enc4 offset)
    have hcode : loc.code < 256 := by cases loc <;> decide
    have hloc : u8 (0x07 :: 4 :: (enc2 id ++ enc1 loc.code ++ enc4 offset)) 4 = loc.code :=
      u8_ofNat_of_lt hcode (enc4 offset)
    have hoff : u32 (0x07 :: 4 :: (enc2 id ++ enc1 loc.code ++ enc4 offset)) 5 = offset := u32_ofNat_of_lt ho []
    have hofCode : Location.ofCode loc.code = some loc := by cases loc <;> rfl
    have hfits : fitsPlace (0x07 :: 4 :: (enc2 id ++ enc1 loc.code ++ enc4 offset)) = true :=
      decide_eq_true ⟨rfl, rfl, by rw [hloc]; cases loc <;> decide⟩
    have hrun : ∀ {res}, requestPlace id loc offset k = res → exec .cabinPlace s
        = .next (replied r (0x07 :: (doneOr res k).1.bytes) (doneOr res k).2) := fun hj =>
      event_plain_of_fits (operands := 4 :: (enc2 id ++ enc1 loc.code ++ enc4 offset)) h rfl hfits
        (by rw [judgePlace, hloc, hofCode, hid, hoff, ← hj])
    refine ⟨fun hbad => ?_, fun hreg ht hu hlt => ⟨fun hbad => ?_, ?_⟩⟩
    · exact (hrun (requestPlace_of_range (s := k) hbad)).trans rfl
    · exact (hrun (requestPlace_of_state (s := k) h1 h2 hreg ht hu hlt hbad)).trans rfl
    · intro hl hun _ pos
      have hpos : offsetPos offset k = pos := offsetPos_eq (s := k) hlt
      have hroom : listFull loc k = false → exec .cabinPlace s
          = .next (replied r [0x07, 0, 0] (updateRelease (placeMove id loc offset k))) := fun hfull =>
        (hrun (requestPlace_of_room (s := k) h1 h2 hreg ht hu hlt hl hun hfull hset')).trans rfl
      refine ⟨fun hup hlen => ?_, fun hdown hlen => ?_, fun hother => ?_⟩
      · subst hup
        rw [hroom (decide_eq_false (Nat.not_le.2 hlen)), placeMove, hpos]
        rfl
      · subst hdown
        rw [hroom (decide_eq_false (Nat.not_le.2 hlen)), placeMove, hpos]
        rfl
      · rcases hother with rfl | rfl <;> exact hroom rfl
  · obtain ⟨hfits, hid⟩ := fitsCabin_and_id 3 (by decide) h2
    have hrun : ∀ {res}, requestRetest id k = res → exec .cabinRetest s
        = .next (replied r (0x07 :: (doneOr res k).1.bytes) (doneOr res k).2) := fun hj =>
      event_plain_of_fits (judge := fun p t => doneOr (requestRetest (u16 p 2) t) t) h rfl hfits
        (congrArg (fun n => doneOr (requestRetest n k) k) hid |>.trans (congrArg (doneOr · k) hj))
    refine ⟨fun hn => ?_, fun c before after hq hc hb ha => ⟨fun hbad => ?_, fun hz hg => ?_⟩⟩
    · exact (hrun (requestRetest_of_none (s := k) hn)).trans rfl
    · exact (hrun (requestRetest_of_other (s := k) h1 h2 hq hc hb hbad)).trans rfl
    · obtain ⟨t, ht, hw⟩ := requestRetest_of_failed (s := k) h1 h2 hq hc hb ha hz hg hset'
      exact ⟨t, (hrun ht).trans rfl, hw⟩

end Sys2Proof.Machine
end

section
/-! SUPPORT. The desk's writes of the berths', the fleet's and the phones' tables (R94, R70, R150). -/

namespace Sys2Proof.Machine

open Sys2Proof.Safety

section
variable {r : Request} {rest : List Request} {s : State} {bs : List Byte}

/-- R185: a WRITE_ENTRY with its table's entry length is judged by the table's owner. -/
theorem event_write {op : Byte} {i : Nat} {judge : List Byte → State → Answer × State} {a : Answer} {t : State}
    (h : Asked r rest ([0x03, op] ++ enc2 i ++ bs) s) (hlen : entryLength op.toNat = some bs.length)
    (hjudge : judge ([0x03, op] ++ enc2 i ++ bs) (keyless (taken rest s)) = (a, t)) :
    event (takeRequest (hasSub 0x03 1 5 op.toNat) fitsWrite (plain judge)) s = .next (replied r (0x03 :: a.bytes) t) := by
  have hfits : fitsWrite (0x03 :: op :: (enc2 i ++ bs)) = true := by
    have hl : (0x03 :: op :: (enc2 i ++ bs)).length = bs.length + 4 := rfl
    rw [fitsWrite, hl, show u8 (0x03 :: op :: (enc2 i ++ bs)) 1 = op.toNat from rfl, hlen]
    simp
  exact event_plain_of_fits (operands := op :: (enc2 i ++ bs)) h
    (show (_ && (_ || op.toNat == op.toNat)) = true by simp [hasCode, u8]) hfits hjudge

/-- R185: the index and the contents of a write. -/
theorem write_fields (op : Byte) {i : Nat} (hi : i < 65536) :
    u16 ([0x03, op] ++ enc2 i ++ bs) 2 = i ∧ ([0x03, op] ++ enc2 i ++ bs).drop 4 = bs :=
  ⟨u16_ofNat_of_lt hi bs, rfl⟩

/-! ## Berths (R94) -/

section
variable {j : Nat} {e : BerthEntry}

/-- R94: the door node is another berth's. -/
def DoorNodeUsed (j : Nat) (e : BerthEntry) (s : State) : Prop :=
  e.doorNode ≠ 0 ∧ ∃ i, s.isBerth i = true ∧ i ≠ j ∧ (s.berth i).entry.doorNode = e.doorNode

theorem doorNodeUsed_iff : DoorNodeUsed j e s ↔ e.doorNode ≠ 0
    ∧ (s.berthList.any fun i => i != j && (s.berth i).entry.doorNode == e.doorNode) = true := by
  simp only [DoorNodeUsed, List.any_eq_true, mem_berthList, Bool.and_eq_true, bne_iff_ne, ne_eq, beq_iff_eq]

theorem validBerth_of_range (he : BerthEntry.ofBytes bs = some e)
    (h : s.isBerth j = false ∨ ¬ BerthAllowed e ∨ DoorNodeUsed j e s) : validBerth false j bs s = .error .range := by
  rw [validBerth, he]
  refine if_pos ?_
  rcases h with h | h | h
  · exact .inl (by simp [h])
  · exact .inr (.inr (.inl (by simpa [berthAllowed_iff] using h)))
  · exact .inr (.inr (.inr (doorNodeUsed_iff.1 h)))

theorem validBerth_of_named (he : BerthEntry.ofBytes bs = some e) (hlen : bs.length = 10) (hj : s.isBerth j = true)
    (ha : BerthAllowed e) (hu : ¬ DoorNodeUsed j e s) : validBerth false j bs s =
      if ((s.berth j).entry.mode ≠ e.mode ∨ (s.berth j).entry.doorNode ≠ e.doorNode)
        ∧ ((false = false ∧ s.ls.line ≠ .stopped) ∨ ¬ ((s.door j).state = .closed ∨ (s.door j).state = .fault))
      then .error .state else .ok e := by
  rw [validBerth, he]
  refine if_neg ?_
  rintro (h | h | h | h)
  · simp [hj] at h
  · exact h hlen
  · simp [(berthAllowed_iff e).1 ha] at h
  · exact hu (doorNodeUsed_iff.2 h)

/-- R94: the door record after a change from OPEN to PASS. -/
def passDoor (j : Nat) (e : BerthEntry) (s : State) : Door :=
  if (s.berth j).entry.mode = .openMode ∧ e.mode = .passMode then
    { s.door j with openDelay := none, waitingOpen := false }
  else s.door j

theorem applyBerth_of_same_node (h : (s.berth j).entry.doorNode = e.doorNode) :
    applyBerth j e s = setBerth j { entry := e, door := passDoor j e s } s := if_neg (not_not.2 h)

theorem applyBerth_of_same (hm : (s.berth j).entry.mode = e.mode) (h : (s.berth j).entry.doorNode = e.doorNode) :
    applyBerth j e s = setBerth j { s.berth j with entry := e } s := by
  rw [applyBerth_of_same_node h, passDoor, if_neg]
  · rfl
  · rintro ⟨ho, hp⟩
    rw [ho, hp] at hm
    exact BerthMode.noConfusion hm

/-- R94: the door record that a new door node finds. -/
def Door.refitted (d : Door) : Door :=
  { d with
    state := .closed, awaiting := true, retryCount := 0, stallCount := 0, heldClose := false, hold := .no
    holdTimer := none, deskMark := none, lastStatus := none }

theorem applyBerth_of_new_node (h : (s.berth j).entry.doorNode ≠ e.doorNode) (hset : Settled s) :
    Withdrawn (.berth j) .doorFault (setBerth j { entry := e, door := (passDoor j e s).refitted } s)
      (applyBerth j e s) := by
  rw [show applyBerth j e s = gone (.berth j) .doorFault
    (setBerth j { entry := e, door := (passDoor j e s).refitted } s) from if_pos h]
  exact gone_withdrawn _ _ ⟨hset.deferred, hset.waiting, hset.launched, hset.room⟩

end

/-! ## Fleet slots (R70) -/

section
variable {slot id : Nat} {x : FleetCabin}

theorem fleetWrite_of_range (h : 160 ≤ slot ∨ 999 < id) : fleetWrite false slot id s = .error .range := if_pos h

theorem fleetWrite_of_empty (hs : slot < 160) (hid : id ≤ 999) (h : s.ct.fleet[slot]?.getD none = none) :
    fleetWrite false slot id s = if id = 0 then .ok s
      else if s.registered id ∨ s.ct.queue.any (fun c => c.id == id) then .error .state
      else .ok (setSlot slot (some { id := id, location := .garage }) s) := by
  rw [fleetWrite, if_neg (by omega), h]
  rfl

theorem fleetWrite_of_taken (hs : slot < 160) (hid : id ≤ 999) (h : s.ct.fleet[slot]?.getD none = some x) :
    fleetWrite false slot id s = if id = x.id then .ok s
      else if id = 0 ∧ (x.location = .garage ∨ x.location = .unplaced) then .ok (setSlot slot none s)
      else .error .state := by
  rw [fleetWrite, if_neg (by omega), h]

end

/-! ## Phones (R150) -/

section
variable {n : Nat} {e : Phone}

/-- R150: the node is another phone's. -/
def PhoneNodeUsed (n : Nat) (e : Phone) (s : State) : Prop :=
  e.node ≠ 0 ∧ ∃ i, i < 8 ∧ i ≠ n ∧ (s.phoneEntry i).node = e.node

theorem phoneNodeUsed_iff : PhoneNodeUsed n e s ↔ e.node ≠ 0
    ∧ ((List.range 8).any fun i => i != n && (s.phoneEntry i).node == e.node) = true := by
  simp only [PhoneNodeUsed, List.any_eq_true, List.mem_range, Bool.and_eq_true, bne_iff_ne, ne_eq, beq_iff_eq]

theorem validPhone_of_range (he : Phone.ofBytes bs = some e) (h : 8 ≤ n ∨ 126 < e.node ∨ PhoneNodeUsed n e s) :
    validPhone n bs s = .error .range := by
  rw [validPhone, he]
  exact if_pos (h.imp_right fun h => .inr (h.imp_right phoneNodeUsed_iff.1))

theorem validPhone_of_named (he : Phone.ofBytes bs = some e) (hlen : bs.length = 3) (hn : n < 8) (hnode : e.node ≤ 126)
    (hu : ¬ PhoneNodeUsed n e s) : validPhone n bs s =
      if s.cs.phone = some n ∨ s.cs.waiting.any (fun w => w.phone == n) then .error .state else .ok e := by
  rw [validPhone, he]
  refine if_neg ?_
  rintro (h | h | h | h)
  · omega
  · exact h hlen
  · omega
  · exact hu (phoneNodeUsed_iff.2 h)

end

end

/-- Settles O50. -/
theorem tableWritesJudged : Obligations.TableWritesJudged := by
  intro r rest bs s k answers
  refine ⟨?_, ?_, ?_⟩
  · intro j e hj hlen he h write o used
    obtain ⟨hi, hbs⟩ := write_fields (bs := bs) 1 hj
    have hrun : ∀ {res}, validBerth false j bs k = res → answers write
        (match res with | .error x => Answer.refused x [] | .ok _ => Answer.done []).bytes
        (match res with | .error _ => k | .ok e => applyBerth j e k) := by
      intro res hres
      refine event_write (judge := writeBerth) h (by rw [hlen]; rfl) ?_
      rw [writeBerth, hi, hbs, hres]
      cases res <;> rfl
    refine ⟨fun hbad => hrun (validBerth_of_range (s := k) he hbad), fun hb ha hu => ?_⟩
    have hnamed := validBerth_of_named (s := k) he hlen hb ha hu
    refine ⟨fun hnew hbad => ?_, fun hm hn => ?_, ?_⟩
    · exact hrun (hnamed.trans (if_pos ⟨hnew, hbad.imp (fun h => ⟨rfl, h⟩) not_or.2⟩))
    · have hwrite := hrun (hnamed.trans (if_neg fun h => h.1.elim (· hm) (· hn)))
      exact hwrite.trans (congrArg _ (congrArg _ (applyBerth_of_same (s := k) hm hn)))
    · intro hl hd d
      have hwrite := hrun (hnamed.trans (if_neg fun h => h.2.elim (fun h => h.2 hl) (· hd)))
      refine ⟨fun _ hn => ?_, fun hn hset => ⟨_, hwrite, ?_⟩⟩
      · exact hwrite.trans (congrArg _ (congrArg _ (applyBerth_of_same_node (s := k) hn)))
      · exact applyBerth_of_new_node (s := k) hn (settled_of_eq hset rfl rfl rfl)
  · intro slot id hslot hid hbs h write fill
    subst hbs
    obtain ⟨hi, hbs⟩ := write_fields (bs := enc2 id) 2 hslot
    have hrun : ∀ {res}, fleetWrite false slot id k = res → answers write (doneOr res k).1.bytes (doneOr res k).2 := by
      intro res hres
      refine event_write (judge := writeFleet) h rfl ?_
      rw [writeFleet, hi, hbs, show u16 (enc2 id) 0 = id from u16_ofNat_of_lt hid [], hres]
    refine ⟨fun hbad => hrun (fleetWrite_of_range hbad), fun hs h9 => ⟨fun hn h0 => ?_, fun x hx hxid => ?_,
      fun hn h0 => ⟨fun hr hq => ?_, fun hbad => ?_⟩, fun x hx hxid => ⟨fun h0 hloc => ?_, fun hbad => ?_⟩⟩⟩
    · exact hrun ((fleetWrite_of_empty (s := k) hs h9 hn).trans (if_pos h0))
    · exact hrun ((fleetWrite_of_taken (s := k) hs h9 hx).trans (if_pos hxid))
    · refine hrun ((fleetWrite_of_empty (s := k) hs h9 hn).trans ((if_neg h0).trans (if_neg ?_)))
      rintro (hreg | hany)
      · exact Bool.noConfusion (hr.symm.trans hreg)
      · obtain ⟨c, hc, hcid⟩ := List.any_eq_true.1 hany
        exact hq c hc (by simpa using hcid)
    · refine hrun ((fleetWrite_of_empty (s := k) hs h9 hn).trans ((if_neg h0).trans (if_pos ?_)))
      exact hbad.imp_right fun ⟨c, hc, hcid⟩ => List.any_eq_true.2 ⟨c, hc, by simp [hcid]⟩
    · exact hrun ((fleetWrite_of_taken (s := k) hs h9 hx).trans ((if_neg hxid).trans (if_pos ⟨h0, hloc⟩)))
    · refine hrun ((fleetWrite_of_taken (s := k) hs h9 hx).trans ((if_neg hxid).trans (if_neg ?_)))
      exact fun h => hbad.elim (· h.1) fun hb => h.2.elim hb.1 hb.2
  · intro n e hn hlen he h write used
    obtain ⟨hi, hbs⟩ := write_fields (bs := bs) 3 hn
    have hrun : ∀ {res}, validPhone n bs k = res → answers write
        (match res with | .error x => Answer.refused x [] | .ok _ => Answer.done []).bytes
        (match res with | .error _ => k | .ok e => applyPhone n e k) := by
      intro res hres
      refine event_write (judge := writePhone) h (by rw [hlen]; rfl) ?_
      rw [writePhone, hi, hbs, hres]
      cases res <;> rfl
    refine ⟨fun hbad => hrun (validPhone_of_range (s := k) he hbad), fun h8 hnode hu => ?_⟩
    have hnamed := validPhone_of_named (s := k) he hlen h8 hnode hu
    refine ⟨fun hbad => hrun (hnamed.trans (if_pos ?_)), fun hp hw => hrun (hnamed.trans (if_neg ?_))⟩
    · exact hbad.imp_right fun ⟨w, hw, hwp⟩ => List.any_eq_true.2 ⟨w, hw, by simp [hwp]⟩
    · rintro (h | h)
      · exact hp h
      · obtain ⟨w, hwm, hwp⟩ := List.any_eq_true.1 h
        exact hw w hwm (by simpa using hwp)

end Sys2Proof.Machine
end

section
/-! SUPPORT. READ_ENTRY: the entries of each table, and as many as fit whole (R184, R209, R210). -/

namespace Sys2Proof.Machine

open Sys2Proof.Safety

/-! ## As many as fit whole -/

/-- R209: of entries of one length as many fit as the room holds whole. -/
theorem fitEntries_of_uniform {len : Nat} (hpos : 0 < len) {es : List (List Byte)} :
    ∀ {room : Nat}, (∀ e ∈ es, e.length = len) → fitEntries room es = es.take (room / len) := by
  induction es with
  | nil => simp [fitEntries]
  | cons e es ih =>
    intro room h
    have he : e.length = len := h e List.mem_cons_self
    by_cases hroom : len ≤ room
    · rw [fitEntries, he, if_pos hroom, ih fun x hx => h x (List.mem_cons_of_mem _ hx), Nat.div_eq_sub_div hpos hroom,
        List.take_succ_cons]
    · rw [fitEntries, he, if_neg hroom, Nat.div_eq_of_lt (Nat.lt_of_not_le hroom), List.take_zero]

/-- A stretch of a list, read entry by entry. -/
theorem take_drop_eq_map {α : Type} {l : List α} {f : Nat → α} {a n : Nat} (h : ∀ i, i < l.length → l[i]? = some (f i))
    (hn : a + n ≤ l.length) : (l.drop a).take n = (List.range n).map fun i => f (a + i) := by
  refine List.ext_getElem? fun i => ?_
  by_cases hi : i < n
  · rw [List.getElem?_take_of_lt hi, List.getElem?_drop, h _ (by omega), List.getElem?_map, List.getElem?_range hi]
    rfl
  · rw [List.getElem?_eq_none (by simp; omega), List.getElem?_eq_none (by simp; omega)]

section
variable {p : List Byte} {s : State} {base len : Nat} {l : List (List Byte)}

theorem judgeRead_of_beyond (ht : tableEntries (u8 p 1) s = some (base, l)) (h : u16 p 2 < base ∨ base + l.length ≤ u16 p 2) :
    judgeRead p s = (.refused .range [], s) := by
  simp only [judgeRead, ht]
  exact if_pos h

/-- R184, R209: the entries from the first index on, of a table whose entries have one length. -/
theorem judgeRead_of_uniform {entry : Nat → List Byte} (ht : tableEntries (u8 p 1) s = some (base, l))
    (hf : base ≤ u16 p 2) (hb : u16 p 2 < base + l.length) (hpos : 0 < len)
    (hent : ∀ i, i < l.length → l[i]? = some (entry (base + i)) ∧ (entry (base + i)).length = len) :
    judgeRead p s = (.done (enc1 (u8 p 1) ++ enc1 (min (min (u8 p 4) (base + l.length - u16 p 2)) (55 / len))
        ++ (List.range (min (min (u8 p 4) (base + l.length - u16 p 2)) (55 / len))).flatMap fun i => entry (u16 p 2 + i)),
      if u8 p 1 = tableBerth then { s with freeCount := s.freeCount + 1 } else s) := by
  obtain ⟨a, ha⟩ := Nat.exists_eq_add_of_le hf
  have hlen : ∀ e ∈ l, e.length = len := fun e he => by
    obtain ⟨i, hi, rfl⟩ := List.getElem_of_mem he
    obtain ⟨hent, hlen⟩ := hent i hi
    rw [List.getElem?_eq_getElem hi, Option.some.injEq] at hent
    rw [hent, hlen]
  have hfit : fitEntries 55 ((l.drop (u16 p 2 - base)).take (u8 p 4))
      = (List.range (min (min (u8 p 4) (base + l.length - u16 p 2)) (55 / len))).map fun i => entry (u16 p 2 + i) := by
    rw [fitEntries_of_uniform hpos fun e he => hlen e (List.mem_of_mem_drop (List.mem_of_mem_take he)), List.take_take,
      ha, Nat.add_sub_cancel_left]
    have hmin : (l.drop a).take (min (55 / len) (u8 p 4))
        = (l.drop a).take (min (min (u8 p 4) (base + l.length - (base + a))) (55 / len)) := by
      rw [← List.take_length (l := l.drop a), List.take_take, List.take_take, List.length_drop]
      congr 1
      omega
    rw [hmin, take_drop_eq_map (f := fun i => entry (base + i)) (fun i hi => (hent i hi).1) (by omega)]
    simp only [Nat.add_assoc]
  have hn : ¬ (u16 p 2 < base ∨ base + l.length ≤ u16 p 2) := by omega
  simp only [judgeRead, ht, if_neg hn, hfit, List.length_map, List.length_range, ← List.flatMap_def]

end

/-! ## The length of each table's entries -/

@[simp] theorem length_encOpt1 (o : Option Nat) : (encOpt1 o).length = 2 := by cases o <;> rfl

@[simp] theorem length_encOpt2 (o : Option Nat) : (encOpt2 o).length = 3 := by cases o <;> rfl

@[simp] theorem length_enc1 (n : Nat) : (enc1 n).length = 1 := rfl

@[simp] theorem length_enc2 (n : Nat) : (enc2 n).length = 2 := rfl

@[simp] theorem length_enc4 (n : Nat) : (enc4 n).length = 4 := rfl

@[simp] theorem length_encMark (b : Bool) : (encMark b).length = 1 := rfl

@[simp] theorem length_sourceBytes (x : Source) : x.bytes.length = 3 := by cases x <;> rfl

theorem length_channelRead (s : State) (c : Nat) : (channelRead s c).length = 32 := by
  simp [channelRead, ChanEntry.bytes]

theorem length_remainingDwell (s : State) (j : Nat) : (remainingDwell s j).length = 2 := by
  rw [remainingDwell]
  split <;> rfl

theorem length_berthRead (s : State) (j : Nat) : (berthRead s j).length = 28 := by
  simp only [berthRead, BerthEntry.bytes, List.length_append, length_remainingDwell, length_enc1, length_enc2,
    length_encMark, length_encOpt2]
  cases (s.door j).lastStatus <;> cases (s.door j).command <;> rcases (s.door j).deskMark with _ | _ | _ <;> rfl

theorem length_fleetRead (s : State) (i : Nat) : (fleetRead s i).length = 3 := by
  rw [fleetRead]
  split <;> rfl

theorem length_phoneRead (s : State) (n : Nat) : (phoneRead s n).length = 5 := by
  rw [phoneRead]
  split
  · rfl
  · split <;> rfl

theorem length_lineBytes (p : LineParams) : p.bytes.length = 46 := by
  unfold LineParams.bytes
  simp only [enc1, enc2, enc4, List.cons_append, List.nil_append]
  rfl

theorem length_faultBytes (e : FaultEntry) : e.bytes.length = 9 := by simp [FaultEntry.bytes]

theorem length_cabinBytes (c : Cabin) : c.bytes.length = 14 := by simp [Cabin.bytes]

theorem length_upBytes (e : UpEntry) : e.bytes.length = 9 := rfl

theorem length_downBytes (e : DownEntry) : e.bytes.length = 7 := rfl

theorem length_substBytes (e : SubstEntry) : e.bytes.length = 4 := rfl

/-! ## The entries of a table, one by one -/

/-- A table given by index: its entries read one by one. -/
theorem entries_of_index {n len : Nat} {f g : Nat → List Byte} (hfg : ∀ i, f i = g i) (hlen : ∀ i, (f i).length = len) :
    ∀ i, i < ((List.range n).map f).length →
      ((List.range n).map f)[i]? = some (g (0 + i)) ∧ (g (0 + i)).length = len := by
  intro i hi
  rw [List.length_map, List.length_range] at hi
  rw [List.getElem?_map, List.getElem?_range hi, Nat.zero_add, ← hfg, hlen]
  exact ⟨rfl, rfl⟩

/-- A table that is a list: its entries read one by one. -/
theorem entries_of_list {α : Type} {xs : List α} {f : α → List Byte} {g : Nat → List Byte} {len : Nat}
    (hfg : ∀ i x, xs[i]? = some x → g i = f x) (hlen : ∀ x, (f x).length = len) :
    ∀ i, i < (xs.map f).length → (xs.map f)[i]? = some (g (0 + i)) ∧ (g (0 + i)).length = len := by
  intro i hi
  rw [List.length_map] at hi
  have hx := List.getElem?_eq_getElem hi
  rw [List.getElem?_map, hx, Nat.zero_add, hfg i _ hx, hlen]
  exact ⟨rfl, rfl⟩

section
variable {table : Byte} {first count : Nat} {r : Request} {rest : List Request} {s : State}

/-- The REPLY's bytes of a READ_ENTRY that is in range. -/
theorem event_read (hf : first < 65536) (hc : count < 256)
    (h : Asked r rest ([0x02, table] ++ enc2 first ++ enc1 count) s) (ht : table.toNat ≤ 9) (h1 : 1 ≤ count) (h4 : count ≤ 4)
    {base len beyond fit : Nat} {l : List (List Byte)} {entry : Nat → List Byte}
    (hl : tableEntries table.toNat (keyless (taken rest s)) = some (base, l)) (hb : base ≤ first)
    (hbeyond : base + l.length = beyond) (hlt : first < beyond) (hpos : 0 < len) (hfit : min 4 (55 / len) = fit)
    (hent : ∀ i, i < l.length → l[i]? = some (entry (base + i)) ∧ (entry (base + i)).length = len) :
    exec .readEntry s = .next (replied r ([0x02, 0, 0, table] ++ enc1 (min (min count (beyond - first)) fit)
        ++ (List.range (min (min count (beyond - first)) fit)).flatMap fun i => entry (first + i))
      (if table.toNat = tableBerth then { keyless (taken rest s) with freeCount := s.freeCount + 1 }
        else keyless (taken rest s))) := by
  subst hbeyond hfit
  have hu1 : u8 (0x02 :: table :: (enc2 first ++ enc1 count)) 1 = table.toNat := rfl
  have hu2 : u16 (0x02 :: table :: (enc2 first ++ enc1 count)) 2 = first := u16_ofNat_of_lt hf (enc1 count)
  have hu4 : u8 (0x02 :: table :: (enc2 first ++ enc1 count)) 4 = count := u8_ofNat_of_lt hc []
  have hfits : fitsRead (0x02 :: table :: (enc2 first ++ enc1 count)) = true :=
    decide_eq_true ⟨rfl, ht, hu4.symm ▸ h1, hu4.symm ▸ h4⟩
  have hjudge := judgeRead_of_uniform (p := 0x02 :: table :: (enc2 first ++ enc1 count)) hl (hu2.symm ▸ hb) (hu2.symm ▸ hlt)
    hpos hent
  rw [hu1, hu2, hu4] at hjudge
  have henc : enc1 table.toNat = [table] := by simp [enc1]
  have hcap : ∀ m, min (min count m) (55 / len) = min (min count m) (min 4 (55 / len)) := fun m => by omega
  rw [henc, hcap] at hjudge
  exact event_plain_of_fits (operands := table :: (enc2 first ++ enc1 count)) h rfl hfits hjudge

/-- A READ_ENTRY out of range. -/
theorem event_read_range (hf : first < 65536) (hc : count < 256)
    (h : Asked r rest ([0x02, table] ++ enc2 first ++ enc1 count) s)
    (hbad : 9 < table.toNat ∨ count = 0 ∨ 4 < count ∨ ∃ base l, tableEntries table.toNat (keyless (taken rest s)) = some (base, l)
      ∧ (first < base ∨ base + l.length ≤ first)) :
    exec .readEntry s = .next (replied r [0x02, 2, 3] (keyless (taken rest s))) := by
  have hu1 : u8 (0x02 :: table :: (enc2 first ++ enc1 count)) 1 = table.toNat := rfl
  have hu2 : u16 (0x02 :: table :: (enc2 first ++ enc1 count)) 2 = first := u16_ofNat_of_lt hf (enc1 count)
  have hu4 : u8 (0x02 :: table :: (enc2 first ++ enc1 count)) 4 = count := u8_ofNat_of_lt hc []
  by_cases hfits : fitsRead (0x02 :: table :: (enc2 first ++ enc1 count)) = true
  · have hfits' := of_decide_eq_true hfits
    rw [hu1, hu4] at hfits'
    obtain ⟨-, ht, h1, h4⟩ := hfits'
    obtain ⟨base, l, hl, hbad⟩ : ∃ base l, tableEntries table.toNat (keyless (taken rest s)) = some (base, l)
        ∧ (first < base ∨ base + l.length ≤ first) := by
      rcases hbad with hb | hb | hb | hb
      · omega
      · omega
      · omega
      · exact hb
    exact event_plain_of_fits (a := .refused .range []) (operands := table :: (enc2 first ++ enc1 count)) h rfl hfits
      (judgeRead_of_beyond hl (hu2.symm ▸ hbad))
  · have hw : Waits r rest s := ⟨h.pin, h.head, h.room, h.free, by rw [h.payload]; exact List.cons_ne_nil _ _⟩
    exact ((hw.checked (mine := hasCode 0x02) (judge := plain judgeRead) (c := .readEntry) rfl (by rw [h.payload]; rfl)).2.2
      h.desk h.ready (by rw [h.payload]; exact Bool.eq_false_iff.2 hfits)).trans (by rw [h.payload]; rfl)

end

/-- Settles O49. -/
theorem readEntryReturnsEntries : Obligations.ReadEntryReturnsEntries := by
  intro table first count r rest s hf hc h k opt beyond fits entry
  have hopt : ∀ o, encOpt2 o = opt o := fun o => by cases o <;> rfl
  have hall : table.toNat ≤ 9 → table ≠ 1 → ∃ l len, tableEntries table.toNat k = some (0, l) ∧ l.length = beyond
      ∧ min 4 (55 / len) = fits ∧ 0 < len ∧ ∀ i, i < l.length → l[i]? = some (entry (0 + i)) ∧ (entry (0 + i)).length = len := by
    intro ht hne
    rcases (show table = 0 ∨ table = 1 ∨ table = 2 ∨ table = 3 ∨ table = 4 ∨ table = 5 ∨ table = 6 ∨ table = 7
      ∨ table = 8 ∨ table = 9 by bv_omega) with rfl | rfl | rfl | rfl | rfl | rfl | rfl | rfl | rfl | rfl
    · refine ⟨_, 32, rfl, rfl, show min 4 (55 / 32) = 1 by decide, by decide,
        entries_of_index (fun i => ?_) (length_channelRead k)⟩
      rw [channelRead, hopt]
      rfl
    · exact absurd rfl hne
    · refine ⟨_, 3, rfl, rfl, show min 4 (55 / 3) = 4 by decide, by decide,
        entries_of_index (fun i => ?_) (length_fleetRead k)⟩
      show fleetRead k i = match s.ct.fleet[i]?.getD none with
        | some c => enc2 c.id ++ enc1 c.location.code
        | none => [0, 0, 0]
      rw [fleetRead, show k.ct.fleet = s.ct.fleet from rfl]
      cases s.ct.fleet[i]?.getD none <;> rfl
    · refine ⟨_, 5, rfl, rfl, show min 4 (55 / 5) = 4 by decide, by decide,
        entries_of_index (fun i => ?_) (length_phoneRead k)⟩
      refine congrArg ((s.phoneEntry i).bytes ++ ·) ?_
      show _ = if s.cs.phone = some i then ([1, 0] : List Byte)
        else match s.cs.waiting.findIdx? (fun w => w.phone == i) with
          | some place => [2] ++ enc1 place
          | none => [0, 0]
      rw [show k.cs = s.cs from rfl]
      cases s.cs.waiting.findIdx? (fun w => w.phone == i) <;> rfl
    · refine ⟨_, 46, rfl, rfl, show min 4 (55 / 46) = 1 by decide, by decide, fun i hi => ?_⟩
      obtain rfl : i = 0 := Nat.lt_one_iff.1 hi
      exact ⟨rfl, length_lineBytes _⟩
    · refine ⟨_, 9, rfl, List.length_map _, show min 4 (55 / 9) = 4 by decide, by decide,
        entries_of_list (fun i x hx => ?_) length_faultBytes⟩
      exact congrArg (fun o : Option FaultEntry => match o with | some e => e.bytes | none => []) hx
    · refine ⟨_, 14, rfl, List.length_map _, show min 4 (55 / 14) = 3 by decide, by decide,
        entries_of_list (fun i x hx => ?_) length_cabinBytes⟩
      show (match s.ct.queue[i]? with
        | some c => enc2 c.id ++ enc1 c.identity.code ++ enc1 c.zone ++ enc4 c.entryPos ++ enc1 c.grip.code
          ++ opt (c.force.map BitVec.toNat) ++ encMark c.locked ++ encMark c.orderMark
        | none => []) = _
      rw [show s.ct.queue[i]? = some x from hx, Cabin.bytes, hopt]
    · refine ⟨_, 9, rfl, List.length_map _, show min 4 (55 / 9) = 4 by decide, by decide,
        entries_of_list (fun i x hx => ?_) length_upBytes⟩
      exact congrArg (fun o : Option UpEntry => match o with | some e => e.bytes | none => []) hx
    · refine ⟨_, 7, rfl, List.length_map _, show min 4 (55 / 7) = 4 by decide, by decide,
        entries_of_list (fun i x hx => ?_) length_downBytes⟩
      exact congrArg (fun o : Option DownEntry => match o with | some e => e.bytes | none => []) hx
    · refine ⟨_, 4, rfl, List.length_map _, show min 4 (55 / 4) = 4 by decide, by decide,
        entries_of_list (fun i x hx => ?_) length_substBytes⟩
      exact congrArg (fun o : Option SubstEntry => match o with | some e => e.bytes | none => []) hx
  have hberth : tableEntries 1 k = some (1, s.berthList.map (berthRead k)) := rfl
  have hcount : 1 + (s.berthList.map (berthRead k)).length = s.berthCount + 1 := by
    simp [State.berthList, Nat.add_comm]
  refine ⟨fun hbad => ?_, fun ht h1 h4 hlt => ⟨fun hne => ?_, fun htab hfirst => ?_⟩⟩
  · refine event_read_range hf hc h ?_
    by_cases ht : 9 < table.toNat
    · exact .inl ht
    · by_cases htab : table = 1
      · subst htab
        refine hbad.imp_right fun hbad => hbad.imp_right fun hbad => hbad.imp_right fun hbad => ⟨_, _, hberth, ?_⟩
        rw [hcount]
        exact hbad.symm.imp (fun h => by omega) id
      · obtain ⟨l, len, hl, hlen, -⟩ := hall (Nat.le_of_not_lt ht) htab
        refine hbad.imp_right fun hbad => hbad.imp_right fun hbad => hbad.imp_right fun hbad => ⟨_, _, hl, .inr ?_⟩
        rw [Nat.zero_add, hlen]
        exact hbad.elim id fun h => absurd h.1 htab
  · obtain ⟨l, len, hl, hlen, hfit, hpos, hent⟩ := hall ht hne
    have hnb : table.toNat ≠ tableBerth := fun h => hne (BitVec.eq_of_toNat_eq h)
    have hread := event_read hf hc h ht h1 h4 hl (Nat.zero_le _) ((Nat.zero_add _).trans hlen) hlt hpos hfit hent
    rwa [if_neg hnb] at hread
  · subst htab
    have hlt' : first < s.berthCount + 1 := hlt
    have hone : min (min count (s.berthCount + 1 - first)) 1 = 1 := by omega
    have hent : ∀ i, i < (s.berthList.map (berthRead k)).length → (s.berthList.map (berthRead k))[i]?
        = some (berthRead k (1 + i)) ∧ (berthRead k (1 + i)).length = 28 := by
      intro i hi
      have hi' : i < s.berthCount := by simpa [State.berthList] using hi
      refine ⟨?_, length_berthRead _ _⟩
      rw [State.berthList, List.map_map, List.getElem?_map, List.getElem?_range hi', Nat.add_comm 1 i]
      rfl
    have hread := event_read hf hc h ht h1 h4 hberth hfirst hcount hlt' (by decide)
      (show min 4 (55 / 28) = 1 by decide) hent
    rw [hone, if_pos (show (1 : Byte).toNat = tableBerth from rfl)] at hread
    refine ⟨remainingDwell k first, length_remainingDwell _ _, fun n hn => ?_, fun hn => ?_, ?_⟩
    · rw [remainingDwell, show (k.door first).hold = .yes n from hn]
    · rw [remainingDwell, show (k.door first).hold = .no from hn]
      show _ = match (k.door first).dwellTimer with
        | .running t => enc2 (t - s.now)
        | .stopped => [0, 0]
        | .suspended => [0, 0]
      cases (k.door first).dwellTimer <;> rfl
    · refine hread.trans (congrArg (fun bs => Host.Outcome.next (replied r bs _)) ?_)
      rw [List.range_one, List.flatMap_singleton, Nat.add_zero, berthRead, hopt]
      have hd : k.door first = s.door first := rfl
      simp only [hd, List.append_assoc]
      rcases (s.door first).lastStatus with _ | ⟨_, _⟩ <;> rcases (s.door first).command with _ | ⟨_, _⟩
        <;> rcases (s.door first).deskMark with _ | _ | _ <;> rfl

end Sys2Proof.Machine
end

section
/-! SUPPORT. The rules about the call record, the frames to the phones and the call messages (chapter 8). -/

namespace Sys2Proof.Machine

open Sys2Proof.Safety

/-! ## Frames to the phones -/

/-- R209: a CALL frame to a phone. -/
def phoneFrame (h : Nat) (bytes : List Byte) (s : State) : QFrame :=
  { dest := (s.phoneEntry h).node, kind := .call, payload := bytes, tag := 0, restart := false }

/-- Frames at the tail of the VOICE queue. -/
def voiced (frames : List QFrame) (s : State) : State := { s with lr := { s.lr with voice := s.lr.voice ++ frames } }

@[simp] theorem voiced_nil (s : State) : voiced [] s = s := by
  rw [voiced, List.append_nil]

theorem voiced_voiced (xs ys : List QFrame) (s : State) : voiced ys (voiced xs s) = voiced (xs ++ ys) s := by
  simp only [voiced, List.append_assoc]

section
variable {s : State} {h : Nat} {st : Standing} {cause : Cause}

/-- R172: with room a VOICE frame joins the tail. -/
theorem offerVoice_of_room (hroom : s.lr.voice.length < 4) (f : QFrame) : offerVoice f s = voiced [f] s := by
  have hn : ¬ Config.relayCap ≤ s.lr.voice.length := Nat.not_le.2 hroom
  rw [offerVoice, if_neg hn]
  rfl

theorem sendCall_of_node (hnode : (s.phoneEntry h).node ≠ 0) (hroom : s.lr.voice.length < 4) (bytes : List Byte) :
    sendCall h bytes s = voiced [phoneFrame h bytes s] s := by
  rw [sendCall, if_neg hnode, offerVoice_of_room hroom]
  rfl

theorem sendStanding_of_node (hnode : (s.phoneEntry h).node ≠ 0) (hroom : s.lr.voice.length < 4) :
    sendStanding h st cause s = voiced [phoneFrame h (enc1 4 ++ enc1 st.code ++ enc1 cause.code) s] s :=
  sendCall_of_node hnode hroom _

theorem sendPhone_of_none (h : s.cs.phone = none) : sendPhone st cause s = s := by
  rw [sendPhone, h]

theorem sendPhone_of_node (hp : s.cs.phone = some h) (hnode : (s.phoneEntry h).node ≠ 0) (hroom : s.lr.voice.length < 4) :
    sendPhone st cause s = voiced [phoneFrame h (enc1 4 ++ enc1 st.code ++ enc1 cause.code) s] s := by
  rw [sendPhone, hp]
  exact sendStanding_of_node hnode hroom

end

/-- R159: RING OFF to the phones of a list. -/
theorem foldl_ringOff {l : List Nat} : ∀ {s : State}, (∀ h ∈ l, (s.phoneEntry h).node ≠ 0) →
    s.lr.voice.length + l.length ≤ 4 →
    l.foldl (fun t h => ringOff h t) s = voiced (l.map fun h => phoneFrame h [3, 0, 0] s) s := by
  induction l with
  | nil => exact fun _ _ => (voiced_nil _).symm
  | cons h l ih =>
    intro s hnode hroom
    rw [List.length_cons] at hroom
    have hfirst : ringOff h s = voiced [phoneFrame h [3, 0, 0] s] s :=
      sendCall_of_node (hnode h List.mem_cons_self) (by omega) _
    have hlen : (voiced [phoneFrame h [3, 0, 0] s] s).lr.voice.length = s.lr.voice.length + 1 := List.length_append
    rw [List.foldl_cons, hfirst, ih (s := voiced [phoneFrame h [3, 0, 0] s] s)
      (fun x hx => hnode x (List.mem_cons_of_mem _ hx)) (by omega), voiced_voiced]
    rfl

/-- R156, R159: the phones that a ring reaches (log entry 43). -/
def ringers (s : State) : List Nat := (List.range 8).filter fun h => (s.phoneEntry h).ringGroup && (s.phoneEntry h).node != 0

/-- A phone is rung: RING ON, and its place in the rung set. -/
def rings (h : Nat) (s : State) : State :=
  let t := ringOn h s
  if t.cs.rung.contains h then t else { t with cs := { t.cs with rung := t.cs.rung ++ [h] } }

theorem foldl_rings {l : List Nat} (hnd : l.Nodup) : ∀ {s : State}, (∀ h ∈ l, (s.phoneEntry h).node ≠ 0) →
    s.lr.voice.length + l.length ≤ 4 → l.foldl (fun t h => rings h t) s =
      { s with
        cs := { s.cs with rung := s.cs.rung ++ l.filter fun h => !s.cs.rung.contains h }
        lr := { s.lr with voice := s.lr.voice ++ l.map fun h => phoneFrame h [2, 0, 0] s } } := by
  induction l with
  | nil => simp
  | cons h l ih =>
    intro s hnode hroom
    obtain ⟨hnl, hnd⟩ := List.nodup_cons.1 hnd
    rw [List.length_cons] at hroom
    have hon : ringOn h s = voiced [phoneFrame h [2, 0, 0] s] s :=
      sendCall_of_node (hnode h List.mem_cons_self) (by omega) _
    have hlen : (voiced [phoneFrame h [2, 0, 0] s] s).lr.voice.length = s.lr.voice.length + 1 := List.length_append
    have hrest : ∀ x ∈ l, (s.phoneEntry x).node ≠ 0 := fun x hx => hnode x (List.mem_cons_of_mem _ hx)
    rw [List.foldl_cons]
    by_cases hin : s.cs.rung.contains h = true
    · have hfirst : rings h s = voiced [phoneFrame h [2, 0, 0] s] s := by
        simp only [rings, hon]
        exact if_pos hin
      rw [hfirst, ih (s := voiced [phoneFrame h [2, 0, 0] s] s) hnd hrest (by omega), List.filter_cons_of_neg (by simp only [hin]; decide), List.map_cons]
      simp only [voiced, List.append_assoc, List.singleton_append]
      rfl
    · have hfirst : rings h s = { voiced [phoneFrame h [2, 0, 0] s] s with
          cs := { s.cs with rung := s.cs.rung ++ [h] } } := by
        simp only [rings, hon]
        exact if_neg hin
      have hfilter : (l.filter fun x => !(s.cs.rung ++ [h]).contains x) = l.filter fun x => !s.cs.rung.contains x := by
        refine List.filter_congr fun x hx => ?_
        have hne : x ≠ h := fun he => hnl (he ▸ hx)
        simp [hne]
      rw [hfirst, ih (s := { voiced [phoneFrame h [2, 0, 0] s] s with cs := { s.cs with rung := s.cs.rung ++ [h] } }) hnd
        hrest (show (voiced [phoneFrame h [2, 0, 0] s] s).lr.voice.length + l.length ≤ 4 by omega), List.filter_cons_of_pos (by simp only [hin]; decide), List.map_cons]
      simp only [hfilter, voiced, List.append_assoc, List.singleton_append]
      rfl

/-- R156: RING ON to the ring group by phone index, each joining the rung set. -/
theorem ringGroup_of_room {s : State} (hroom : s.lr.voice.length + (ringers s).length ≤ 4) : ringGroup s =
    { s with
      cs := { s.cs with rung := s.cs.rung ++ (ringers s).filter fun h => !s.cs.rung.contains h }
      lr := { s.lr with voice := s.lr.voice ++ (ringers s).map fun h => phoneFrame h [2, 0, 0] s } } := by
  refine foldl_rings (List.nodup_range.filter _) (fun h hh => ?_) hroom
  have hp := (List.mem_filter.1 hh).2
  simp only [Bool.and_eq_true, bne_iff_ne] at hp
  exact hp.2

/-! ## The call record (R151) -/

/-- The call record after a change of state: its timers stopped, its rung set empty, and the link voice queue of a
CONNECTED call emptied. -/
def CallSwitch.entered (x : CallSwitch) (st : CallState) (phone : Option Nat) (prio : Priority) : CallSwitch :=
  { x with
    call := st, phone := phone, priority := prio, ringTimer := none, repeatTimer := none, rung := []
    voice := if x.call = .connected then [] else x.voice }

section
variable {s : State} {st : CallState} {phone : Option Nat} {prio : Priority}

/-- R151: a change from a state that rings no phones. -/
theorem setCall_of_quiet (hne : st ≠ s.cs.call) (hin : s.cs.call ≠ .incoming) :
    setCall st phone prio s = setFlag .callChange { s with cs := s.cs.entered st phone prio } := by
  have hv : (s.cs.call = .connected ∧ st ≠ .connected) = (s.cs.call = .connected) :=
    propext ⟨And.left, fun h => ⟨h, fun hs => hne (hs.trans h.symm)⟩⟩
  simp only [setCall, if_neg (fun h => hin h.1 : ¬ (s.cs.call = .incoming ∧ st ≠ .incoming)), if_pos hne, hv]
  rfl

/-- R159: leaving INCOMING sends RING OFF to the rung set. -/
theorem setCall_of_incoming (hst : st ≠ .incoming) (hin : s.cs.call = .incoming)
    (hnode : ∀ h ∈ s.cs.rung, (s.phoneEntry h).node ≠ 0) (hroom : s.lr.voice.length + s.cs.rung.length ≤ 4) :
    setCall st phone prio s = setFlag .callChange
      { voiced (s.cs.rung.map fun h => phoneFrame h [3, 0, 0] s) s with cs := s.cs.entered st phone prio } := by
  have hne : st ≠ s.cs.call := fun h => hst (h.trans hin)
  have hv : (s.cs.call = .connected ∧ st ≠ .connected) = (s.cs.call = .connected) :=
    propext ⟨And.left, fun h => ⟨h, fun hs => hne (hs.trans h.symm)⟩⟩
  simp only [setCall, if_pos (⟨hin, hst⟩ : s.cs.call = .incoming ∧ st ≠ .incoming), if_pos hne, hv,
    foldl_ringOff hnode hroom]
  rfl

end

/-! ## The end of a call -/

section
variable {s : State} {h : Nat} {cause : Cause}

/-- R159: the phone of a call that ends is told IDLE. -/
theorem endCall_of_phone (hcall : s.cs.call = .outgoing ∨ s.cs.call = .connected) (hp : s.cs.phone = some h)
    (hnode : (s.phoneEntry h).node ≠ 0) (hroom : s.lr.voice.length < 4) :
    endCall cause s = setFlag .callChange { voiced [phoneFrame h ([4, 0] ++ enc1 cause.code) s] s with
      cs := s.cs.entered .idle none s.cs.priority } := by
  rw [endCall, sendPhone_of_node hp hnode hroom, setCall_of_quiet]
  · rfl
  · exact fun he => by
      rcases hcall with hc | hc <;> exact CallState.noConfusion (he.trans hc)
  · exact fun he => by
      rcases hcall with hc | hc <;> exact CallState.noConfusion (hc.symm.trans he)

theorem endCall_of_incoming (hin : s.cs.call = .incoming) (hp : s.cs.phone = none)
    (hnode : ∀ h ∈ s.cs.rung, (s.phoneEntry h).node ≠ 0) (hroom : s.lr.voice.length + s.cs.rung.length ≤ 4) :
    endCall cause s = setFlag .callChange { voiced (s.cs.rung.map fun h => phoneFrame h [3, 0, 0] s) s with
      cs := s.cs.entered .idle none s.cs.priority } := by
  rw [endCall, sendPhone_of_none hp]
  exact setCall_of_incoming (fun he => CallState.noConfusion he) hin hnode hroom

theorem serve_of_none (hw : s.cs.waiting = []) : serve s = s := by
  rw [serve, hw]

end

/-! ## Call messages (R152) -/

/-- A message at the tail of the transmit queue. -/
def messaged (m : Message) (s : State) : State :=
  { s with sl := { s.sl with
    txQueue := s.sl.txQueue ++ [{ msg := m, seq := s.sl.nextSend, sent := false, age := 0 }]
    nextSend := s.sl.nextSend + 1 } }

section
variable {s : State} {m : Message} {cause : Cause}

theorem settled_messaged (hset : Settled s) (hroom : s.sl.txQueue.length < 15) : Settled (messaged m s) := by
  refine ⟨hset.deferred, hset.waiting, hset.launched, ?_⟩
  rw [messaged, List.length_append, List.length_singleton]
  omega

theorem formCallMsg_of_room (hb : s.cs.backlog = []) (hset : Settled s) (hroom : s.sl.txQueue.length < 15) :
    formCallMsg m s = updateRelease (messaged m s) := by
  rw [formCallMsg, hb, List.isEmpty_nil, if_pos rfl, txOffer_of_room (by omega)]
  exact evalRelease_settled (settled_messaged hset hroom)

theorem dropPresent_of_empty (hb : s.cs.backlog = []) : dropPresent s = s := by
  rw [dropPresent, hb, List.filter_nil, setBacklog, ← hb]

/-- R152: a call whose CALL_RING the summit may have seen is cleared with a CALL_CLEAR. -/
theorem signalClear_of_seen (hb : s.cs.backlog = []) (hset : Settled s) (hroom : s.sl.txQueue.length < 15) :
    signalClear cause s = updateRelease (messaged (clearMsg cause) s) := by
  simp only [signalClear, dropPresent_of_empty hb, hb, List.any_nil, Bool.and_false, Bool.false_eq_true, if_false]
  exact formCallMsg_of_room hb hset hroom

/-- R152: a CALL_RING that still waits is withdrawn. -/
theorem signalClear_of_unseen {p : List Byte} (hcall : s.cs.call ≠ .connected)
    (hb : s.cs.backlog = [{ type := msgCallRing, payload := p }]) :
    signalClear cause s = { s with cs := { s.cs with backlog := [] } } := by
  have hring : ((msgCallRing == msgCallRing) = true) := rfl
  simp only [signalClear, dropPresent, hb, List.any_cons, List.any_nil, Bool.or_false, hring, Bool.and_true,
    bne_iff_ne.2 hcall, if_true, List.filter_cons, List.filter_nil, Message.ofPresentCall, Bool.true_or, Bool.not_true,
    Bool.false_eq_true, if_false]
  rfl

theorem sendLaunchRel_cs_voice (x : CallSwitch) (d : DeskUnit) (v : List QFrame) :
    sendLaunchRel { s with cs := x, dr := d, lr := { s.lr with voice := v } }
      = { sendLaunchRel s with cs := x, dr := d, lr := { (sendLaunchRel s).lr with voice := v } } := by
  rw [sendLaunchRel, sendLaunchRel]
  by_cases h : s.params.conveyorNode = 0
  · rw [if_pos h]
    exact if_pos h
  · rw [if_neg h]
    exact if_neg h

/-- The release leaves CS and the VOICE queue, and reads neither. -/
theorem updateRelease_cs_voice (x : CallSwitch) (d : DeskUnit) (v : List QFrame) :
    updateRelease { s with cs := x, dr := d, lr := { s.lr with voice := v } }
      = { updateRelease s with cs := x, dr := d, lr := { (updateRelease s).lr with voice := v } } := by
  have hnow : releaseNow { s with cs := x, dr := d, lr := { s.lr with voice := v } } = releaseNow s := rfl
  obtain ⟨⟨r, id⟩, h⟩ : ∃ x, releaseNow s = x := ⟨_, rfl⟩
  by_cases hn : s.ct.release ≠ r ∨ s.ct.releaseCabin ≠ id
  · rw [updateRelease_of_new h hn]
    exact (updateRelease_of_new (hnow.trans h) hn).trans (sendLaunchRel_cs_voice (s := released r id s) x d v)
  · obtain ⟨hr, hid⟩ := not_or.1 hn
    rw [updateRelease_of_same h (not_not.1 hr) (not_not.1 hid)]
    exact updateRelease_of_same (hnow.trans h) (not_not.1 hr) (not_not.1 hid)

end

theorem updateRelease_cs (s : State) : (updateRelease s).cs = s.cs := (updateRelease_lineOnly s).others .cs (by decide)

theorem updateRelease_voice (s : State) : (updateRelease s).lr.voice = s.lr.voice := by
  rw [(updateRelease_lineOnly s).lr]

/-- Settles O39. -/
theorem ringTimersRunOut : Obligations.RingTimersRunOut := by
  refine ⟨?_, ?_⟩
  · intro t s hpin ht hw hset hroom u told cleared
    have hset' : Settled u := settled_of_eq hset rfl rfl rfl
    have hrun : exec .ringTimerExpiry s = .next (serve (endCall .noAnswer (signalClear .noAnswer u))) := by
      refine (event_of_released hpin ringOut).trans ?_
      rw [ringOut, ht]
      rfl
    -- The call is cleared with a CALL_CLEAR.
    have hclear : s.cs.backlog = [] → signalClear .noAnswer u = told := fun hb => signalClear_of_seen hb hset' hroom
    have hcs : told.cs = s.cs := updateRelease_cs _
    have hwait : told.cs.waiting = [] := by rw [hcs, hw]
    have hvoice : told.lr.voice = s.lr.voice := updateRelease_voice _
    have hentry : ∀ h, told.phoneEntry h = s.phoneEntry h := fun h => by rw [State.phoneEntry, hcs, State.phoneEntry]
    refine ⟨?_, fun hcall hp hb hnode hlen => ?_⟩
    · intro h hcall hp hnode hlen frames
      refine ⟨fun hb => ?_, fun p hb => ?_⟩
      · rw [hrun, hclear hb, endCall_of_phone (s := told) (.inl (by rw [hcs, hcall])) (by rw [hcs, hp])
          (by rwa [hentry]) (by rwa [hvoice]), serve_of_none (by rw [setFlag_eq]; exact hwait)]
        refine congrArg (fun x => Host.Outcome.next (setFlag .callChange x)) ?_
        simp only [voiced, phoneFrame, hentry, hcs, hvoice, CallSwitch.entered, hcall, hb]
        rfl
      · rw [hrun, signalClear_of_unseen (s := u) (by rw [show u.cs.call = .outgoing from hcall]; decide) hb,
          endCall_of_phone (s := { u with cs := { u.cs with backlog := [] } }) (h := h) (.inl hcall) hp hnode hlen, serve_of_none (by rw [setFlag_eq]; exact hw)]
        refine congrArg (fun x => Host.Outcome.next (setFlag .callChange x)) ?_
        simp only [CallSwitch.entered, show u.cs.call = .outgoing from hcall]
        rfl
    · rw [hrun, hclear hb, endCall_of_incoming (s := told) (by rw [hcs, hcall]) (by rw [hcs, hp])
        (by rw [hcs]; exact fun h hh => by rw [hentry]; exact hnode h hh) (by rwa [hvoice, hcs]),
        serve_of_none (by rw [setFlag_eq]; exact hwait)]
      refine congrArg (fun x => Host.Outcome.next (setFlag .callChange x)) ?_
      simp only [voiced, phoneFrame, hentry, hcs, hvoice, CallSwitch.entered, hcall, hb]
      rfl
  · intro t s hpin ht group hlen
    have hrun : exec .ringRepeat s = .next (ringAgain s) := event_of_released hpin _
    rw [hrun, ringAgain, ht]
    exact congrArg Host.Outcome.next (ringGroup_of_room
      (s := { reach t s with cs := { s.cs with repeatTimer := some (t + Config.ringRepeatTime) } }) hlen)

end Sys2Proof.Machine
end

section
/-! SUPPORT. The turns of the summit link: their start, their burst or break, and their end (R118, R124, R133, R137). -/

namespace Sys2Proof.Machine

open Sys2Proof.Safety

/-! ## The transmit queue at a turn start -/

section
variable {q : List TxEntry}

theorem ageEntry_of_unsent {e : TxEntry} (h : e.sent = false) : ageEntry e = e := if_neg (by simp [h])

/-- R137: no entry is old enough to be sent again. -/
theorem ageQueue_of_young (h : ∀ e ∈ q, e.sent = true → e.age < 9) : ageQueue q = q.map ageEntry := by
  cases q with
  | nil => rfl
  | cons e es =>
    refine if_neg ?_
    rintro ⟨hs, ha⟩
    by_cases hsent : e.sent = true
    · have hlt := h e List.mem_cons_self hsent
      rw [ageEntry, if_pos hsent] at ha
      exact absurd ha (by show ¬ 10 ≤ e.age + 1; omega)
    · rw [ageEntry, if_neg hsent] at hs
      exact hsent hs

theorem ageQueue_of_unsent (h : ∀ e ∈ q, e.sent = false) : ageQueue q = q := by
  rw [ageQueue_of_young fun e he hs => absurd hs (by simp [h e he])]
  exact (List.map_congr_left fun e he => ageEntry_of_unsent (h e he)).trans (List.map_id q)

/-- R137: the oldest entry's age reaches 10, and every entry is unsent again. -/
theorem ageQueue_of_old {e : TxEntry} {es : List TxEntry} (hs : e.sent = true) (ha : e.age = 9) :
    ageQueue (e :: es) = (e :: es).map fun x => { x with sent := false, age := 0 } := by
  have hold : (ageEntry e).sent = true ∧ 10 ≤ (ageEntry e).age := by
    rw [ageEntry, if_pos hs]
    exact ⟨hs, by show 10 ≤ e.age + 1; omega⟩
  have hunsent : ∀ x : TxEntry, (ageEntry x).unsent = { x with sent := false, age := 0 } := fun x => by
    rw [ageEntry]
    split <;> rfl
  rw [ageQueue, List.map_cons]
  refine (if_pos hold).trans ?_
  rw [← List.map_cons, List.map_map]
  exact List.map_congr_left fun x _ => hunsent x

/-- R137: of a queue with none sent the oldest messages are taken. -/
theorem takeUnsent_of_unsent (h : ∀ e ∈ q, e.sent = false) : ∀ n, takeUnsent n q =
    (q.take n, (q.take n).map (fun e => { e with sent := true, age := 0 }) ++ q.drop n) := by
  induction q with
  | nil => intro n; cases n <;> rfl
  | cons e es ih =>
    have hes : ∀ x ∈ es, x.sent = false := fun x hx => h x (List.mem_cons_of_mem _ hx)
    intro n
    cases n with
    | zero => simp [takeUnsent, h e List.mem_cons_self]
    | succ n => simp [takeUnsent, h e List.mem_cons_self, ih hes n]

end

/-! ## The turn's start -/

/-- R139: voice yields to 8 messages of a queue with none sent. -/
theorem voiceYields_of_unsent {s : State} (h : ∀ e ∈ s.sl.txQueue, e.sent = false) :
    s.voiceYields = decide (s.straps.rate = 0 ∧ 8 ≤ s.sl.txQueue.length) := by
  rw [State.voiceYields, List.filter_eq_self.2 fun e he => by simp [h e he], Bool.decide_and]
  rfl

/-- R124, R137: the burst of a queue with none sent. -/
theorem formBurst_of_unsent {s : State} {limit : Nat} {voice : Option (List Byte)}
    (h : ∀ e ∈ s.sl.txQueue, e.sent = false) (hv : (if s.voiceYields then none else s.cs.voice.head?) = voice)
    (hl : (if s.sl.summitHold then 0 else messageLimit s.straps.rate voice.isSome) = limit) :
    formBurst s = { s with
      cs := { s.cs with voice := s.cs.voice.drop 1 }
      sl := { s.sl with
        txQueue := (s.sl.txQueue.take limit).map (fun e => { e with sent := true, age := 0 }) ++ s.sl.txQueue.drop limit
        tx := .burst (burstBytes s.sl.turnNumber s.safetyWord s.sl.nextExpected s.sl.holdFlag voice
          ((s.sl.txQueue.take limit).map fun e => (e.msg, e.seq)))
        turn := .sending } } := by
  simp only [formBurst, hv, hl, takeUnsent_of_unsent h]

section
variable {s : State} {t : Nat}

theorem turnStart_of_closed (ht : s.sl.turnTimer = some t) (hq : s.sl.tx = .quiet)
    (hturn : s.sl.turn = .none ∨ s.sl.turn = .sending) (hl : s.sl.link ≠ .lost) :
    turnStart s = beginTurn t (reach t s) := by
  have hde : s.deLow = true := by simp [State.deLow, hq]
  have hans : s.sl.turn.answering = false := by rcases hturn with h | h <;> rw [h] <;> rfl
  rw [turnStart, ht]
  simp only [hde, if_true, show (reach t s).sl.turn.answering = false from hans, Bool.false_eq_true, if_false]
  exact if_neg hl

theorem beginTurn_of_break (hb : s.sl.breakPending = true) : beginTurn t s = { s with sl := { s.sl with
    turnTimer := some (t + 20), turnNumber := if s.sl.firstTurn then 0 else s.sl.turnNumber + 1, firstTurn := false
    txQueue := ageQueue s.sl.txQueue, turn := .none, tx := .breaking } } := if_pos hb

theorem beginTurn_of_burst (hb : s.sl.breakPending = false) : beginTurn t s = formBurst { s with sl := { s.sl with
    turnTimer := some (t + 20), turnNumber := if s.sl.firstTurn then 0 else s.sl.turnNumber + 1, firstTurn := false
    txQueue := ageQueue s.sl.txQueue, turn := .none } } := if_neg (by simp [hb])

end

/-- Settles O40. -/
theorem turnsStartAndSendingEnds : Obligations.TurnsStartAndSendingEnds := by
  refine ⟨?_, ?_, ?_⟩
  · intro t s hpin ht hq hturn hl number u aged
    have hrun : exec .turnStart s = .next (beginTurn t (reach t s)) :=
      (event_of_released hpin turnStart).trans (congrArg _ (turnStart_of_closed ht hq hturn hl))
    refine ⟨fun hb hyoung => ?_, fun hb hun => ?_⟩
    · rw [hrun, beginTurn_of_break (s := reach t s) hb, ageQueue_of_young (q := (reach t s).sl.txQueue) hyoung]
      rfl
    · intro yields voice limit taken word
      rw [hrun, beginTurn_of_burst (s := reach t s) hb, ageQueue_of_unsent (q := (reach t s).sl.txQueue) hun]
      have hy : (reach t s).voiceYields = decide yields := voiceYields_of_unsent (s := reach t s) hun
      rw [formBurst_of_unsent (limit := limit) (voice := voice)]
      · rfl
      · exact hun
      · refine Eq.trans (congrArg (fun b : Bool => if b then none else s.cs.voice.head?) hy) ?_
        simp only [decide_eq_true_eq]
        rfl
      · rfl
  · intro t e es s hpin ht hq hturn hl hb hqueue hs ha
    have hrun : exec .turnStart s = .next (beginTurn t (reach t s)) := (event_of_released hpin turnStart).trans
      (congrArg _ (turnStart_of_closed ht hq (.inl hturn) (by rw [hl]; decide)))
    rw [hrun, beginTurn_of_break (s := reach t s) hb, show (reach t s).sl.txQueue = e :: es from hqueue,
      ageQueue_of_old hs ha, hqueue, ← hturn]
    rfl
  · intro s hpin
    refine ⟨fun bytes hq => ⟨fun hturn => ?_, fun hturn => ?_⟩, fun hq => ?_, fun bytes hq => ?_⟩
    · refine (event_of_released hpin burstSent).trans ?_
      rw [burstSent, hq]
      simp only [if_pos hturn]
      rfl
    · refine (event_of_released hpin burstSent).trans ?_
      rw [burstSent, hq]
      simp only [if_neg hturn]
    · exact (event_of_released hpin breakSent).trans (congrArg _ (if_pos hq))
    · refine (event_of_released hpin attentionSent).trans ?_
      rw [attentionSent, hq]

end Sys2Proof.Machine
end

section
/-! SUPPORT. The attention sequences of the valley and the attention detector (R123, R129, R130). -/

namespace Sys2Proof.Machine

open Sys2Proof.Safety

section
variable {s : State} {t c : Nat}

theorem setLink_of_new {st : LinkState} (h : s.sl.link ≠ st) :
    setLink st s = setFlag .linkChange { s with sl := { s.sl with link := st } } := if_neg h

/-! ## LOST and SYNCING (R123, R130) -/

theorem lostPeriodEnd_of_lost (hl : s.sl.link = .lost) (ht : s.sl.lostUntil = some t) :
    lostPeriodEnd s = { setFlag .linkChange (reach t s) with sl := { s.sl with
      link := .syncing, lostUntil := none, attnTimer := some (max s.now t + 10), attnWaiting := false } } := by
  have hnew : (reach t s).sl.link ≠ .syncing := by
    rw [show (reach t s).sl.link = .lost from hl]
    decide
  rw [lostPeriodEnd, hl, ht, setFlag_eq]
  simp only [enterSyncing, setLink_of_new hnew, setFlag_eq]
  rfl

/-- R130: an attention instant in SYNCING restarts the timer. -/
def instanted (t : Nat) (s : State) : State :=
  { s with now := max s.now t, sl := { s.sl with attnTimer := some (t + 200) } }

theorem attentionInstant_of_syncing (hl : s.sl.link = .syncing) (ht : s.sl.attnTimer = some t) : attentionInstant s =
    if !s.deLow then instanted t s
    else if s.sl.breakPending then { instanted t s with sl := { (instanted t s).sl with tx := .breaking } }
    else if s.sl.attnWaiting then instanted t s
    else if (instanted t s).charRecent then { instanted t s with sl := { (instanted t s).sl with attnWaiting := true } }
    else sendAttention (instanted t s) := by
  rw [attentionInstant, hl, ht]
  rfl

theorem deLow_of_quiet (h : s.sl.tx = .quiet) : s.deLow = true := by simp [State.deLow, h]

theorem charRecent_of_recent (hc : s.sl.lastChar = some c) (h : s.now < c + 10) : s.charRecent = true := by
  rw [State.charRecent, hc]
  exact decide_eq_true h

theorem charRecent_of_old (h : ∀ c, s.sl.lastChar = some c → c + 10 ≤ s.now) : s.charRecent = false := by
  rw [State.charRecent]
  split
  · rename_i c hc
    exact decide_eq_false (Nat.not_lt.2 (h c hc))
  · rfl

theorem attentionAfterIdle_of_waiting (hl : s.sl.link = .syncing) (hw : s.sl.attnWaiting = true) (hq : s.sl.tx = .quiet)
    (hc : s.sl.lastChar = some c) : attentionAfterIdle s = sendAttention (reach (c + 10) s) := by
  have hend : s.idleEnd = c + 10 := by
    rw [State.idleEnd, hc]
    rfl
  rw [attentionAfterIdle, if_pos ⟨hl, hw, deLow_of_quiet hq⟩, hend]

/-! ## The detector (R129) -/

theorem attentionTimeout_of_idle (hl : s.sl.link ≠ .down) (hd : s.sl.detector = .idle) : attentionTimeout s =
    { s with now := max s.now (s.sl.idleFrom + 10), sl := { s.sl with detector := .first } } := by
  rw [attentionTimeout, if_neg hl, hd]
  rfl

theorem attentionTimeout_of_gap (hl : s.sl.link ≠ .down) (hd : s.sl.detector = .second ∨ s.sl.detector = .third
    ∨ s.sl.detector = .status ∨ ∃ r, s.sl.detector = .sequence r) : attentionTimeout s = restartDetection s := by
  rw [attentionTimeout, if_neg hl]
  obtain h | h | h | ⟨r, h⟩ := hd <;> rw [h]

/-- R129: each stage's character, and what breaks the sequence off. -/
theorem take_eq (d : Detector) (x : Byte) (framing : Bool) : d.take x framing =
    if framing = true then .idle
    else if d = .first ∧ x = 0x5A then .second
    else if d = .second ∧ x = 0x5A then .third
    else if d = .third ∧ x = 0x5A then .status
    else if d = .status ∧ x = 0x40 then .sequence false
    else if d = .status ∧ x = 0x41 then .sequence true
    else if d = .sequence false then .trail false x
    else if d = .sequence true then .trail true x
    else .idle := by
  unfold Detector.take
  split
  · rfl
  · cases d with
    | sequence r => cases r <;> simp
    | _ => simp

/-- R119: a character opens the reception of the summit burst, or joins it. -/
def TurnPhase.heard (x : Byte) (framing : Bool) : TurnPhase → TurnPhase
  | .none => .none
  | .sending => .sending
  | .window _ => .receiving [x] framing
  | .receiving cs f => .receiving (cs ++ [x]) (f || framing)

theorem characterReceived_of_quiet {x : Byte} {framing : Bool} (hl : s.sl.link ≠ .down) (hq : s.sl.tx = .quiet) :
    characterReceived x framing s = { s with sl := { s.sl with
      turn := s.sl.turn.heard x framing
      lastChar := some s.now, idleFrom := s.now, detector := s.sl.detector.take x framing } } := by
  simp only [characterReceived, deLow_of_quiet hq, Bool.not_true, Bool.false_eq_true, if_false, if_neg hl]
  rfl

end

/-- Settles O42. -/
theorem attentionSequencesAndDetector : Obligations.AttentionSequencesAndDetector := by
  refine ⟨?_, ?_⟩
  · intro s hpin bytes
    refine ⟨fun t hl ht => ?_, ?_, fun c hl hw hq hc => ?_⟩
    · exact (event_of_released hpin lostPeriodEnd).trans (congrArg _ (lostPeriodEnd_of_lost hl ht))
    · intro t hl ht u
      have hrun := (event_of_released hpin attentionInstant).trans (congrArg _ (attentionInstant_of_syncing hl ht))
      refine ⟨fun hq => ?_, fun hq hb => ?_, fun hq hb hw => ?_, fun hq hb hw => ⟨fun c hc hrec => ?_, fun hold => ?_⟩⟩
      · have hde : s.deLow = false := by simp [State.deLow, hq]
        exact hrun.trans (by rw [hde]; rfl)
      · exact hrun.trans (by rw [deLow_of_quiet hq, hb]; rfl)
      · exact hrun.trans (by rw [deLow_of_quiet hq, hb, hw]; rfl)
      · have hrecent : (instanted t s).charRecent = true := charRecent_of_recent (s := instanted t s) hc hrec
        exact hrun.trans (by rw [deLow_of_quiet hq, hb, hw, hrecent]; rfl)
      · have hrecent : (instanted t s).charRecent = false := charRecent_of_old (s := instanted t s) hold
        have hsend : exec .attentionInstant s = .next (sendAttention (instanted t s)) :=
          hrun.trans (by rw [deLow_of_quiet hq, hb, hw, hrecent]; rfl)
        rw [hsend, sendAttention, ← hw]
        rfl
    · refine (event_of_released hpin attentionAfterIdle).trans ?_
      rw [attentionAfterIdle_of_waiting hl hw hq hc]
      rfl
  · intro x framing s hpin hl
    refine ⟨fun hd => ?_, fun hd => ?_, ?_⟩
    · exact (event_of_released hpin attentionTimeout).trans (congrArg _ (attentionTimeout_of_idle hl hd))
    · exact (event_of_released hpin attentionTimeout).trans (congrArg _ (attentionTimeout_of_gap hl hd))
    · intro hq next heard
      have hrun := (event_of_released hpin (characterReceived x framing)).trans
        (congrArg _ (characterReceived_of_quiet (x := x) (framing := framing) hl hq))
      rw [take_eq] at hrun
      refine ⟨fun ht => hrun.trans ?_, fun t ht => hrun.trans ?_, fun cs f ht => hrun.trans ?_⟩
      · rw [show s.sl.turn.heard x framing = s.sl.turn by rw [ht]; rfl]
      · rw [ht]
        rfl
      · rw [ht]
        rfl

end Sys2Proof.Machine
end

section
/-! SUPPORT. A detected attention sequence resynchronises turns and queues (R131, R140). -/

namespace Sys2Proof.Machine

open Sys2Proof.Safety

section
variable {s : State} {restart : Bool} {next : Byte}

/-- R140: the transmit queue at a resynchronisation that confirms nothing. -/
def resyncedQueue (restart : Bool) (next : Byte) (s : State) : List TxEntry :=
  if restart then renumber next (s.sl.txQueue.map TxEntry.unsent) else s.sl.txQueue.map TxEntry.unsent

theorem length_resyncedQueue : (resyncedQueue restart next s).length = s.sl.txQueue.length := by
  cases restart
  · exact List.length_map _
  · exact (length_renumber _ _).trans (List.length_map _)

theorem confirmedBy_of_head {q : List TxEntry} (h : ∀ e es, q = e :: es → next = e.seq) : confirmedBy next q = 0 := by
  cases q with
  | nil => rfl
  | cons e es => simp [confirmedBy, h e es rfl]

/-- R131, R140: what a resynchronisation leaves of SL before the turns start anew. -/
def synced (restart : Bool) (next : Byte) (s : State) : State :=
  { s with sl := { s.sl with
    missed := 0, restartFlag := false, attnTimer := none, attnWaiting := false, lostUntil := none
    txQueue := resyncedQueue restart next s
    nextSend := if restart then next + BitVec.ofNat 8 s.sl.txQueue.length else s.sl.nextSend
    nextExpected := if restart then 0 else s.sl.nextExpected } }

/-- R131: the first turn starts 20 ms later. -/
def turned (s : State) : State :=
  { s with sl := { s.sl with turn := .none, turnTimer := some (s.now + 20), firstTurn := true } }

theorem turned_of_now {t : Nat} (h : s.now = t) :
    turned s = { s with sl := { s.sl with turn := .none, turnTimer := some (t + 20), firstTurn := true } } := by
  subst h
  rfl

theorem resync_of_unconfirmed (h : restart = false → ∀ e es, s.sl.txQueue = e :: es → next = e.seq) :
    resync restart next s = turned (if s.sl.link = .up then setLink .up (synced restart next s)
      else csLinkUp (gone .link .linkLost (setLink .up (synced restart next s)))) := by
  cases restart with
  | true => rfl
  | false =>
    rw [resync, resyncQueue]
    simp only [confirmedBy_of_head (h rfl), Bool.false_eq_true, if_false, if_true, List.drop_zero]
    rfl

theorem attentionDetected_of_trail (hd : s.sl.detector = .trail restart next) (hl : s.sl.link ≠ .down) :
    attentionDetected s = resync restart next (restartDetection (reach (s.sl.idleFrom + 10) s)) := by
  rw [attentionDetected, hd]
  exact if_neg hl

theorem link_self {t : State} {st : LinkState} (h : t.sl.link = st) :
    { t with sl := { t.sl with link := st } } = t := by
  subst h
  rfl

theorem settled_synced (h : Settled s) : Settled (synced restart next s) :=
  ⟨h.deferred, h.waiting, h.launched, (length_resyncedQueue (restart := restart)).symm ▸ h.room⟩

end

/-- Settles O43. -/
theorem detectionResynchronises : Obligations.DetectionResynchronises := by
  intro restart next s hpin hd hl hw hq at' queue synced' turned'
  let b := restartDetection (reach (s.sl.idleFrom + 10) s)
  have hrun : exec .attentionDetected s = .next (resync restart next b) :=
    (event_of_released hpin attentionDetected).trans (congrArg _ (attentionDetected_of_trail hd hl))
  rw [hrun, resync_of_unconfirmed (s := b) hq]
  have hnew : synced' = { synced restart next b with sl := { (synced restart next b).sl with link := .up } } := rfl
  refine ⟨fun hup => ?_, fun hup hset => ?_⟩
  · have hsync : setLink .up (synced restart next b) = synced' := by
      rw [setLink, if_pos (show (synced restart next b).sl.link = .up from hup), hnew,
        link_self (t := synced restart next b) hup]
    rw [if_pos (show b.sl.link = .up from hup), hsync]
    rfl
  · have hsync : setLink .up (synced restart next b) = setFlag .linkChange synced' :=
      (setLink_of_new (s := synced restart next b) hup).trans (congrArg _ hnew.symm)
    have hb : Settled b := settled_of_eq hset rfl rfl rfl
    have hset' : Settled (setFlag .linkChange synced') := Settled.after (s := synced')
      (settled_of_eq (settled_synced (restart := restart) (next := next) hb) rfl rfl rfl) (setFlag_lineOnly _ _)
    have hgone := gone_withdrawn .link .linkLost hset'
    have hcs : (gone .link .linkLost (setFlag .linkChange synced')).cs = s.cs := by
      rw [hgone.frame.others .cs (by decide), setFlag_eq]
    have hnow : (gone .link .linkLost (setFlag .linkChange synced')).now = at' := by
      rw [hgone.frame.others .now (by decide), setFlag_eq]
    refine ⟨_, ?_, hgone⟩
    rw [if_neg (show ¬ b.sl.link = .up from hup), hsync, csLinkUp, serve_of_none (by rw [hcs, hw]), turned_of_now hnow]

end Sys2Proof.Machine
end

section
/-! SUPPORT. Missed turns, and the loss of the link (R119, R121 to R123, R160). -/

namespace Sys2Proof.Machine

open Sys2Proof.Safety

section
variable {s : State} {n : Nat}

/-- R122: the missed count and the turn of a MISSED turn. -/
def missedOne (s : State) : State := { s with sl := { s.sl with missed := s.sl.missed + 1, turn := .none } }

theorem missedTurn_of_few (h : s.sl.missed + 1 < 3 ∨ (s.sl.link ≠ .up ∧ s.sl.missed + 1 < 10)) :
    missedTurn n s = missedOne s := by
  have h10 : ¬ 10 ≤ s.sl.missed + 1 := by omega
  simp only [missedTurn, if_neg h10]
  refine if_neg ?_
  rintro ⟨h3, hup⟩
  rcases h with h | h
  · omega
  · exact h.1 hup

theorem missedTurn_of_degraded (h3 : 3 ≤ s.sl.missed + 1) (h10 : s.sl.missed + 1 < 10) (hup : s.sl.link = .up) :
    missedTurn n s = setFlag .linkChange { s with sl := { s.sl with
      missed := s.sl.missed + 1, turn := .none, link := .degraded } } := by
  have hne : (missedOne s).sl.link ≠ .degraded := fun h => LinkState.noConfusion (hup.symm.trans h)
  simp only [missedTurn, if_neg (Nat.not_le.2 h10)]
  exact (if_pos ⟨h3, hup⟩).trans (setLink_of_new hne)

/-- R123: SL as the link enters LOST until a time. -/
def lost (n : Nat) (s : State) : State :=
  setFlag .linkChange { s with sl := { s.sl with
    missed := s.sl.missed + 1, link := .lost, turnTimer := none, turn := .none
    lostUntil := some n, summitWord := none, summitHeld := none } }

theorem missedTurn_of_lost (h10 : 10 ≤ s.sl.missed + 1) (hl : s.sl.link ≠ .lost) :
    missedTurn n s = csLinkLost (gone .link .summitDemand (raise linkLostFault (lost n s))) := by
  refine (if_pos h10).trans ?_
  show enterLost n (missedOne s) = _
  simp only [enterLost, setLink_of_new (s := missedOne s) hl, lost, setFlag_eq]
  rfl

/-! ## The call when the link is lost (R160) -/

theorem csLinkLost_of_idle (h : s.cs.call = .idle) : csLinkLost s = { s with cs := { s.cs with backlog := [] } } := by
  rw [csLinkLost, if_pos h]
  rfl

/-- R160: the call record once the link is lost: the call ended, the backlog dropped. -/
def cutOff (frames : List QFrame) (s : State) : State :=
  setFlag .callChange { voiced frames s with cs := { s.cs.entered .idle none s.cs.priority with backlog := [] } }

theorem csLinkLost_of_phone {h : Nat} (hcall : s.cs.call = .outgoing ∨ s.cs.call = .connected) (hp : s.cs.phone = some h)
    (hnode : (s.phoneEntry h).node ≠ 0) (hroom : s.lr.voice.length < 4) :
    csLinkLost s = cutOff [phoneFrame h [4, 0, 3] s] s := by
  have hne : s.cs.call ≠ .idle := fun he => by rcases hcall with hc | hc <;> exact CallState.noConfusion (he.symm.trans hc)
  rw [csLinkLost, if_neg hne, endCall_of_phone hcall hp hnode hroom, cutOff, setFlag_eq, setFlag_eq]
  rfl

theorem csLinkLost_of_incoming (hin : s.cs.call = .incoming) (hp : s.cs.phone = none)
    (hnode : ∀ h ∈ s.cs.rung, (s.phoneEntry h).node ≠ 0) (hroom : s.lr.voice.length + s.cs.rung.length ≤ 4) :
    csLinkLost s = cutOff (s.cs.rung.map fun h => phoneFrame h [3, 0, 0] s) s := by
  have hne : s.cs.call ≠ .idle := fun he => CallState.noConfusion (he.symm.trans hin)
  rw [csLinkLost, if_neg hne, endCall_of_incoming hin hp hnode hroom, cutOff, setFlag_eq, setFlag_eq]
  rfl

end

/-- R119, R121: both events make the turn MISSED. -/
theorem exec_missed {c : Instr} {s base : State} (hpin : s.resetHeld = false)
    (h : (∃ t, c = .replyWindowClose ∧ s.sl.turn = .window t ∧ base = { s with now := max s.now t })
      ∨ (∃ bytes, c = .clash ∧ s.sl.tx = .burst bytes ∧ s.sl.turn = .sending
        ∧ base = setFlag .clash { s with sl := { s.sl with tx := .quiet } })) :
    (∃ n, exec c s = .next (missedTurn n base) ∧ ∀ next, s.sl.turnTimer = some next → n = next)
      ∧ base.sl = { s.sl with tx := base.sl.tx } ∧ base.cs = s.cs ∧ base.lr = s.lr ∧ (Settled s → Settled base) := by
  rcases h with ⟨t, rfl, hturn, rfl⟩ | ⟨bytes, rfl, htx, hturn, rfl⟩
  · refine ⟨⟨s.nextTurn, ?_, fun next hn => by rw [State.nextTurn, hn]; rfl⟩, rfl, rfl, rfl,
      fun hset => settled_of_eq hset rfl rfl rfl⟩
    refine (event_of_released hpin windowClose).trans ?_
    rw [windowClose, hturn]
    rfl
  · refine ⟨⟨State.nextTurn (setFlag .clash { s with sl := { s.sl with tx := .quiet } }), ?_, fun next hn => ?_⟩,
      by rw [setFlag_eq], by rw [setFlag_eq], by rw [setFlag_eq], fun hset => by
        rw [setFlag_eq]
        exact settled_of_eq hset rfl rfl rfl⟩
    · refine (event_of_released hpin clash).trans ?_
      rw [clash, htx]
      exact congrArg _ (if_pos (by rw [setFlag_eq]; exact hturn))
    · rw [State.nextTurn, setFlag_eq]
      exact congrArg (Option.getD · _) hn

/-- Settles O41. -/
theorem missedTurnsLoseTheLink : Obligations.MissedTurnsLoseTheLink := by
  intro c s base hpin hc
  obtain ⟨⟨n, hrun, hn⟩, hsl, hcs, hlr, hset⟩ := exec_missed hpin hc
  have hmissed : base.sl.missed = s.sl.missed := by rw [hsl]
  have hlink : base.sl.link = s.sl.link := by rw [hsl]
  rw [hrun, ← hmissed, ← hlink]
  refine ⟨fun h => congrArg _ (missedTurn_of_few h), fun h3 h10 hup => congrArg _ (missedTurn_of_degraded h3 h10 hup), ?_⟩
  intro next hnext h10 hl hs
  obtain rfl := hn next hnext
  rw [missedTurn_of_lost h10 hl]
  have hlost : Settled (lost n base) := by
    rw [lost, setFlag_eq]
    exact settled_of_eq (hset hs) rfl rfl rfl
  have hraised := raise_raised linkLostFault hlost
  have hgone := gone_withdrawn .link .summitDemand (hlost.after hraised.frame)
  refine ⟨_, _, ?_, hraised, hgone⟩
  generalize gone .link .summitDemand (raise linkLostFault (lost n base)) = v at hgone ⊢
  have hframe := hraised.frame.trans hgone.frame
  have hvcs : v.cs = s.cs := by
    rw [hframe.others .cs (by decide), lost, setFlag_eq, ← hcs]
  have hvoice : v.lr.voice = s.lr.voice := by
    rw [hframe.lr, lost, setFlag_eq, ← hlr]
  have hentry : ∀ h, v.phoneEntry h = s.phoneEntry h := fun h => by rw [State.phoneEntry, hvcs, State.phoneEntry]
  rw [← hvcs, ← hvoice]
  refine ⟨fun hidle => ?_, fun h hcall hp hnode hroom => ?_, fun hin hp hnode hroom => ?_⟩
  · rw [csLinkLost_of_idle hidle]
  · rw [csLinkLost_of_phone hcall hp (by rwa [hentry]) hroom, phoneFrame, hentry]
    rfl
  · rw [csLinkLost_of_incoming hin hp (fun h hh => by rw [hentry]; exact hnode h hh) hroom]
    simp only [phoneFrame, hentry, cutOff, CallSwitch.entered, hin]
    rfl

end Sys2Proof.Machine
end

section
/-! SUPPORT. What the effects of a table write leave alone, and the line requests (R42 to R45, R55, R56). -/

namespace Sys2Proof.Machine

open Sys2Proof.Safety

/-! ## What the effects of a write leave alone -/

/-- The channels' entries, the parameters and the commissioned mark stand, and the state is settled; CL stands, or, where
a profile may be asked for, at most its pending profile changes in a start-up load. -/
structure WriteKept (asks : Prop) (s t : State) : Prop where
  entries : ∀ i, (t.chan i).entry = (s.chan i).entry
  params : t.params = s.params
  commissioned : t.ls.commissioned = s.ls.commissioned
  settled : Settled t
  loader : ¬ asks → t.cl = s.cl
  loading : s.cl.load = .loading → t.cl = { s.cl with pending := t.cl.pending }

section
variable {s t u : State} {c : Nat} {asks : Prop}

theorem WriteKept.refl (h : Settled s) : WriteKept asks s s := ⟨fun _ => rfl, rfl, rfl, h, fun _ => rfl, fun _ => rfl⟩

theorem WriteKept.trans (h : WriteKept asks s t) (g : WriteKept asks t u) : WriteKept asks s u :=
  ⟨fun i => (g.entries i).trans (h.entries i), g.params.trans h.params, g.commissioned.trans h.commissioned, g.settled,
    fun hn => (g.loader hn).trans (h.loader hn), fun hl => by
      have hfirst := h.loading hl
      rw [g.loading (by rw [hfirst]; exact hl), hfirst]⟩

theorem WriteKept.ite {p : Prop} [Decidable p] (h : p → WriteKept asks s t) (g : ¬ p → WriteKept asks s u) :
    WriteKept asks s (if p then t else u) := by
  split
  · exact h ‹_›
  · exact g ‹_›

theorem writeKept_of_lineOnly (h : LineOnly s t) (hs : Settled s) : WriteKept asks s t :=
  ⟨fun i => by rw [State.chan, h.others .cm (by decide), State.chan], h.params, h.commissioned, hs.after h,
    fun _ => h.others .cl (by decide), fun _ => by rw [h.others .cl (by decide)]⟩

theorem setFlag_kept (hs : Settled s) (f : Flag) : WriteKept asks s (setFlag f s) := writeKept_of_lineOnly (setFlag_lineOnly f s) hs

theorem WriteKept.flag (h : WriteKept asks s t) (f : Flag) : WriteKept asks s (setFlag f t) := h.trans (setFlag_kept h.settled f)

/-- A change of CL alone, with the start-up load ended. -/
theorem WriteKept.ready (h : WriteKept True s t) (hl : t.cl.load ≠ .loading) (x : Loader) :
    WriteKept True s { t with cl := x } :=
  h.trans ⟨fun _ => rfl, rfl, rfl, settled_of_eq h.settled rfl rfl rfl, fun hn => absurd trivial hn, fun h => absurd h hl⟩

/-- A change of a channel's runtime record or bypass. -/
theorem setChan_kept (hs : Settled s) {x : Channel} (hx : x.entry = (s.chan c).entry) : WriteKept asks s (setChan c x s) := by
  refine ⟨fun i => ?_, rfl, rfl, settled_of_eq hs rfl rfl rfl, fun _ => rfl, fun _ => rfl⟩
  rw [chan_setChan]
  split
  · rename_i hi
    rw [hx, hi.1]
  · rfl

theorem setRt_kept (hs : Settled s) (x : Runtime) : WriteKept asks s (setRt c x s) := setChan_kept hs rfl

theorem goneAll_kept (hs : Settled s) (codes : List FaultCode) : WriteKept asks s (goneAll follow c codes s) := by
  induction codes generalizing s with
  | nil => exact .refl hs
  | cons code codes ih =>
    have hfirst := writeKept_of_lineOnly (asks := asks) (gone_lineOnly (.channel c) code hs) hs
    exact hfirst.trans (ih hfirst.settled)

theorem resetRuntime_kept (hs : Settled s) : WriteKept asks s (resetRuntime follow c s) :=
  (goneAll_kept hs _).trans (setRt_kept (goneAll_kept (asks := asks) hs _).settled _)

theorem staleGone_kept (hs : Settled s) : WriteKept asks s (staleGone follow c s) := by
  refine .ite (fun _ => ?_) fun _ => .refl hs
  have hrt := setRt_kept (asks := asks) (c := c) hs { (s.chan c).rt with staleRaised := false }
  exact hrt.trans (writeKept_of_lineOnly (gone_lineOnly _ _ hrt.settled) hrt.settled)

theorem raiseAgain_kept (hs : Settled s) : WriteKept asks s (raiseAgain follow c s) := by
  have hraise : ∀ {v : State} (f : Raise), Settled v → WriteKept asks v (raise f v) := fun f hv =>
    writeKept_of_lineOnly (raise_lineOnly f hv) hv
  have hcond : ∀ f g : Raise, WriteKept asks s (match (s.chan c).rt.condition with
      | .outLow => raise f s
      | .outHigh => raise g s
      | .normal => s
      | .stale => s) := fun f g => by
    cases (s.chan c).rt.condition
    · exact .refl hs
    · exact hraise f hs
    · exact hraise g hs
    · exact .refl hs
  refine (hcond (classFault c .outLow (s.chan c).entry.cls) (classFault c .outHigh (s.chan c).entry.cls)).trans ?_
  exact .ite (fun _ => hraise _ (hcond _ _).settled) fun _ => .refl (hcond _ _).settled

theorem endBypass_kept (hs : Settled s) : WriteKept asks s (endBypass follow c s) := by
  have hoff := setChan_kept (asks := asks) (c := c) (x := { s.chan c with bypass := none }) hs rfl
  have hgone := writeKept_of_lineOnly (asks := asks) (gone_lineOnly (.channel c) .bypassActive hoff.settled) hoff.settled
  exact (hoff.trans hgone).trans (setFlag_kept hgone.settled _)

theorem determineEncoder_kept (hs : Settled s) : WriteKept asks s (determineEncoder follow s) := by
  refine .ite (fun _ => .refl hs) fun _ => ?_
  have hra : ∀ x : Rope, WriteKept asks s { s with ra := x } := fun x =>
    ⟨fun _ => rfl, rfl, rfl, settled_of_eq hs rfl rfl rfl, fun _ => rfl, fun _ => rfl⟩
  cases s.ra.encoder with
  | none => exact hra _
  | some a => exact (hra _).trans (goneAll_kept (hra _).settled _)

theorem enterApplying_kept (hs : Settled s) (hl : s.cl.load ≠ .loading) (p : Profile) :
    WriteKept True s (enterApplying p s) := by
  have hempty : WriteKept True s { s with cm := { s.cm with deferred := [] } } :=
    ⟨fun _ => rfl, rfl, rfl, ⟨rfl, hs.waiting, hs.launched, hs.room⟩, fun _ => rfl, fun _ => rfl⟩
  exact .ite (fun _ => (hempty.ready hl _).flag _) fun _ => hempty.ready hl _

theorem beginProfile_kept (hs : Settled s) (hl : s.cl.load ≠ .loading) (p : Profile) :
    WriteKept True s (beginProfile p s) := by
  refine .ite (fun _ => (WriteKept.refl hs).ready hl _) fun _ => ?_
  have hclear := fun x => (WriteKept.refl hs).ready hl x
  exact .ite (fun _ => (hclear _).ready hl _) fun _ => (hclear _).trans (enterApplying_kept (hclear _).settled (by exact hl) _)

theorem requestProfile_kept (hs : Settled s) (p : Profile) : WriteKept True s (requestProfile p s) := by
  rw [requestProfile]
  by_cases hl : s.cl.load = .loading
  · rw [if_pos (.inl hl)]
    exact ⟨fun _ => rfl, rfl, rfl, settled_of_eq hs rfl rfl rfl, fun hn => absurd trivial hn, fun _ => rfl⟩
  · exact .ite (fun _ => (WriteKept.refl hs).ready hl _) fun _ => .ite (fun _ => .refl hs) fun _ => beginProfile_kept hs hl p

theorem formBand_kept (hs : Settled s) : WriteKept True s (formBand s) := by
  refine .ite (fun _ => .refl hs) fun _ => ?_
  have hband : WriteKept True s { s with cm := { s.cm with windBand := s.bandNow } } :=
    ⟨fun _ => rfl, rfl, rfl, settled_of_eq hs rfl rfl rfl, fun _ => rfl, fun _ => rfl⟩
  have hflag := hband.trans (setFlag_kept hband.settled .windBand)
  refine hflag.trans (.ite (fun _ => requestProfile_kept hflag.settled _) fun _ => ?_)
  exact .ite (fun _ => requestProfile_kept hflag.settled _) fun _ => .refl hflag.settled

theorem captureWritten_kept (hs : Settled s) : WriteKept True s (captureWritten c s) := by
  rw [captureWritten]
  split
  · exact .ite (fun _ => ⟨fun _ => rfl, rfl, rfl, settled_of_eq hs rfl rfl rfl, fun _ => rfl, fun _ => rfl⟩) fun _ => .refl hs
  · exact .refl hs

/-- R44, R45: an accepted channel write replaces the entry, and its other effects leave the tables alone; a stale time
not made shorter fails no channel. -/
theorem applyChan_kept {e : ChanEntry} (hs : Settled s) (hc : c < 48)
    (hstale : e.state ≠ .active ∨ (s.chan c).entry.staleTime ≤ e.staleTime) :
    WriteKept True (setEntry c e s) (applyChan follow c e s) := by
  unfold applyChan
  extract_lets o moved s1 s2 s3 _ s4 s5 s6 _ s7 s8
  have h1 : WriteKept True s1 s1 := .refl (settled_of_eq hs rfl rfl rfl)
  have h2 : WriteKept True s1 s2 := .ite (fun _ => (resetRuntime_kept h1.settled).trans
    (staleGone_kept (resetRuntime_kept (asks := True) h1.settled).settled)) fun _ => h1
  have hgone := goneAll_kept (asks := True) (c := c) h2.settled cmFaults
  have h3 : WriteKept True s1 s3 := h2.trans (hgone.trans (staleGone_kept hgone.settled))
  have h4 : WriteKept True s1 s4 := .ite (fun _ => h3.trans (setRt_kept h3.settled _)) fun _ => h2
  have h5 : WriteKept True s1 s5 := h4.trans (.ite (fun _ => raiseAgain_kept h4.settled) fun _ => .refl h4.settled)
  have h6 : WriteKept True s1 s6 := h5.trans (.ite (fun _ => endBypass_kept h5.settled) fun _ => .refl h5.settled)
  have h7 : WriteKept True s1 s7 := h6.trans
    (.ite (fun _ => ⟨fun _ => rfl, rfl, rfl, settled_of_eq h6.settled rfl rfl rfl, fun _ => rfl, fun _ => rfl⟩)
      fun _ => .refl h6.settled)
  have h8 : WriteKept True s1 s8 := h7.trans (.ite (fun _ => (determineEncoder_kept h7.settled).trans
    (formBand_kept (determineEncoder_kept (asks := True) h7.settled).settled)) fun _ => .refl h7.settled)
  have h9 : WriteKept True s1 (captureWritten c s8) := h8.trans (captureWritten_kept h8.settled)
  have hentry : ((captureWritten c s8).chan c).entry = e := by
    rw [h9.entries, show s1 = setEntry c e s from rfl, setEntry, chan_setChan_same hc]
  rw [testStale, if_neg]
  · exact h9
  · rw [hentry]
    rintro ⟨ha, hlt, -⟩
    exact hstale.elim (· ha) (Nat.not_le.2 hlt)

theorem reducePositions_kept (hs : Settled s) : WriteKept asks s (reducePositions s) :=
  ⟨fun _ => rfl, rfl, rfl, ⟨hs.deferred, hs.waiting, hs.launched, hs.room⟩, fun _ => rfl, fun _ => rfl⟩

/-- The record of LINE_PARAMS replaced. -/
def withParams (p : LineParams) (s : State) : State := { s with ls := { s.ls with params := p } }

theorem writeParams_kept {p : LineParams} (hs : Settled s) : WriteKept asks (withParams p s) (writeParams p s) := by
  unfold writeParams
  extract_lets _ s1 s2
  have h1 : Settled s1 := settled_of_eq hs rfl rfl rfl
  have h2 : WriteKept asks s1 s2 := .ite (fun _ => reducePositions_kept h1) fun _ => .refl h1
  exact .ite (fun _ => h2.trans (writeKept_of_lineOnly (issueDrive_lineOnly s2) h2.settled)) fun _ => h2

theorem raise_kept (hs : Settled s) (f : Raise) : WriteKept asks s (raise f s) := writeKept_of_lineOnly (raise_lineOnly f hs) hs

theorem WriteKept.autoSlow (h : WriteKept asks s t) (x : Option Nat) :
    WriteKept asks s { t with ls := { t.ls with autoSlow := x } } :=
  h.trans ⟨fun _ => rfl, rfl, rfl, settled_of_eq h.settled rfl rfl rfl, fun _ => rfl, fun _ => rfl⟩

theorem applyIdleSlow_kept (hs : Settled s) (o : LineParams) : WriteKept asks s (applyIdleSlow follow o s) := by
  rw [applyIdleSlow]
  have hstop := fun x => (WriteKept.refl (asks := asks) hs).autoSlow x
  split
  · exact (hstop _).trans (writeKept_of_lineOnly (gone_lineOnly _ _ (hstop _).settled) (hstop _).settled)
  · exact .ite (fun _ => (hstop _).trans (raise_kept (hstop _).settled _)) fun _ => .ite (fun _ => hstop _) fun _ => .refl hs

theorem formWarning_kept (hs : Settled s) : WriteKept asks s (formWarning s) := by
  have hds : ∀ x y, WriteKept asks s { s with ds := x, lr := y } := fun _ _ =>
    ⟨fun _ => rfl, rfl, rfl, settled_of_eq hs rfl rfl rfl, fun _ => rfl, fun _ => rfl⟩
  exact .ite (fun _ => .refl hs) fun _ => .ite (fun _ => hds _ _) fun _ => hds _ _

/-- R66: an accepted LINE_PARAMS write replaces the record, and its other effects leave the tables alone. -/
theorem applyLine_kept {p : LineParams} (hs : Settled s) : WriteKept asks (withParams p s) (applyLine follow p s) := by
  unfold applyLine
  extract_lets o s1 s2 s3 s4 s5 s6
  have h1 : WriteKept asks (withParams p s) s1 := writeParams_kept hs
  have h2 : WriteKept asks (withParams p s) s2 := h1.trans (.ite (fun _ => raise_kept h1.settled _) fun _ => .refl h1.settled)
  have h3 : WriteKept asks (withParams p s) s3 := h2.trans (.ite (fun _ => raise_kept h2.settled _) fun _ => .refl h2.settled)
  have h4 : WriteKept asks (withParams p s) s4 :=
    h3.trans (.ite (fun _ => applyIdleSlow_kept h3.settled _) fun _ => .refl h3.settled)
  have h5 : WriteKept asks (withParams p s) s5 := h4.trans
    (.ite (fun _ => writeKept_of_lineOnly (sendLaunchRel_lineOnly _) h4.settled) fun _ => .refl h4.settled)
  have h6 : WriteKept asks (withParams p s) s6 := h5.trans (.ite (fun _ => by
    rw [evalRelease_settled h5.settled]
    exact writeKept_of_lineOnly (updateRelease_lineOnly _) h5.settled) fun _ => .refl h5.settled)
  exact h6.trans (.ite (fun _ => formWarning_kept h6.settled) fun _ => .refl h6.settled)

end

end Sys2Proof.Machine
end

section
/-! SUPPORT. Writes of channels and of LINE_PARAMS as the line state lets them, and the line requests (R42 to R45, R56). -/

namespace Sys2Proof.Machine

open Sys2Proof.Safety

/-! ## Channel writes judged (R42, R43) -/

section
variable {c : Nat} {e o : ChanEntry} {bs : List Byte} {s : State}

/-- R42: a channel of the substitution list whose place would change. -/
def BoundChange (c : Nat) (e : ChanEntry) (s : State) : Prop :=
  (∃ x ∈ s.cm.subst, x.primary = c ∨ x.standby = c)
    ∧ ((s.chan c).entry.state ≠ e.state ∨ (s.chan c).entry.node ≠ e.node ∨ (s.chan c).entry.slot ≠ e.slot
      ∨ (s.chan c).entry.kind ≠ e.kind ∨ (s.chan c).entry.standby ≠ e.standby ∨ (s.chan c).entry.boundary ≠ e.boundary)

theorem boundChange_iff : BoundChange c e s ↔ (s.cm.subst.any (fun x => x.primary == c || x.standby == c)) = true
    ∧ bindsChange (s.chan c).entry e = true := by
  simp only [BoundChange, bindsChange, List.any_eq_true, Bool.or_eq_true, beq_iff_eq, bne_iff_ne, ne_eq, or_assoc]

theorem validChan_of_range (he : ChanEntry.ofBytes bs = some e) (h : 48 ≤ c ∨ ¬ ChanAllowed s c e) :
    validChan c bs s = .error .range := by
  rw [validChan, he]
  refine if_pos ?_
  refine h.imp_right fun h => ?_
  by_contra hn
  simp only [not_or, not_not, not_and] at hn
  obtain ⟨-, hr, hf, ht⟩ := hn
  exact h ((chanAllowed_iff c e s).2 ⟨hr, hf, fun hu => by simpa using ht hu⟩)

theorem validChan_of_allowed (he : ChanEntry.ofBytes bs = some e) (hlen : bs.length = 21) (hc : c < 48)
    (ha : ChanAllowed s c e) : validChan c bs s = if (s.cm.subst.any fun x => x.primary == c || x.standby == c) = true
      ∧ bindsChange (s.chan c).entry e = true then .error .state else .ok e := by
  obtain ⟨hr, hf, ht⟩ := (chanAllowed_iff c e s).1 ha
  rw [validChan, he]
  refine if_neg ?_
  rintro (h | h | h | h | h)
  · omega
  · exact h hlen
  · exact h hr
  · exact h.2 (hf h.1)
  · rw [ht h.1] at h
    exact Bool.noConfusion h.2

variable {structural loosens : Bool}

section
variable {S L : Prop} (hS : structural = true ↔ S) (hL : loosens = true ↔ L)
include hS hL

/-- R43: outside STOPPED a structural change is STATE, and else one that loosens WIDEN. -/
theorem narrowing_judged :
    (s.ls.line ≠ .stopped → S → narrowing structural loosens s = some .state)
      ∧ (s.ls.line ≠ .stopped → ¬ S → L → narrowing structural loosens s = some .widen)
      ∧ (s.ls.line = .stopped ∨ (¬ S ∧ ¬ L) → narrowing structural loosens s = none) := by
  rw [← hS, ← hL]
  refine ⟨fun hl hs => ?_, fun hl hs hw => ?_, fun h => ?_⟩
  · exact (if_neg hl).trans (if_pos hs)
  · exact (if_neg hl).trans ((if_neg hs).trans (if_pos hw))
  · rcases h with h | ⟨hs, hw⟩
    · exact if_pos h
    · by_cases hl : s.ls.line = .stopped
      · exact if_pos hl
      · exact (if_neg hl).trans ((if_neg hs).trans (if_neg hw))

/-- R44: the commissioned mark is cleared in STOPPED by a structural change or one that loosens. -/
theorem uncommission_judged (t : State) :
    (s.ls.line = .stopped → S ∨ L →
        uncommission structural loosens s t = { t with ls := { t.ls with commissioned := false } })
      ∧ (s.ls.line ≠ .stopped ∨ (¬ S ∧ ¬ L) → uncommission structural loosens s t = t) := by
  rw [← hS, ← hL]
  refine ⟨fun hl hw => if_pos ⟨hl, hw⟩, fun h => if_neg ?_⟩
  rintro ⟨hl, hw⟩
  exact h.elim (· hl) fun hn => hw.elim hn.1 hn.2

end

section
variable {p : List Byte} {x : Reason}

theorem writeChannel_of_invalid (hi : u16 p 2 = c) (hbs : p.drop 4 = bs) (hv : validChan c bs s = .error x) :
    writeChannel p s = (.refused x [], s) := by
  simp only [writeChannel, hi, hbs, hv]

theorem writeChannel_of_narrowed (hi : u16 p 2 = c) (hbs : p.drop 4 = bs) (hv : validChan c bs s = .ok e)
    (hn : narrowing (chanStructural (s.chan c).entry e) (chanLoosens (s.chan c).entry e) s = some x) :
    writeChannel p s = (.refused x [], s) := by
  simp only [writeChannel, hi, hbs, hv, hn]

theorem writeChannel_of_taken (hi : u16 p 2 = c) (hbs : p.drop 4 = bs) (hv : validChan c bs s = .ok e)
    (hn : narrowing (chanStructural (s.chan c).entry e) (chanLoosens (s.chan c).entry e) s = none) :
    writeChannel p s = (.done [], uncommission (chanStructural (s.chan c).entry e) (chanLoosens (s.chan c).entry e) s
      (applyChan follow c e s)) := by
  simp only [writeChannel, hi, hbs, hv, hn]

end

theorem uncommission_chan (t : State) (i : Nat) : (uncommission structural loosens s t).chan i = t.chan i := by
  rw [uncommission]
  split <;> rfl

theorem uncommission_params (t : State) : (uncommission structural loosens s t).params = t.params := by
  rw [uncommission]
  split <;> rfl

end

/-! ## LINE_PARAMS writes of fields with no effect beyond the record (R66) -/

section
variable {p : LineParams} {i : Nat} {bs : List Byte} {s : State}

theorem validLine_of_range (h : i ≠ 0 ∨ ¬ LineAllowed (LineParams.ofBytes bs)) : validLine i bs = .error .range := by
  refine if_neg ?_
  rintro ⟨hi, -, hr⟩
  exact h.elim (· hi) (· ((lineAllowed_iff _).2 hr))

theorem validLine_of_allowed (hlen : bs.length = 46) (ha : LineAllowed (LineParams.ofBytes bs)) :
    validLine 0 bs = .ok (LineParams.ofBytes bs) := if_pos ⟨rfl, hlen, (lineAllowed_iff _).1 ha⟩

section
variable {b : List Byte} {x : Reason}

theorem writeLine_of_invalid (hi : u16 b 2 = i) (hbs : b.drop 4 = bs) (hv : validLine i bs = .error x) :
    writeLine b s = (.refused x [], s) := by
  simp only [writeLine, hi, hbs, hv]

theorem writeLine_of_narrowed (hi : u16 b 2 = i) (hbs : b.drop 4 = bs) (hv : validLine i bs = .ok p)
    (hn : narrowing (lineStructural s.params p) (lineLoosens s.params p) s = some x) :
    writeLine b s = (.refused x [], s) := by
  simp only [writeLine, hi, hbs, hv, hn]

theorem writeLine_of_taken (hi : u16 b 2 = i) (hbs : b.drop 4 = bs) (hv : validLine i bs = .ok p)
    (hn : narrowing (lineStructural s.params p) (lineLoosens s.params p) s = none) : writeLine b s = (.done [],
      uncommission (lineStructural s.params p) (lineLoosens s.params p) s (applyLine follow p s)) := by
  simp only [writeLine, hi, hbs, hv, hn]

end

/-- R62: a drive request carries a setpoint and the line, nothing else of LINE_PARAMS. -/
theorem driveContent_withParams (hr : p.runSetpoint = s.params.runSetpoint) (hs : p.slowSetpoint = s.params.slowSetpoint) :
    driveContent (withParams p s) = driveContent s := by
  have hl : (withParams p s).ls.line = s.ls.line := rfl
  have hp : (withParams p s).params = p := rfl
  have he : (withParams p s).ls.effDemand = s.ls.effDemand := rfl
  simp only [driveContent, hl, hp, he, hr, hs]

theorem writeParams_of_same_setpoints (hl : p.loopLen = s.params.loopLen) (hr : p.runSetpoint = s.params.runSetpoint)
    (hs : p.slowSetpoint = s.params.slowSetpoint) : writeParams p s = withParams p s := by
  simp only [writeParams, hl, ne_eq, not_true_eq_false, if_false]
  exact if_neg (not_not.2 (congrArg DriveRecord.setpoint (driveContent_withParams hr hs)))

/-- R66: a write that keeps the time limits, N, the addresses, the loop length and the spacing. -/
theorem applyLine_of_same (hst : p.startTime = s.params.startTime) (hsp : p.stopTime = s.params.stopTime)
    (hn : p.idleSlow = s.params.idleSlow) (hc : p.conveyorNode = s.params.conveyorNode)
    (hl : p.loopLen = s.params.loopLen) (hm : p.minSpacing = s.params.minSpacing)
    (hw : p.warnNode = s.params.warnNode) : applyLine follow p s = writeParams p s := by
  simp only [applyLine, hst, hsp, hn, hc, hl, hm, hw, ne_eq, not_true_eq_false, false_and, or_self, if_false]

end

/-- R43: a write that makes the tolerance alone smaller. -/
theorem tolerance_narrows {o p : LineParams} (hp : p = { o with tolerance := p.tolerance })
    (ht : p.tolerance ≤ o.tolerance) : ¬ LineStructural o p ∧ ¬ LineLoosens o p := by
  rw [hp]
  simp only [LineStructural, LineLoosens, ne_eq, not_true_eq_false, lt_irrefl, or_self, false_or, or_false, not_false_eq_true,
    true_and]
  omega

theorem applyLine_tolerance {p : LineParams} {s : State} (hp : p = { s.params with tolerance := p.tolerance }) :
    applyLine follow p s = withParams p s := by
  have h : ∀ {α : Type} (f : LineParams → α), f p = f { s.params with tolerance := p.tolerance } := fun f => congrArg f hp
  rw [applyLine_of_same (h (·.startTime)) (h (·.stopTime)) (h (·.idleSlow)) (h (·.conveyorNode)) (h (·.loopLen))
    (h (·.minSpacing)) (h (·.warnNode)),
    writeParams_of_same_setpoints (h (·.loopLen)) (h (·.runSetpoint)) (h (·.slowSetpoint))]

/-! ## LINE (R56) -/

section
variable {s : State} {d : Demand}

theorem startAllowed_iff : startAllowed d s = true ↔ s.ls.commissioned = true ∧ s.sl.link = .up ∧ s.lr.loop = .closed
    ∧ ∃ e, MostSevere (setDesk d s) e ∧ e.code ≤ 1 := by
  have hmost : MostSevere (setDesk d s) (demandWith d s) := demandNow_mostSevere (setDesk d s)
  simp only [startAllowed, Bool.and_eq_true, beq_iff_eq, decide_eq_true_eq, and_assoc]
  refine and_congr_right fun _ => and_congr_right fun _ => and_congr_right fun _ => ⟨fun h => ⟨_, hmost, h⟩, ?_⟩
  rintro ⟨e, he, hcode⟩
  exact MostSevere.unique he hmost ▸ hcode

theorem judgeLine_of_rest (hl : s.ls.line = .stopped ∨ s.ls.line = .stopping ∨ s.ls.line = .tripped) (hd : d = .stop) :
    judgeLine d s = (.done [], s) := by
  rw [judgeLine]
  rcases hl with h | h | h <;> rw [h] <;> exact if_pos hd

theorem judgeLine_of_refused (hl : s.ls.line = .stopping ∨ s.ls.line = .tripped
    ∨ (s.ls.line = .stopped ∧ startAllowed d s = false)) (hd : d ≠ .stop) : judgeLine d s = (.refused .state [], s) := by
  rw [judgeLine]
  rcases hl with h | h | ⟨h, ha⟩
  · rw [h]
    exact if_neg hd
  · rw [h]
    exact if_neg hd
  · rw [h]
    exact (if_neg hd).trans (if_neg (by simp [ha]))

theorem judgeLine_of_start (hl : s.ls.line = .stopped) (ha : startAllowed d s = true) (hd : d ≠ .stop) :
    judgeLine d s = (.done [], startLine d s) := by
  rw [judgeLine, hl]
  exact (if_neg hd).trans (if_pos ha)

theorem judgeLine_of_moving (hl : s.ls.line = .starting ∨ s.ls.line = .running ∨ s.ls.line = .slowed) :
    judgeLine d s = (.done [], changeDesk d s) := by
  rw [judgeLine]
  rcases hl with h | h | h <;> rw [h]

/-- R56: the line starts, its time limit running. -/
theorem startLine_starts (hset : Settled s) :
    (startLine d s).ls.line = .starting ∧ (startLine d s).ls.deskDemand = d ∧ (startLine d s).ls.startTimer = some s.now
      ∧ MostSevere (startLine d s) (startLine d s).ls.effDemand ∧ (startLine d s).ls.faults = s.ls.faults
      ∧ LineOnly s (startLine d s) := by
  have hframe : LineOnly s (enterLine .starting (setDesk d s)) :=
    (setDesk_lineOnly d s).trans (enterLine_lineOnly _ _)
  have hset' := hset.after hframe
  obtain ⟨hline, hdesk, -, hfaults, -, heff, -, -, -, htimer, -⟩ := enterLine_spec .starting (setDesk d s)
  have hls : (startLine d s).ls = (enterLine .starting (setDesk d s)).ls := follow_ls_settled hset'
  have hends : LineState.starting.ends = false := rfl
  simp only [hends, Bool.false_eq_true, if_false] at hdesk hfaults
  refine ⟨?_, ?_, ?_, follow_mostSevere hset' heff, ?_, hframe.trans (follow_lineOnly hset')⟩
  · rw [hls, hline]
  · rw [hls, hdesk]
    rfl
  · rw [hls, htimer, if_pos rfl]
    rfl
  · rw [hls, hfaults]
    rfl

/-- R54, R55: the desk demand, once the demand is formed again: STOP where the line stops, and else as it stood. -/
theorem reform_desk (hl : s.ls.line = .starting ∨ s.ls.line = .running ∨ s.ls.line = .slowed) :
    ((reform s).ls.line = .stopped ∨ (reform s).ls.line = .stopping ∨ (reform s).ls.line = .tripped →
        (reform s).ls.deskDemand = .stop)
      ∧ ((reform s).ls.line = .starting ∨ (reform s).ls.line = .running ∨ (reform s).ls.line = .slowed →
        (reform s).ls.deskDemand = s.ls.deskDemand) := by
  have henter : ∀ (st : LineState) (u : State), st.ends = true → (enterLine st u).ls.deskDemand = .stop := fun st u hst =>
    (enterLine_spec st u).2.1.trans (if_pos hst)
  unfold reform
  extract_lets d _ s1
  split
  · have hstop : (enterStopping s1).ls.deskDemand = .stop := by
      unfold enterStopping
      extract_lets s2
      have h2 : s2.ls.deskDemand = .stop := henter .stopping s1 rfl
      split
      · exact ((enterLine_spec .stopped s2).2.1.trans (if_neg (by decide))).trans h2
      · exact h2
    have hline := (enterStopping_spec s1).1
    refine ⟨fun _ => hstop, fun h => ?_⟩
    rw [hline] at h
    split at h <;> simp at h
  · rename_i st hst htarget
    have hline : (enterLine st s1).ls.line = st := (enterLine_spec st s1).1
    obtain ⟨hst', -⟩ | rfl | ⟨hends, hne, -⟩ := lineTarget_some htarget
    · exact absurd hst' hst
    · refine ⟨fun _ => henter _ _ rfl, fun h => ?_⟩
      rw [hline] at h
      simp at h
    · have hdesk : (enterLine st s1).ls.deskDemand = s.ls.deskDemand :=
        (enterLine_spec st s1).2.1.trans (if_neg (by simp [hends]))
      refine ⟨fun h => ?_, fun _ => hdesk⟩
      rw [hline] at h
      rcases h with rfl | rfl | rfl
      · exact absurd rfl hne
      · cases hends
      · cases hends
  · have hkept : ∀ u : State, u.ls.line = s.ls.line → u.ls.deskDemand = s.ls.deskDemand →
        (u.ls.line = .stopped ∨ u.ls.line = .stopping ∨ u.ls.line = .tripped → u.ls.deskDemand = .stop)
        ∧ (u.ls.line = .starting ∨ u.ls.line = .running ∨ u.ls.line = .slowed → u.ls.deskDemand = s.ls.deskDemand) := by
      intro u hu hd
      refine ⟨fun h => ?_, fun _ => hd⟩
      rw [hu] at h
      rcases hl with hl | hl | hl <;> rw [hl] at h <;> simp at h
    split
    · exact hkept _ (by rw [issueDrive_ls]) (by rw [issueDrive_ls])
    · exact hkept _ rfl rfl

/-- R56: the desk demand changes under a line that moves. -/
theorem changeDesk_changes (hl : s.ls.line = .starting ∨ s.ls.line = .running ∨ s.ls.line = .slowed) (hset : Settled s) :
    (∃ e, MostSevere (setDesk d s) e ∧ (changeDesk d s).ls.line = obeying s.ls.line e s.atRest)
      ∧ ((changeDesk d s).ls.line = .stopped ∨ (changeDesk d s).ls.line = .stopping ∨ (changeDesk d s).ls.line = .tripped →
        (changeDesk d s).ls.deskDemand = .stop)
      ∧ ((changeDesk d s).ls.line = .starting ∨ (changeDesk d s).ls.line = .running ∨ (changeDesk d s).ls.line = .slowed →
        (changeDesk d s).ls.deskDemand = d)
      ∧ MostSevere (changeDesk d s) (changeDesk d s).ls.effDemand ∧ LineOnly s (changeDesk d s) := by
  have hframe : LineOnly s (reform (setDesk d s)) := (setDesk_lineOnly d s).trans (reform_lineOnly _)
  have hset' := hset.after hframe
  obtain ⟨hline, -, -, -, heff⟩ := reform_spec (setDesk d s)
  obtain ⟨hstop, hmove⟩ := reform_desk (s := setDesk d s) hl
  have hls : (changeDesk d s).ls = (reform (setDesk d s)).ls := follow_ls_settled hset'
  refine ⟨⟨_, demandNow_mostSevere _, ?_⟩, ?_, ?_, follow_mostSevere hset' heff, hframe.trans (follow_lineOnly hset')⟩
  · rw [hls]
    exact hline
  · rw [hls]
    exact hstop
  · rw [hls]
    exact hmove

end

/-- Settles O51. -/
theorem lineStateJudgesWritesAndRequests : Obligations.LineStateJudgesWritesAndRequests := by
  intro r rest s k
  refine ⟨?_, ?_, ?_⟩
  · intro bs c e hc hlen he h o answers
    obtain ⟨hi, hbs⟩ := write_fields (bs := bs) 0 hc
    have hrun : ∀ {a t}, writeChannel ([0x03, 0] ++ enc2 c ++ bs) k = (a, t) → answers a.bytes t := fun hj =>
      event_write (judge := writeChannel) h (by rw [hlen]; rfl) hj
    have hallowed : ChanAllowed k c e ↔ ChanAllowed s c e := by
      rw [chanAllowed_iff, chanAllowed_iff]
      rfl
    refine ⟨fun hbad => ?_, ?_⟩
    · exact hrun (writeChannel_of_invalid (s := k) hi hbs
        (validChan_of_range (s := k) he (hbad.imp_right (mt hallowed.1))))
    intro hc48 ha bound
    have hv := validChan_of_allowed (s := k) he hlen hc48 (hallowed.2 ha)
    refine ⟨fun hb => ?_, fun hb => ?_⟩
    · exact hrun (writeChannel_of_invalid (s := k) hi hbs (hv.trans (if_pos (boundChange_iff.1 hb))))
    · replace hv := hv.trans (if_neg fun hn => hb (boundChange_iff.2 hn))
      have hS : chanStructural (k.chan c).entry e = true ↔ ChanStructural o e := chanStructural_iff _ _
      have hL : chanLoosens (k.chan c).entry e = true ↔ ChanLoosens o e := chanLoosens_iff _ _
      obtain ⟨hstate, hwiden, hfree⟩ := narrowing_judged (s := k) hS hL
      obtain ⟨hclear, hkeep⟩ := uncommission_judged (s := k) hS hL (applyChan follow c e k)
      have htaken := fun hn => hrun (a := .done []) (writeChannel_of_taken (s := k) hi hbs hv (hfree hn))
      refine ⟨fun hl hs => hrun (writeChannel_of_narrowed (s := k) hi hbs hv (hstate hl hs)),
        fun hl hs hw => hrun (writeChannel_of_narrowed (s := k) hi hbs hv (hwiden hl hs hw)),
        fun hn hset hstale => ?_, fun hs hcls ht hby hcap => ⟨fun hw => ?_, fun hl hw => ?_⟩⟩
      · have hkept := applyChan_kept (s := k) (settled_of_eq hset rfl rfl rfl) hc48 hstale
        refine ⟨_, htaken hn, ?_, fun hl hm => by rw [hclear hl hm], fun hn => ?_⟩
        · rw [uncommission_chan, hkept.entries, setEntry, chan_setChan_same hc48]
        · rw [hkeep hn, hkept.commissioned]
          rfl
      · have halone := applyChan_of_entry_alone (fl := follow) (s := k) (c := c) (e := e) hs hcls ht hby hcap hc48
        refine (htaken (.inr ⟨hs, hw⟩)).trans ?_
        rw [hkeep (.inr ⟨hs, hw⟩), halone]
        rfl
      · have halone := applyChan_of_entry_alone (fl := follow) (s := k) (c := c) (e := e) hs hcls ht hby hcap hc48
        refine (htaken (.inl hl)).trans ?_
        rw [hclear hl (.inr hw), halone]
        rfl
  · intro bs i hi16 hlen h p o answers
    obtain ⟨hi, hbs⟩ := write_fields (bs := bs) 4 hi16
    have hrun : ∀ {a t}, writeLine ([0x03, 4] ++ enc2 i ++ bs) k = (a, t) → answers a.bytes t := fun hj =>
      event_write (judge := writeLine) h (by rw [hlen]; rfl) hj
    refine ⟨fun hbad => hrun (writeLine_of_invalid (s := k) hi hbs (validLine_of_range hbad)), fun hi0 ha => ?_⟩
    subst hi0
    have hv : validLine 0 bs = .ok p := validLine_of_allowed hlen ha
    have hS : lineStructural k.params p = true ↔ LineStructural o p := lineStructural_iff _ _
    have hL : lineLoosens k.params p = true ↔ LineLoosens o p := lineLoosens_iff _ _
    obtain ⟨hstate, hwiden, hfree⟩ := narrowing_judged (s := k) hS hL
    obtain ⟨hclear, hkeep⟩ := uncommission_judged (s := k) hS hL (applyLine follow p k)
    have htaken := fun hn => hrun (a := .done []) (writeLine_of_taken (s := k) hi hbs hv (hfree hn))
    refine ⟨fun hl hs => hrun (writeLine_of_narrowed (s := k) hi hbs hv (hstate hl hs)),
      fun hl hs hw => hrun (writeLine_of_narrowed (s := k) hi hbs hv (hwiden hl hs hw)),
      fun hn hset => ?_, fun hp ht => ?_⟩
    · have hkept := applyLine_kept (asks := False) (s := k) (p := p) (settled_of_eq hset rfl rfl rfl)
      refine ⟨_, htaken hn, ?_, fun hl hm => by rw [hclear hl hm], fun hn => ?_⟩
      · rw [uncommission_params, hkept.params]
        rfl
      · rw [hkeep hn, hkept.commissioned]
        rfl
    · have hneither : ¬ LineStructural o p ∧ ¬ LineLoosens o p := tolerance_narrows hp ht
      have hline : applyLine follow p k = withParams p k := applyLine_tolerance (s := k) hp
      refine (htaken (.inr hneither)).trans ?_
      rw [hkeep (.inr hneither), hline]
      rfl
  · intro c level d hcase h named allowed refused
    have hk : ∀ x, k.ls.line = x ↔ s.ls.line = x := fun _ => Iff.rfl
    have hrun : ∀ {a t}, judgeLine d k = (a, t) → exec c s = .next (replied r (0x04 :: a.bytes) t) := by
      intro a t hj
      simp only [List.mem_cons, List.not_mem_nil, or_false, Prod.mk.injEq] at hcase
      rcases hcase with ⟨rfl, rfl, rfl⟩ | ⟨rfl, rfl, rfl⟩ | ⟨rfl, rfl, rfl⟩ <;>
        exact event_plain_of_fits h rfl rfl hj
    refine ⟨fun hl hd => ?_, fun hl hd => ?_, fun hl ha hd hset => ?_, fun hl hset => ?_⟩
    · exact hrun (judgeLine_of_rest (s := k) hl hd)
    · refine hrun (judgeLine_of_refused (s := k) (hl.imp_right fun hl => hl.imp_right fun hl => ⟨hl.1, ?_⟩) hd)
      exact Bool.eq_false_iff.2 fun ha => hl.2 (startAllowed_iff.1 ha)
    · have hset' : Settled k := settled_of_eq hset rfl rfl rfl
      exact ⟨_, hrun (a := .done []) (judgeLine_of_start (s := k) hl (startAllowed_iff.2 ha) hd), startLine_starts hset'⟩
    · have hset' : Settled k := settled_of_eq hset rfl rfl rfl
      exact ⟨_, hrun (a := .done []) (judgeLine_of_moving (s := k) hl), changeDesk_changes hl hset'⟩

end Sys2Proof.Machine
end

section
/-! SUPPORT. What an accepted LINE_PARAMS write of one field does beyond the record (R66). -/

namespace Sys2Proof.Machine

open Sys2Proof.Safety

section
variable {p : LineParams} {s : State}

/-! ## Setpoints (R62) -/

theorem driveContent_of_run (h : s.ls.line = .running ∨ (s.ls.line = .starting ∧ s.ls.effDemand = .run)) :
    driveContent s = { level := .run, setpoint := s.params.runSetpoint, line := s.ls.line } := by
  rw [driveContent]
  rcases h with h | ⟨h, hd⟩
  · rw [h]
  · rw [h]
    exact if_pos hd

theorem driveContent_of_slow (h : s.ls.line = .slowed ∨ (s.ls.line = .starting ∧ s.ls.effDemand = .slow)) :
    driveContent s = { level := .slow, setpoint := s.params.slowSetpoint, line := s.ls.line } := by
  rw [driveContent]
  rcases h with h | ⟨h, hd⟩
  · rw [h]
  · rw [h]
    exact if_neg (by rw [hd]; decide)

theorem driveContent_of_still (h1 : s.ls.line ≠ .running) (h2 : s.ls.line ≠ .starting) (h3 : s.ls.line ≠ .slowed) :
    (driveContent s).setpoint = 0 := by
  rw [driveContent]
  cases h : s.ls.line <;> simp_all

/-- R62: a drive request in the record. -/
def driven (d : DriveRecord) (s : State) : State := { s with ls := { s.ls with drive := d } }

theorem issueDrive_eq (s : State) : issueDrive s = sendDrive (driven (driveContent s) s) := rfl

theorem issueDrive_sends {d : DriveRecord} (hd : driveContent s = d) (hone : AtMostOneEach s.lr.safety) :
    (s.params.driveNode = 0 → issueDrive s = refreshed (driven d s))
    ∧ (s.params.driveNode ≠ 0 → ∃ l, Offered (driveFrame s.params.driveNode d) s.lr.safety l
      ∧ issueDrive s = { refreshed (driven d s) with lr := { s.lr with safety := l } }) := by
  subst hd
  refine ⟨fun h0 => sendDrive_of_no_node (s := driven (driveContent s) s) h0, fun h0 => ?_⟩
  obtain ⟨l, hl, hoffer⟩ := offerSafety_offered (driveFrame s.params.driveNode (driveContent s))
    (refreshed (driven (driveContent s) s)) hone
  exact ⟨l, hl, (sendDrive_of_node (s := driven (driveContent s) s) h0).trans hoffer⟩

theorem writeParams_of_same_setpoint (hl : p.loopLen = s.params.loopLen)
    (h : (driveContent (withParams p s)).setpoint = (driveContent s).setpoint) : writeParams p s = withParams p s := by
  simp only [writeParams, hl, ne_eq, not_true_eq_false, if_false]
  exact if_neg (not_not.2 h)

theorem writeParams_of_new_setpoint (hl : p.loopLen = s.params.loopLen)
    (h : (driveContent (withParams p s)).setpoint ≠ (driveContent s).setpoint) :
    writeParams p s = issueDrive (withParams p s) := by
  simp only [writeParams, hl, ne_eq, not_true_eq_false, if_false]
  exact if_pos h

/-! ## The loop length (R17, R91, R148) -/

theorem applyLine_loopLen (hp : p = { s.params with loopLen := p.loopLen }) (hne : p.loopLen ≠ s.params.loopLen)
    (hset : Settled s) : applyLine follow p s = updateRelease (reducePositions (withParams p s)) := by
  have h : ∀ {α : Type} (f : LineParams → α), f p = f { s.params with loopLen := p.loopLen } := fun f => congrArg f hp
  have hcontent : driveContent (reducePositions (withParams p s)) = driveContent s :=
    driveContent_withParams (p := p) (h (·.runSetpoint)) (h (·.slowSetpoint))
  have hwrite : writeParams p s = reducePositions (withParams p s) := by
    simp only [writeParams, if_pos hne.symm]
    exact if_neg (not_not.2 (congrArg DriveRecord.setpoint hcontent))
  have hset' : Settled (reducePositions (withParams p s)) := 
    (reducePositions_kept (asks := False) (s := withParams p s) (settled_of_eq hset rfl rfl rfl)).settled
  have hrelease : s.params.loopLen ≠ p.loopLen ∨ s.params.minSpacing ≠ p.minSpacing := .inl hne.symm
  simp only [applyLine, hwrite, h (·.startTime), h (·.stopTime), h (·.idleSlow), h (·.conveyorNode), h (·.warnNode), ne_eq,
    not_true_eq_false, false_and, if_false]
  exact (if_pos hrelease).trans (evalRelease_settled hset')

/-! ## The time limits (R57, R59) -/

theorem applyLine_startTime (hp : p = { s.params with startTime := p.startTime }) : applyLine follow p s =
    if s.params.startTime ≠ p.startTime ∧ elapsed s.ls.startTimer (p.startTime * 1000) s then
      startTimeout follow (withParams p s) else withParams p s := by
  have h : ∀ {α : Type} (f : LineParams → α), f p = f { s.params with startTime := p.startTime } := fun f => congrArg f hp
  have hwrite := writeParams_of_same_setpoints (h (·.loopLen)) (h (·.runSetpoint)) (h (·.slowSetpoint))
  simp only [applyLine, hwrite, h (·.stopTime), h (·.idleSlow), h (·.conveyorNode), h (·.warnNode), h (·.loopLen),
    h (·.minSpacing), ne_eq, not_true_eq_false, false_and, or_self, if_false]
  rfl

theorem applyLine_stopTime (hp : p = { s.params with stopTime := p.stopTime }) : applyLine follow p s =
    if s.params.stopTime ≠ p.stopTime ∧ elapsed s.ls.stopTimer (p.stopTime * 1000) s then
      stopTimeout follow (withParams p s) else withParams p s := by
  have h : ∀ {α : Type} (f : LineParams → α), f p = f { s.params with stopTime := p.stopTime } := fun f => congrArg f hp
  have hwrite := writeParams_of_same_setpoints (h (·.loopLen)) (h (·.runSetpoint)) (h (·.slowSetpoint))
  simp only [applyLine, hwrite, h (·.startTime), h (·.idleSlow), h (·.conveyorNode), h (·.warnNode), h (·.loopLen),
    h (·.minSpacing), ne_eq, not_true_eq_false, false_and, or_self, if_false]
  rfl

/-! ## N, and the addresses (R64, R81, R106) -/

theorem applyLine_idleSlow (hp : p = { s.params with idleSlow := p.idleSlow }) (hne : p.idleSlow ≠ s.params.idleSlow) :
    applyLine follow p s = applyIdleSlow follow s.params (withParams p s) := by
  have h : ∀ {α : Type} (f : LineParams → α), f p = f { s.params with idleSlow := p.idleSlow } := fun f => congrArg f hp
  have hwrite := writeParams_of_same_setpoints (h (·.loopLen)) (h (·.runSetpoint)) (h (·.slowSetpoint))
  simp only [applyLine, hwrite, h (·.startTime), h (·.stopTime), h (·.conveyorNode), h (·.warnNode), h (·.loopLen),
    h (·.minSpacing), ne_eq, not_true_eq_false, false_and, or_self, if_false]
  exact if_pos hne.symm

theorem applyLine_conveyorNode (hp : p = { s.params with conveyorNode := p.conveyorNode })
    (hne : p.conveyorNode ≠ s.params.conveyorNode) : applyLine follow p s = sendLaunchRel (withParams p s) := by
  have h : ∀ {α : Type} (f : LineParams → α), f p = f { s.params with conveyorNode := p.conveyorNode } :=
    fun f => congrArg f hp
  have hwrite := writeParams_of_same_setpoints (h (·.loopLen)) (h (·.runSetpoint)) (h (·.slowSetpoint))
  simp only [applyLine, hwrite, h (·.startTime), h (·.stopTime), h (·.idleSlow), h (·.warnNode), h (·.loopLen),
    h (·.minSpacing), ne_eq, not_true_eq_false, false_and, or_self, if_false]
  exact if_pos hne.symm

theorem applyLine_warnNode (hp : p = { s.params with warnNode := p.warnNode })
    (hne : p.warnNode ≠ s.params.warnNode) : applyLine follow p s = formWarning (withParams p s) := by
  have h : ∀ {α : Type} (f : LineParams → α), f p = f { s.params with warnNode := p.warnNode } := fun f => congrArg f hp
  have hwrite := writeParams_of_same_setpoints (h (·.loopLen)) (h (·.runSetpoint)) (h (·.slowSetpoint))
  simp only [applyLine, hwrite, h (·.startTime), h (·.stopTime), h (·.idleSlow), h (·.conveyorNode), h (·.loopLen),
    h (·.minSpacing), ne_eq, not_true_eq_false, false_and, or_self, if_false]
  exact if_pos hne.symm

theorem autoSlowPeriod_of_pos {n : Nat} (h : n ≠ 0) : autoSlowPeriod n = some (max 12 n * 5000) := by
  rw [autoSlowPeriod, if_neg h]
  split
  · rw [Nat.max_eq_left (by omega)]
  · rw [Nat.max_eq_right (by omega)]

/-- R64: the auto-slow timer's start set. -/
def autoFrom (x : Option Nat) (s : State) : State := { s with ls := { s.ls with autoSlow := x } }

section
variable {o : LineParams} {t0 : Nat}

theorem applyIdleSlow_of_zero (h : s.params.idleSlow = 0) :
    applyIdleSlow follow o s = gone .line .autoSlow (autoFrom none s) := by
  rw [applyIdleSlow, h]
  rfl

theorem applyIdleSlow_of_pos (h : s.params.idleSlow ≠ 0) : applyIdleSlow follow o s =
    if elapsed s.ls.autoSlow (max 12 s.params.idleSlow * 5000) s then autoSlowOut follow s
    else if s.ls.autoSlow.isNone ∧ o.idleSlow = 0 ∧ (s.ls.line = .running ∨ s.ls.line = .slowed) then
      autoFrom (some s.now) s
    else s := by
  rw [applyIdleSlow, autoSlowPeriod_of_pos h]
  rfl

theorem elapsed_some (t0 d : Nat) : elapsed (some t0) d s = decide (d ≤ s.now - t0) := rfl

theorem applyIdleSlow_of_timer {t0 : Nat} (h : s.params.idleSlow ≠ 0) (ht : s.ls.autoSlow = some t0) :
    applyIdleSlow follow o s =
      if max 12 s.params.idleSlow * 5000 ≤ s.now - t0 then autoSlowOut follow s else s := by
  rw [applyIdleSlow_of_pos h, ht, elapsed_some, if_neg (c := _ ∧ _) fun hc => Bool.noConfusion hc.1]
  simp only [decide_eq_true_eq]

theorem applyIdleSlow_of_no_timer (h : s.params.idleSlow ≠ 0) (ht : s.ls.autoSlow = none)
    (hl : s.ls.line = .running ∨ s.ls.line = .slowed) :
    applyIdleSlow follow o s = if o.idleSlow = 0 then autoFrom (some s.now) s else s := by
  rw [applyIdleSlow_of_pos h, ht, if_neg (show ¬ elapsed none _ s = true from Bool.false_ne_true)]
  simp only [Option.isNone_none, true_and, hl, and_true]

end

theorem formWarning_of_no_node (h : s.params.warnNode = 0) : formWarning s = s := if_pos h

theorem formWarning_of_room (h : s.params.warnNode ≠ 0) (hroom : s.lr.door.length < 8) : formWarning s =
    joinDoor (warnFrame s.params.warnNode s.closingSet) { dropWarning s with
      ds := { (dropWarning s).ds with warnLast := s.closingSet } } :=
  (if_neg h).trans (if_pos (decide_eq_true hroom))

theorem formWarning_of_full (h : s.params.warnNode ≠ 0) (hfull : 8 ≤ s.lr.door.length) : formWarning s =
    { dropWarning s with ds := { (dropWarning s).ds with
      waiting := (dropWarning s).ds.waiting ++ [.warning s.params.warnNode s.closingSet] } } :=
  (if_neg h).trans (if_neg fun hroom => absurd (of_decide_eq_true hroom) (Nat.not_lt.2 hfull))

/-- R106: the closing set by its bits. -/
theorem eq_closingSet_of_bits {set : Byte}
    (h : ∀ i, set.getLsbD i = true ↔ ∃ j, s.isBerth j = true ∧ j = i + 1 ∧ (s.door j).state = .closing) :
    s.closingSet = set := by
  refine BitVec.eq_of_getLsbD_eq fun i hi => ?_
  rw [Bool.eq_iff_iff, h i, getLsbD_closingSet s hi, List.any_eq_true]
  refine ⟨fun ⟨j, hj, hx⟩ => ?_, fun ⟨j, hj, hji, hx⟩ => ⟨j, mem_berthList.2 hj, by rw [hx, hji]; simp⟩⟩
  have hj' := mem_berthList.1 hj
  have := (isBerth_bounds hj').1
  simp only [Bool.and_eq_true, decide_eq_true_eq] at hx
  exact ⟨j, hj', by omega, hx.1⟩

end

/-! ## Writes that neither loosen nor change what STOPPED alone may (R43) -/

section
variable {o p : LineParams}

theorem setpoints_narrow (hp : p = { o with runSetpoint := p.runSetpoint, slowSetpoint := p.slowSetpoint })
    (hr : p.runSetpoint ≤ o.runSetpoint) (hs : p.slowSetpoint ≤ o.slowSetpoint) :
    ¬ LineStructural o p ∧ ¬ LineLoosens o p := by
  rw [hp]
  simp only [LineStructural, LineLoosens, ne_eq, not_true_eq_false, lt_irrefl, or_self, false_or, or_false, not_false_eq_true,
    true_and]
  omega

theorem startTime_narrows (hp : p = { o with startTime := p.startTime }) (ht : p.startTime ≤ o.startTime) :
    ¬ LineStructural o p ∧ ¬ LineLoosens o p := by
  rw [hp]
  simp only [LineStructural, LineLoosens, ne_eq, not_true_eq_false, lt_irrefl, or_self, false_or, or_false, not_false_eq_true,
    true_and]
  omega

theorem stopTime_narrows (hp : p = { o with stopTime := p.stopTime }) (ht : p.stopTime ≤ o.stopTime) :
    ¬ LineStructural o p ∧ ¬ LineLoosens o p := by
  rw [hp]
  simp only [LineStructural, LineLoosens, ne_eq, not_true_eq_false, lt_irrefl, or_self, false_or, or_false, not_false_eq_true,
    true_and]
  omega

theorem idleSlow_narrows (hp : p = { o with idleSlow := p.idleSlow }) (hn : p.idleSlow ≠ 0)
    (ho : o.idleSlow = 0 ∨ max 12 p.idleSlow ≤ max 12 o.idleSlow) : ¬ LineStructural o p ∧ ¬ LineLoosens o p := by
  rw [hp]
  simp only [LineStructural, LineLoosens, ne_eq, not_true_eq_false, lt_irrefl, or_self, false_or, not_false_eq_true, true_and]
  omega

end

section
variable {r : Request} {rest : List Request} {bs : List Byte} {s : State} {p : LineParams}

/-- R42 to R44: an accepted write of LINE_PARAMS, in STOPPED, or where it narrows. -/
theorem event_writeLine (hlen : bs.length = 46) (h : Asked r rest ([0x03, 4, 0, 0] ++ bs) s)
    (hp : LineParams.ofBytes bs = p) (ha : LineAllowed p) :
    (s.ls.line = .stopped → LineStructural s.params p ∨ LineLoosens s.params p →
      exec .writeEntryLineParams s = .next (replied r [0x03, 0, 0] (
        let t := applyLine follow p (keyless (taken rest s))
        { t with ls := { t.ls with commissioned := false } })))
    ∧ (¬ LineStructural s.params p ∧ ¬ LineLoosens s.params p →
      exec .writeEntryLineParams s = .next (replied r [0x03, 0, 0] (applyLine follow p (keyless (taken rest s))))) := by
  subst hp
  let k := keyless (taken rest s)
  have hv := validLine_of_allowed hlen ha
  have hS : lineStructural k.params (LineParams.ofBytes bs) = true ↔ LineStructural s.params (LineParams.ofBytes bs) :=
    lineStructural_iff _ _
  have hL : lineLoosens k.params (LineParams.ofBytes bs) = true ↔ LineLoosens s.params (LineParams.ofBytes bs) :=
    lineLoosens_iff _ _
  obtain ⟨-, -, hfree⟩ := narrowing_judged (s := k) hS hL
  obtain ⟨hclear, hkeep⟩ := uncommission_judged (s := k) hS hL (applyLine follow (LineParams.ofBytes bs) k)
  have hrun := fun hn => event_write (op := 4) (i := 0) (judge := writeLine) (a := .done []) h (by rw [hlen]; rfl)
    (writeLine_of_taken (s := k) (write_fields (bs := bs) 4 (by decide)).1 rfl hv (hfree hn))
  refine ⟨fun hl hm => (hrun (.inl hl)).trans ?_, fun hn => (hrun (.inr hn)).trans ?_⟩
  · rw [hclear hl hm]
    rfl
  · rw [hkeep (.inr hn)]
    rfl

end

/-- Settles O52. -/
theorem lineParamsWriteTakesEffect : Obligations.LineParamsWriteTakesEffect := by
  intro r rest bs s hlen h hset hkept hone p o k w clear answers sends frame ha
  obtain ⟨hclear, hkeep⟩ := event_writeLine hlen h rfl ha
  have hset' : Settled k := settled_of_eq hset rfl rfl rfl
  have hw : Settled w := settled_of_eq hset rfl rfl rfl
  refine ⟨fun hp hne hl => ?_, fun level old new hp hr hs hcase => ?_, fun t0 hp hle hl ht => ⟨fun hn => ?_, fun hout hne => ?_⟩,
    fun t0 hp hle hl ht => ⟨fun hn => ?_, fun hout hne => ?_⟩, ?_, fun hp hne hl => ?_, ?_⟩
  · refine (hclear hl (.inl (.inl hne.symm))).trans ?_
    rw [applyLine_loopLen (s := k) hp hne hset']
    rfl
  · replace hkeep := hkeep (setpoints_narrow hp hr hs)
    have hf : ∀ {α : Type} (f : LineParams → α), f p = f { o with runSetpoint := p.runSetpoint, slowSetpoint := p.slowSetpoint } :=
      fun f => congrArg f hp
    rw [applyLine_of_same (s := k) (hf (·.startTime)) (hf (·.stopTime)) (hf (·.idleSlow)) (hf (·.conveyorNode))
      (hf (·.loopLen)) (hf (·.minSpacing)) (hf (·.warnNode))] at hkeep
    have hcontent : (driveContent w = { level := level, setpoint := new, line := s.ls.line } ∧ (driveContent k).setpoint = old)
        ∨ ((driveContent w).setpoint = (driveContent k).setpoint ∧ old = new) := by
      rcases hcase with ⟨hl, rfl, rfl, rfl⟩ | ⟨hl, rfl, rfl, rfl⟩ | ⟨h1, h2, h3, rfl⟩
      · exact .inl ⟨driveContent_of_run (s := w) hl, congrArg DriveRecord.setpoint (driveContent_of_run (s := k) hl)⟩
      · exact .inl ⟨driveContent_of_slow (s := w) hl, congrArg DriveRecord.setpoint (driveContent_of_slow (s := k) hl)⟩
      · exact .inr ⟨(driveContent_of_still (s := w) h1 h2 h3).trans (driveContent_of_still (s := k) h1 h2 h3).symm, rfl⟩
    refine ⟨fun heq => ?_, fun hne => ?_⟩
    · rw [writeParams_of_same_setpoint (s := k) (hf (·.loopLen)) ?_] at hkeep
      · exact hkeep
      · rcases hcontent with ⟨hnew, hold⟩ | ⟨hsame, -⟩
        · exact (congrArg DriveRecord.setpoint hnew).trans (heq.symm.trans hold.symm)
        · exact hsame
    · obtain ⟨hnew, hold⟩ := hcontent.resolve_right fun hc => hne hc.2
      have hchange : (driveContent (withParams p k)).setpoint ≠ (driveContent k).setpoint := by
        rw [show (driveContent (withParams p k)).setpoint = new from congrArg DriveRecord.setpoint hnew, hold]
        exact hne.symm
      have hdest : (withParams p k).params.driveNode = o.driveNode := hf (·.driveNode)
      rw [writeParams_of_new_setpoint (s := k) (hf (·.loopLen)) hchange] at hkeep
      obtain ⟨hmute, hsend⟩ := issueDrive_sends (s := withParams p k) hnew hone
      rw [hdest] at hmute hsend
      refine ⟨fun h0 => ?_, fun h0 => ?_⟩
      · rw [hmute h0] at hkeep
        exact hkeep
      · obtain ⟨l, hl, hoffer⟩ := hsend h0
        rw [hoffer] at hkeep
        exact ⟨l, hl, hkeep⟩
  · have hwrite := applyLine_startTime (s := k) hp
    rw [hwrite, if_neg] at hkeep
    · exact hkeep (startTime_narrows hp hle)
    · rw [show k.ls.startTimer = some t0 from ht, elapsed_some, decide_eq_true_eq]
      rintro ⟨hne, hout⟩
      rcases hn with hn | hn
      · exact absurd hout (Nat.not_le.2 hn)
      · exact hne hn.symm
  · have hwrite := applyLine_startTime (s := k) hp
    rw [hwrite, if_pos] at hkeep
    · exact ⟨_, hkeep (startTime_narrows hp hle), raise_raised _ hw⟩
    · rw [show k.ls.startTimer = some t0 from ht, elapsed_some, decide_eq_true_eq]
      exact ⟨hne.symm, hout⟩
  · have hwrite := applyLine_stopTime (s := k) hp
    rw [hwrite, if_neg] at hkeep
    · exact hkeep (stopTime_narrows hp hle)
    · rw [show k.ls.stopTimer = some t0 from ht, elapsed_some, decide_eq_true_eq]
      rintro ⟨hne, hout⟩
      rcases hn with hn | hn
      · exact absurd hout (Nat.not_le.2 hn)
      · exact hne hn.symm
  · have hwrite := applyLine_stopTime (s := k) hp
    rw [hwrite, if_pos] at hkeep
    · exact ⟨_, hkeep (stopTime_narrows hp hle), raise_raised _ hw⟩
    · rw [show k.ls.stopTimer = some t0 from ht, elapsed_some, decide_eq_true_eq]
      exact ⟨hne.symm, hout⟩
  · intro hp hne period auto
    have hwrite := applyLine_idleSlow (s := k) hp hne
    rw [hwrite] at hclear hkeep
    refine ⟨fun hl hn hle => ?_, fun hl hn => ?_⟩
    · replace hkeep := hkeep (idleSlow_narrows hp hn (hle.imp_right fun h => Nat.le_of_mul_le_mul_right h (by decide)))
      refine ⟨fun t0 ht => ?_, fun ht => ?_⟩
      · rw [applyIdleSlow_of_timer (s := withParams p k) hn ht] at hkeep
        refine ⟨fun hlt => ?_, fun hout => ?_⟩
        · rw [if_neg (show ¬ max 12 (withParams p k).params.idleSlow * 5000 ≤ (withParams p k).now - t0 from
            Nat.not_le.2 hlt)] at hkeep
          exact hkeep
        · rw [if_pos (show max 12 (withParams p k).params.idleSlow * 5000 ≤ (withParams p k).now - t0 from hout)] at hkeep
          exact ⟨_, hkeep, raise_raised _ (settled_of_eq hw rfl rfl rfl)⟩
      · rw [applyIdleSlow_of_no_timer (s := withParams p k) hn ht hl] at hkeep
        refine ⟨fun h0 => ?_, fun h0 => ?_⟩
        · rw [if_pos (show k.params.idleSlow = 0 from h0)] at hkeep
          exact hkeep
        · rw [if_neg (show k.params.idleSlow ≠ 0 from h0)] at hkeep
          exact hkeep
    · have ho : o.idleSlow ≠ 0 := fun h => hne (hn.trans h.symm)
      have hloosens : LineLoosens o p := by
        simp only [LineLoosens]
        tauto
      rw [applyIdleSlow_of_zero (s := withParams p k) hn] at hclear
      exact ⟨_, hclear hl (.inr hloosens), gone_withdrawn _ _ (settled_of_eq hw rfl rfl rfl)⟩
  · replace hclear := hclear hl (.inl (by simp only [LineStructural]; tauto))
    rw [applyLine_conveyorNode (s := k) hp hne] at hclear
    refine ⟨fun h0 => ?_, fun h0 => ?_⟩
    · rw [sendLaunchRel_of_no_node (s := withParams p k) h0] at hclear
      exact hclear
    · obtain ⟨l, hl, hoffer⟩ := offerSafety_offered (launchFrame p.conveyorNode s.ct.release s.ct.releaseCabin)
        (withParams p k) hone
      rw [sendLaunchRel_of_node (s := withParams p k) h0] at hclear
      exact ⟨l, hl, hclear.trans (congrArg (fun x => Host.Outcome.next (replied r _ (clear x))) hoffer)⟩
  · intro set hbits hp hne hl others
    replace hclear := hclear hl (.inl (by simp only [LineStructural]; tauto))
    rw [applyLine_warnNode (s := k) hp hne] at hclear
    have hset : (withParams p k).closingSet = set := eq_closingSet_of_bits hbits
    refine ⟨fun h0 => ?_, fun h0 hroom => ?_, fun h0 hfull => ?_⟩
    · rw [formWarning_of_no_node (s := withParams p k) h0] at hclear
      exact hclear
    · rw [formWarning_of_room (s := withParams p k) h0 hroom, hset] at hclear
      have hframe : warnFrame p.warnNode set = frame p.warnNode .warn [if set = 0 then 0 else 1, set] := by
        by_cases h : set = 0 <;> simp [warnFrame, qframe, encMark, frame, h]
      rw [show warnFrame (withParams p k).params.warnNode set = _ from hframe] at hclear
      exact hclear
    · rw [formWarning_of_full (s := withParams p k) h0 hfull, hset] at hclear
      exact hclear

end Sys2Proof.Machine
end

section
/-! SUPPORT. The loader: the descriptor, a record read, and where the load goes on (chapter 11). -/

namespace Sys2Proof.Machine

open Sys2Proof.Safety

/-! ## A record's bytes (R212) -/

theorem MemRecord.ofBytes_bytes (r : MemRecord) : MemRecord.ofBytes r.bytes = some r := by
  have hindex : r.index.extractLsb' 8 8 ++ r.index.extractLsb' 0 8 = r.index := by
    refine (BitVec.extractLsb'_append_extractLsb'_eq_extractLsb' (x := r.index) (show 8 = 0 + 8 from rfl)).trans ?_
    exact BitVec.extractLsb'_eq_self
  exact congrArg (fun i => some (MemRecord.mk r.tableId i r.length r.contents)) hindex

/-- A record with its header alone read (R199). -/
def MemRecord.headed (r : MemRecord) : MemRecord := { r with contents := [] }

theorem MemRecord.ofBytes_header (r : MemRecord) : MemRecord.ofBytes r.header = some r.headed :=
  MemRecord.ofBytes_bytes r.headed

section
variable {r : MemRecord} {seg addr : Nat} {s : State}

theorem usable_iff : usable seg r = true
    ↔ segmentHolds seg r.tableId.toNat = true ∧ entryLength r.tableId.toNat = some r.length.toNat := by
  rw [usable, Bool.and_eq_true, beq_iff_eq]

theorem fetched_header (h : ¬ (r.next addr ≤ (s.segment seg).2 ∧ usable seg r = true)) :
    fetched seg addr r.headed s = true :=
  beq_iff_eq.2 (if_neg h).symm

theorem fetched_bytes (hlen : r.contents.length = r.length.toNat) (hnext : r.next addr ≤ (s.segment seg).2)
    (hu : usable seg r = true) : fetched seg addr r s = true :=
  beq_iff_eq.2 (hlen.trans (if_pos ⟨hnext, hu⟩).symm)

/-! ## Where the start-up load goes on (R200) -/

/-- R200: the loader at the record at an address of a segment. -/
def atRecord (seg addr : Nat) (rest : List Nat) (s : State) : State :=
  { s with cl := { s.cl with phase := .segment seg addr rest } }

theorem segment_congr {t : State} (h : t.cl.pointers = s.cl.pointers) (i : Nat) : t.segment i = s.segment i := by
  rw [State.segment, h, State.segment]

theorem nextSegment_of_record {i : Nat} {rest : List Nat} (h : (s.segment i).1 + 4 ≤ (s.segment i).2) :
    nextSegment (i :: rest) s = atRecord i (s.segment i).1 rest s := by
  have hne : (s.segment i).1 ≠ (s.segment i).2 := by omega
  exact (if_neg hne).trans (if_neg (Nat.not_lt.2 h))

theorem nextSegment_nil (hl : s.sl.link = .down) (hp : s.cl.pending = none) :
    nextSegment [] s = loadEnded (if s.cl.skip = 0 then .complete else .skipped) s := loadEnd_eq_loadEnded _ hl hp

theorem advance_of_room {rest : List Nat} (h : addr + 4 ≤ (s.segment seg).2) :
    advance seg addr rest s = atRecord seg addr rest s :=
  (if_neg (by omega)).trans (if_neg (Nat.not_lt.2 h))

theorem advance_of_stop {rest : List Nat} (h : addr = (s.segment seg).2) : advance seg addr rest s = nextSegment rest s :=
  if_pos h

section
variable {rest : List Nat} (hload : s.cl.load = .loading)
  (hphase : s.cl.phase = .segment seg addr rest)
include hload hphase

theorem configRecord_of_fetched (hf : fetched seg addr r s = true) :
    configRecord r s = if (s.segment seg).2 < r.next addr then nextSegment rest (skipOne s)
      else advance seg (r.next addr) rest (applyOrSkip seg r s) := by
  simp only [configRecord, hload, hphase, hf, Bool.not_true, Bool.false_eq_true, if_false]

variable (hpin : s.resetHeld = false)
include hpin

/-- R201: a record past the stop address, its header alone read. -/
theorem exec_record_past (h : (s.segment seg).2 < r.next addr) :
    exec (.configRecordRead r.header) s = .next (nextSegment rest (skipOne s)) := by
  refine (event_of_released hpin _).trans (congrArg Host.Outcome.next ?_)
  rw [withRecord, MemRecord.ofBytes_header]
  exact (configRecord_of_fetched hload hphase (fetched_header fun hn => by omega)).trans (if_pos h)

/-- R200, R201: an unusable record, its header alone read. -/
theorem exec_record_unusable (hu : usable seg r = false) (h : r.next addr ≤ (s.segment seg).2) :
    exec (.configRecordRead r.header) s = .next (advance seg (r.next addr) rest (skipOne s)) := by
  refine (event_of_released hpin _).trans (congrArg Host.Outcome.next ?_)
  rw [withRecord, MemRecord.ofBytes_header]
  refine (configRecord_of_fetched hload hphase (fetched_header fun hn => ?_)).trans ?_
  · rw [hu] at hn
    exact Bool.noConfusion hn.2
  · refine (if_neg (Nat.not_lt.2 h)).trans ?_
    rw [applyOrSkip, show usable seg r.headed = false from hu]
    rfl

/-- R201: a usable record that its owner finds valid. -/
theorem exec_record_applied {t : State} (hu : usable seg r = true) (hlen : r.contents.length = r.length.toNat)
    (h : r.next addr ≤ (s.segment seg).2) (ht : applyRecord r s = some t) :
    exec (.configRecordRead r.bytes) s = .next (advance seg (r.next addr) rest t) := by
  refine (event_of_released hpin _).trans (congrArg Host.Outcome.next ?_)
  rw [withRecord, MemRecord.ofBytes_bytes]
  refine (configRecord_of_fetched hload hphase (fetched_bytes hlen h hu)).trans ?_
  refine (if_neg (Nat.not_lt.2 h)).trans ?_
  rw [applyOrSkip, if_pos hu, ht]
  rfl

end

/-! ## The records of each table (R201) -/

theorem applyRecord_chan {e : ChanEntry} (htable : r.tableId = 0) (h : validChan r.index.toNat r.contents s = .ok e) :
    applyRecord r s = some (applyChan follow r.index.toNat e s) := by
  rw [applyRecord, htable, h]
  rfl

theorem applyRecord_berth {e : BerthEntry} (htable : r.tableId = 1)
    (h : validBerth true r.index.toNat r.contents s = .ok e) :
    applyRecord r s = some (applyBerth r.index.toNat e s) := by
  rw [applyRecord, htable, h]
  rfl

theorem applyRecord_fleet {t : State} (htable : r.tableId = 2)
    (h : fleetWrite true r.index.toNat (u16 r.contents 0) s = .ok t) : applyRecord r s = some t := by
  rw [applyRecord, htable, h]
  rfl

theorem applyRecord_phone {e : Phone} (htable : r.tableId = 3) (h : validPhone r.index.toNat r.contents s = .ok e) :
    applyRecord r s = some (applyPhone r.index.toNat e s) := by
  rw [applyRecord, htable, h]
  rfl

theorem applyRecord_line {p : LineParams} (htable : r.tableId = 4) (h : validLine r.index.toNat r.contents = .ok p) :
    applyRecord r s = some (applyLine follow p s) := by
  rw [applyRecord, htable, h]
  rfl

/-- R70, R201: the loader registers a cabin as UNPLACED. -/
theorem fleetWrite_of_loader {slot id : Nat} (hs : slot < 160) (hid : id ≤ 999) (hid' : 1 ≤ id)
    (hslot : s.ct.fleet[slot]?.getD none = none) (hreg : s.registered id = false) (hq : ∀ c ∈ s.ct.queue, c.id ≠ id) :
    fleetWrite true slot id s = .ok (setSlot slot (some { id := id, location := .unplaced }) s) := by
  have hany : s.ct.queue.any (fun c => c.id == id) = false := by
    rw [List.any_eq_false]
    exact fun c hc => by simpa using hq c hc
  rw [fleetWrite, if_neg (by omega), hslot]
  refine (if_neg (by omega)).trans (if_neg ?_)
  rw [hreg, hany]
  rintro (h | h) <;> exact Bool.noConfusion h

theorem validBerth_isBerth {loader : Bool} {j : Nat} {bs : List Byte} {e : BerthEntry}
    (h : validBerth loader j bs s = .ok e) : s.isBerth j = true := by
  unfold validBerth at h
  split at h
  · cases h
  · dsimp only at h
    split_ifs at h with hbad
    by_contra hj
    exact hbad (.inl (by simp [hj]))

/-- R94: the berth has its new entry, and CL stands. -/
theorem applyBerth_entry {j : Nat} {e : BerthEntry} (hset : Settled s) (hj : s.isBerth j = true) :
    ((applyBerth j e s).berth j).entry = e ∧ (applyBerth j e s).cl = s.cl := by
  have hentry : ∀ d, ((setBerth j { entry := e, door := d } s).berth j).entry = e := fun d => by
    rw [berth_setBerth_same (isBerth_bounds hj).2]
  by_cases hn : (s.berth j).entry.doorNode = e.doorNode
  · rw [applyBerth_of_same_node hn]
    exact ⟨hentry _, rfl⟩
  · rw [show applyBerth j e s = gone (.berth j) .doorFault
      (setBerth j { entry := e, door := (passDoor j e s).refitted } s) from if_pos hn]
    have hline := gone_lineOnly (.berth j) .doorFault
      (s := setBerth j { entry := e, door := (passDoor j e s).refitted } s) (settled_of_eq hset rfl rfl rfl)
    exact ⟨(hline.entries j).trans (hentry _), hline.others .cl (by decide)⟩

end

theorem usable_of_table {r : MemRecord} {seg : Nat} {table n : Byte} (ht : r.tableId = table) (hn : r.length = n)
    (h : segmentHolds seg table.toNat = true ∧ entryLength table.toNat = some n.toNat) : usable seg r = true := by
  subst ht hn
  exact usable_iff.2 h

theorem segmentHolds_berth {seg : Nat} (h2 : 2 ≤ seg) (h5 : seg ≤ 5) : segmentHolds seg tableBerth = true := by
  interval_cases seg <;> rfl

section
variable {bs : List Byte} {s : State} (hload : s.cl.load = .loading) (hphase : s.cl.phase = .descriptor)

theorem exec_descriptor (hpin : s.resetHeld = false) (hlen : bs.length = 42) :
    exec (.descriptorRead (some bs)) s = .next (descriptorRead (some bs) s) :=
  (event_of_released hpin _).trans (congrArg Host.Outcome.next (if_pos (beq_iff_eq.2 hlen)))

include hload hphase

theorem descriptorRead_of_bad (h : parseDescriptor bs = none) :
    descriptorRead (some bs) s = loadEnd .badSignature s := by
  simp only [descriptorRead, hload, hphase, h]

theorem descriptorRead_of_good {ps : List (Nat × Nat)} (h : parseDescriptor bs = some ps) :
    descriptorRead (some bs) s = nextSegment s.startSegments { s with cl := { s.cl with pointers := some ps } } := by
  rw [descriptorRead, hload, hphase]
  dsimp only
  rw [h]

end

/-- Settles O14. -/
theorem startUpLoadJudged : Obligations.StartUpLoadJudged := by
  refine ⟨fun s hpin hload hphase hl hp => ⟨?_, fun bs hlen hsig => ?_, fun bs hlen hsig hroom => ?_⟩,
    fun r seg addr rest s hpin hload hphase => ?_, fun s hpin hp => ⟨fun hload hphase hl => ?_,
      fun seg addr rest hload hphase hl => ?_, fun p addr hload hprofile => ?_⟩⟩
  · refine (event_of_released hpin _).trans ?_
    simp only [Instr.wellFormed, if_true, descriptorRead, hload, hphase]
    rw [loadEnd_eq_loadEnded _ hl hp]
  · rw [exec_descriptor hpin hlen, descriptorRead_of_bad hload hphase (if_neg hsig)]
    exact congrArg Host.Outcome.next (loadEnd_eq_loadEnded _ hl hp)
  · rw [exec_descriptor hpin hlen, descriptorRead_of_good hload hphase (if_pos hsig)]
    exact congrArg Host.Outcome.next (nextSegment_of_record hroom)
  · intro next stop unusable skipped goesOn
    have hunusable : unusable → usable seg r = false := fun hu => by
      rw [← Bool.not_eq_true, usable_iff, not_and_or, Bool.not_eq_true]
      exact hu
    have happlied : ∀ {t : State}, usable seg r = true → r.contents.length = r.length.toNat → next + 4 ≤ stop →
        applyRecord r s = some t → t.cl.pointers = s.cl.pointers →
        exec (.configRecordRead r.bytes) s = .next (atRecord seg next rest t) := fun {t} hu hlen hroom ht hptr => by
      refine (exec_record_applied hload hphase hpin hu hlen (Nat.le_of_add_right_le hroom) ht).trans ?_
      refine congrArg Host.Outcome.next (advance_of_room ?_)
      rw [segment_congr hptr]
      exact hroom
    refine ⟨fun i more hrest hpast hroom => ?_, fun hu hroom => ?_, fun hrest hl hp hu hstop => ?_, fun hlen hroom => ?_,
      fun e hlen hseg htable hn hv hrest hstop hskip hl hp => ?_⟩
    · rw [exec_record_past hload hphase hpin hpast, hrest]
      exact congrArg Host.Outcome.next (nextSegment_of_record (s := skipOne s) hroom)
    · rw [exec_record_unusable hload hphase hpin (hunusable hu) (Nat.le_of_add_right_le hroom)]
      exact congrArg Host.Outcome.next (advance_of_room (s := skipOne s) hroom)
    · have hcount : bump s.cl.skip ≠ 0 := by
        rw [bump]
        omega
      rw [exec_record_unusable hload hphase hpin (hunusable hu) hstop.ge, hrest,
        advance_of_stop (s := skipOne s) (show r.next addr = stop from hstop.symm), nextSegment_nil (s := skipOne s) hl hp, if_neg (show (skipOne s).cl.skip ≠ 0 from hcount)]
      rfl
    · intro i
      refine ⟨fun hseg htable hn hi hslot hid1 hid hreg hq => ?_, fun e hseg htable hn hv => ?_,
        fun e h2 h5 htable hn hv hnode hmode => ?_, fun hset => ⟨fun e h2 h5 htable hn hv => ?_,
          fun e hseg htable hn hv hstale => ?_, fun p hseg htable hn hv => ?_⟩⟩
      · have hu : usable seg r = true := usable_of_table htable hn (by rw [hseg]; decide)
        exact happlied hu hlen hroom (applyRecord_fleet htable (fleetWrite_of_loader hi hid hid1 hslot hreg hq)) rfl
      · have hu : usable seg r = true := usable_of_table htable hn (by rw [hseg]; decide)
        exact happlied hu hlen hroom (applyRecord_phone htable hv) rfl
      · have hu : usable seg r = true := usable_of_table htable hn ⟨segmentHolds_berth h2 h5, rfl⟩
        have happly := applyRecord_berth htable hv
        rw [applyBerth_of_same hmode hnode] at happly
        exact happlied hu hlen hroom happly rfl
      · have hu : usable seg r = true := usable_of_table htable hn ⟨segmentHolds_berth h2 h5, rfl⟩
        obtain ⟨hentry, hcl⟩ := applyBerth_entry (e := e) hset (validBerth_isBerth hv)
        refine ⟨_, happlied hu hlen hroom (applyRecord_berth htable hv) (congrArg Loader.pointers hcl), hentry, ?_⟩
        rw [atRecord, hcl]
      · have hu : usable seg r = true := usable_of_table htable hn (by rw [hseg]; decide)
        have hkept := applyChan_kept hset (validChan_lt hv) hstale
        have hcl := hkept.loading hload
        refine ⟨_, happlied hu hlen hroom (applyRecord_chan htable hv) (congrArg Loader.pointers hcl :), ?_, rfl,
          (congrArg Loader.skip hcl :)⟩
        exact (hkept.entries i).trans (by rw [setEntry, chan_setChan_same (validChan_lt hv)])
      · have hu : usable seg r = true := usable_of_table htable hn (by rw [hseg]; decide)
        have hkept := applyLine_kept (asks := False) (p := p) hset
        have hcl := hkept.loader not_false
        refine ⟨_, happlied hu hlen hroom (applyRecord_line htable hv) (congrArg Loader.pointers hcl), hkept.params, ?_⟩
        rw [atRecord, hcl]
        rfl
    · have hu : usable seg r = true := usable_of_table htable hn (by rw [hseg]; decide)
      rw [exec_record_applied hload hphase hpin hu hlen hstop.ge (applyRecord_phone htable hv), hrest,
        advance_of_stop (s := applyPhone r.index.toNat e s) (show r.next addr = stop from hstop.symm),
        nextSegment_nil (s := applyPhone r.index.toNat e s) hl hp, if_pos (show (applyPhone _ e s).cl.skip = 0 from hskip)]
      rfl
  · refine (event_of_released hpin _).trans ?_
    simp only [readFail, hload, hphase]
    rw [loadEnd_eq_loadEnded _ hl hp]
  · refine (event_of_released hpin _).trans ?_
    simp only [readFail, hload, hphase]
    rw [loadEnd_eq_loadEnded _ hl hp]
  · refine (event_of_released hpin _).trans ?_
    simp only [readFail, hload, hprofile, afterProfile, hp]

end Sys2Proof.Machine
end

section
/-! SUPPORT. Profile records staged, and profile entries applied, deferred or dropped (R46, R204, R205). -/

namespace Sys2Proof.Machine

open Sys2Proof.Safety

/-! ## Staging (R204) -/

section
variable {r : MemRecord} {p : Profile} {addr : Nat} {s : State}

theorem usable_profile_iff : usable p.segment r = true
    ↔ (r.tableId = 0 ∧ r.length = 21) ∨ (r.tableId = 4 ∧ r.length = 46) := by
  have hholds : segmentHolds p.segment r.tableId.toNat = true ↔ r.tableId.toNat = 0 ∨ r.tableId.toNat = 4 := by
    cases p <;> simp only [Profile.segment, segmentHolds, Bool.or_eq_true, beq_iff_eq, tableChannel, tableLineParams]
  have hbyte : ∀ (b n : Byte), b.toNat = n.toNat ↔ b = n := fun b n => BitVec.toNat_inj
  rw [usable_iff, hholds, show (0 : Nat) = (0 : Byte).toNat from rfl, show (4 : Nat) = (4 : Byte).toNat from rfl, hbyte,
    hbyte, or_and_right]
  refine or_congr (and_congr_right fun ht => ?_) (and_congr_right fun ht => ?_)
  · rw [ht, ← hbyte]
    exact Option.some_inj.trans eq_comm
  · rw [ht, ← hbyte]
    exact Option.some_inj.trans eq_comm

theorem profileRecord_of_fetched (hprofile : s.cl.profile = .reading p addr) (hf : fetched p.segment addr r s = true)
    (hnext : r.next addr ≤ (s.segment p.segment).2) : profileRecord r s =
      if r.next addr = (s.segment p.segment).2 then applying p (stage p.segment r s)
      else if (s.segment p.segment).2 < r.next addr + 4 then applying p (skipProfile (stage p.segment r s))
      else { stage p.segment r s with cl := { (stage p.segment r s).cl with profile := .reading p (r.next addr) } } := by
  simp only [profileRecord, hprofile, hf, Bool.not_true, Bool.false_eq_true, if_false, if_neg (Nat.not_lt.2 hnext)]

theorem stage_of_unusable (h : usable p.segment r = false) : stage p.segment r s = skipProfile s :=
  if_neg fun hn => by simp [h] at hn

theorem stage_of_full (h : 64 ≤ s.cl.staging.length) : stage p.segment r s = skipProfile s :=
  if_neg fun hn => absurd hn.2 (Nat.not_lt.2 h)

theorem stage_of_room (hu : usable p.segment r = true) (h : s.cl.staging.length < 64) :
    stage p.segment r s = { s with cl := { s.cl with staging := s.cl.staging ++ [r] } } := if_pos ⟨hu, h⟩

/-- R205: an application with entries staged begins. -/
theorem applying_of_staged (h : s.cl.staging ≠ []) : applying p s =
    { s with cl := { s.cl with profile := .applying p }, cm := { s.cm with deferred := [] } } := by
  have henter : enterApplying p s =
      { s with cl := { s.cl with profile := .applying p }, cm := { s.cm with deferred := [] } } :=
    if_neg fun he => h (List.isEmpty_iff.1 he)
  rw [applying, henter]
  exact if_neg nofun

section
variable (hpin : s.resetHeld = false) (hprofile : s.cl.profile = .reading p addr)
include hpin hprofile

theorem exec_profile_bytes (hu : usable p.segment r = true) (hlen : r.contents.length = r.length.toNat)
    (hnext : r.next addr ≤ (s.segment p.segment).2) : exec (.profileRecordRead r.bytes) s = .next (
      if r.next addr = (s.segment p.segment).2 then applying p (stage p.segment r s)
      else if (s.segment p.segment).2 < r.next addr + 4 then applying p (skipProfile (stage p.segment r s))
      else { stage p.segment r s with cl := { (stage p.segment r s).cl with profile := .reading p (r.next addr) } }) := by
  refine (event_of_released hpin _).trans (congrArg Host.Outcome.next ?_)
  rw [withRecord, MemRecord.ofBytes_bytes]
  exact profileRecord_of_fetched hprofile (fetched_bytes hlen hnext hu) hnext

theorem exec_profile_header (hu : usable p.segment r = false) (hroom : r.next addr + 4 ≤ (s.segment p.segment).2) :
    exec (.profileRecordRead r.header) s = .next { skipProfile s with
      cl := { (skipProfile s).cl with profile := .reading p (r.next addr) } } := by
  refine (event_of_released hpin _).trans (congrArg Host.Outcome.next ?_)
  have hfetched : fetched p.segment addr r.headed s = true := fetched_header fun hn => by simp [hu] at hn
  have hstage : stage p.segment r.headed s = skipProfile s := stage_of_unusable (r := r.headed) hu
  rw [withRecord, MemRecord.ofBytes_header]
  refine (profileRecord_of_fetched hprofile hfetched (Nat.le_of_add_right_le hroom)).trans ?_
  rw [hstage]
  exact (if_neg (Nat.ne_of_lt (by exact Nat.lt_of_lt_of_le (Nat.lt_add_of_pos_right (by decide)) hroom))).trans
    (if_neg (Nat.not_lt.2 hroom))

end

end

/-! ## Entries judged (R46) -/

section
variable {i : Nat} {bs : List Byte} {r : MemRecord} {s : State}

theorem validChan_ok_iff {e : ChanEntry} : validChan i bs s = .ok e
    ↔ i < 48 ∧ bs.length = 21 ∧ ChanEntry.ofBytes bs = some e ∧ ChanAllowed s i e ∧ ¬ BoundChange i e s := by
  constructor
  · intro h
    have hi := validChan_lt h
    cases he : ChanEntry.ofBytes bs with
    | none =>
      rw [validChan, he] at h
      cases h
    | some x =>
      by_cases hlen : bs.length = 21
      · by_cases ha : ChanAllowed s i x
        · rw [validChan_of_allowed he hlen hi ha] at h
          split_ifs at h with hbound
          cases h
          exact ⟨hi, hlen, rfl, ha, fun hb => hbound (boundChange_iff.1 hb)⟩
        · rw [validChan_of_range he (.inr ha)] at h
          cases h
      · rw [validChan, he] at h
        dsimp only at h
        rw [if_pos (Or.inr (Or.inl hlen))] at h
        cases h
  · rintro ⟨hi, hlen, he, ha, hb⟩
    rw [validChan_of_allowed he hlen hi ha, if_neg fun hn => hb (boundChange_iff.2 hn)]

theorem validLine_ok_iff {p : LineParams} : validLine i bs = .ok p
    ↔ i = 0 ∧ bs.length = 46 ∧ LineAllowed (LineParams.ofBytes bs) ∧ LineParams.ofBytes bs = p := by
  rw [validLine]
  split_ifs with h
  · exact ⟨fun hp => ⟨h.1, h.2.1, (lineAllowed_iff (LineParams.ofBytes bs)).2 h.2.2, Except.ok.inj hp⟩,
      fun hp => congrArg Except.ok hp.2.2.2⟩
  · exact ⟨nofun, fun hp => absurd ⟨hp.1, hp.2.1, (lineAllowed_iff (LineParams.ofBytes bs)).1 hp.2.2.1⟩ h⟩

theorem profileEntry_of_invalid (h : validEntry r s = false) : profileEntry r s = s := if_pos (by rw [h]; rfl)

/-- R46: an entry for the deferred list. -/
def deferEntry (r : MemRecord) (s : State) : State := { s with cm := { s.cm with deferred := s.cm.deferred ++ [r] } }

theorem profileEntry_deferred (h : validEntry r s = true) (hl : s.ls.line ≠ .stopped) (ht : ¬ tightens r s = true) :
    profileEntry r s = deferEntry r s :=
  (if_neg (by rw [h]; exact Bool.false_ne_true)).trans (if_neg fun hn => hn.elim hl ht)

theorem profileEntry_taken (h : validEntry r s = true) (ht : s.ls.line = .stopped ∨ tightens r s = true) :
    profileEntry r s = applyLoaded follow r s :=
  (if_neg (by rw [h]; exact Bool.false_ne_true)).trans (if_pos ht)

section
variable {e : ChanEntry} (htable : r.tableId = 0)
include htable

theorem validEntry_chan : validEntry r s = (validChan r.index.toNat r.contents s).toOption.isSome :=
  if_pos (by rw [htable]; rfl)

variable (hv : validChan r.index.toNat r.contents s = .ok e)
include hv

theorem tightens_chan : tightens r s = true ↔ ¬ ChanStructural (s.chan r.index.toNat).entry e
    ∧ ¬ ChanLoosens (s.chan r.index.toNat).entry e := by
  rw [tightens, if_pos (by rw [htable]; rfl), hv, ← chanStructural_iff, ← chanLoosens_iff]
  simp only [Bool.and_eq_true, Bool.not_eq_true', Bool.not_eq_true]

theorem profileEntry_chan_deferred (hl : s.ls.line ≠ .stopped)
    (hn : ChanStructural (s.chan r.index.toNat).entry e ∨ ChanLoosens (s.chan r.index.toNat).entry e) :
    profileEntry r s = deferEntry r s := by
  refine profileEntry_deferred (by rw [validEntry_chan htable, hv]; rfl) hl fun ht => ?_
  obtain ⟨hs, hw⟩ := (tightens_chan htable hv).1 ht
  exact hn.elim hs hw

theorem profileEntry_chan_taken (hn : s.ls.line = .stopped ∨ (¬ ChanStructural (s.chan r.index.toNat).entry e
    ∧ ¬ ChanLoosens (s.chan r.index.toNat).entry e)) :
    profileEntry r s = applyChan follow r.index.toNat e s := by
  refine (profileEntry_taken (by rw [validEntry_chan htable, hv]; rfl) (hn.imp_right (tightens_chan htable hv).2)).trans ?_
  rw [applyLoaded, if_pos (by rw [htable]; rfl), hv]

end

section
variable {p : LineParams} (htable : r.tableId = 4)
include htable

theorem validEntry_line : validEntry r s = (validLine r.index.toNat r.contents).toOption.isSome :=
  if_neg (by rw [htable]; decide)

theorem tightens_line : tightens r s = true ↔ ¬ LineStructural s.params (LineParams.ofBytes r.contents)
    ∧ ¬ LineLoosens s.params (LineParams.ofBytes r.contents) := by
  rw [tightens, if_neg (by rw [htable]; decide), ← lineStructural_iff, ← lineLoosens_iff]
  simp only [Bool.and_eq_true, Bool.not_eq_true', Bool.not_eq_true]

variable (hv : validLine r.index.toNat r.contents = .ok (LineParams.ofBytes r.contents))
include hv

theorem profileEntry_line_deferred (hl : s.ls.line ≠ .stopped) (hn : LineStructural s.params (LineParams.ofBytes r.contents)
    ∨ LineLoosens s.params (LineParams.ofBytes r.contents)) : profileEntry r s = deferEntry r s := by
  refine profileEntry_deferred (by rw [validEntry_line htable, hv]; rfl) hl fun ht => ?_
  obtain ⟨hs, hw⟩ := (tightens_line htable).1 ht
  exact hn.elim hs hw

theorem profileEntry_line_taken (hn : s.ls.line = .stopped ∨ (¬ LineStructural s.params (LineParams.ofBytes r.contents)
    ∧ ¬ LineLoosens s.params (LineParams.ofBytes r.contents))) :
    profileEntry r s = applyLine follow (LineParams.ofBytes r.contents) s := by
  refine (profileEntry_taken (by rw [validEntry_line htable, hv]; rfl) (hn.imp_right (tightens_line htable).2)).trans ?_
  rw [applyLoaded, if_neg (by rw [htable]; decide), hv]

end

theorem isSome_toOption_eq_false {α β : Type} {x : Except α β} (h : ∀ y, x ≠ .ok y) : x.toOption.isSome = false := by
  cases x with
  | error => rfl
  | ok y => exact absurd rfl (h y)

/-- R205: an application that has ended while no profile waits. -/
theorem applyEnd_of_none (h : s.cl.pending = none) : applyEnd s = setFlag .profileApplied { s with
    cl := { s.cl with profile := .idle, staging := [], lastOutcome := .applied, lastSkip := s.cl.profileSkip } } := by
  rw [applyEnd, afterProfile, setFlag_eq]
  simp only [h]

end

theorem exec_profileEntry {r : MemRecord} {rest : List MemRecord} {p : Profile} {s : State} (hpin : s.resetHeld = false)
    (hprofile : s.cl.profile = .applying p) (hstaging : s.cl.staging = r :: rest) :
    exec .profileEntryApply s = .next (
      if rest.isEmpty then applyEnd (profileEntry r { s with cl := { s.cl with staging := rest } })
      else profileEntry r { s with cl := { s.cl with staging := rest } }) := by
  refine (event_of_released hpin _).trans (congrArg Host.Outcome.next ?_)
  rw [profileApply]
  split
  · next h =>
    obtain ⟨rfl, rfl⟩ := List.cons.inj (hstaging.symm.trans h)
    rfl
  · next hn => exact absurd hstaging (hn _ _ _ hprofile)

/-- Settles O15. -/
theorem profilesStagedAndApplied : Obligations.ProfilesStagedAndApplied := by
  refine ⟨fun r p addr s hpin hprofile => ?_, fun r rest p s hpin hprofile hstaging => ?_⟩
  · intro next stop fits skipped
    have hstep := fun hf hlen hnext => exec_profile_bytes (r := r) hpin hprofile (usable_profile_iff.2 hf) hlen hnext
    refine ⟨fun hf hlen hcap hroom => ?_, fun hf hroom => ?_, fun hf hlen hcap hroom => ?_, fun hf hlen hcap hstop => ?_⟩
    · have hne : ¬ r.next addr = stop := Nat.ne_of_lt (Nat.lt_of_lt_of_le (Nat.lt_add_of_pos_right (by decide)) hroom)
      rw [hstep hf hlen (Nat.le_of_add_right_le hroom), if_neg hne, if_neg (show ¬ stop < r.next addr + 4 from Nat.not_lt.2 hroom),
        stage_of_room (usable_profile_iff.2 hf) hcap]
      rfl
    · exact exec_profile_header hpin hprofile (by rwa [← Bool.not_eq_true, usable_profile_iff]) hroom
    · have hne : ¬ r.next addr = stop := Nat.ne_of_lt (Nat.lt_of_lt_of_le (Nat.lt_add_of_pos_right (by decide)) hroom)
      rw [hstep hf hlen (Nat.le_of_add_right_le hroom), if_neg hne, if_neg (show ¬ stop < r.next addr + 4 from Nat.not_lt.2 hroom), stage_of_full hcap]
      rfl
    · rw [hstep hf hlen hstop.le, if_pos (show r.next addr = stop from hstop), stage_of_room (usable_profile_iff.2 hf) hcap,
        applying_of_staged (fun hn => List.cons_ne_nil _ _ (List.append_eq_nil_iff.1 hn).2)]
  · intro i o u handed deferred
    have hrun := exec_profileEntry hpin hprofile hstaging
    have hhanded : ∀ {t}, profileEntry r u = t → handed t := by
      rintro t rfl
      refine ⟨fun hne => ?_, fun hnil hp => ?_⟩
      · rw [hrun, if_neg fun he => hne (List.isEmpty_iff.1 he)]
      · rw [hrun, if_pos (List.isEmpty_iff.2 hnil), applyEnd_of_none hp]
    have hset' : Settled s → Settled u := fun hset => settled_of_eq hset rfl rfl rfl
    refine ⟨fun htable => ?_, fun htable => ?_⟩
    · intro valid
      have hvalid : ∀ {e}, validChan i r.contents u = .ok e ↔ valid e := by
        intro e
        rw [validChan_congr (s := s) (t := u) rfl rfl]
        exact validChan_ok_iff
      refine ⟨fun hn => hhanded (profileEntry_of_invalid ?_), fun e he => ⟨fun hl hn => ?_, fun hn => ⟨fun hset hstale => ?_,
        fun hs hcls ht hby hcap => ?_⟩⟩⟩
      · rw [validEntry_chan htable]
        exact isSome_toOption_eq_false fun e he => hn e (hvalid.1 he)
      · exact hhanded (profileEntry_chan_deferred (s := u) htable (hvalid.2 he) hl hn)
      · have hkept := applyChan_kept (s := u) (c := i) (e := e) (hset' hset) he.1 hstale
        refine ⟨_, hhanded (profileEntry_chan_taken (s := u) htable (hvalid.2 he) hn), ?_, hkept.commissioned⟩
        exact (hkept.entries i).trans (by rw [setEntry, chan_setChan_same he.1])
      · refine hhanded ((profileEntry_chan_taken (s := u) htable (hvalid.2 he) hn).trans ?_)
        exact applyChan_of_entry_alone (fl := follow) (s := u) hs hcls ht hby hcap he.1
    · intro new valid
      have hvalid : valid → validLine i r.contents = .ok new := fun hv => validLine_ok_iff.2 ⟨hv.1, hv.2.1, hv.2.2, rfl⟩
      refine ⟨fun hn => hhanded (profileEntry_of_invalid ?_), fun hv hl hn => ?_, fun hv hn => ⟨fun hset => ?_, fun hp => ?_⟩⟩
      · rw [validEntry_line htable]
        refine isSome_toOption_eq_false fun p hp => hn ?_
        obtain ⟨hi, hlen, ha, -⟩ := validLine_ok_iff.1 hp
        exact ⟨hi, hlen, ha⟩
      · exact hhanded (profileEntry_line_deferred (s := u) htable (hvalid hv) hl hn)
      · have hkept := applyLine_kept (asks := False) (s := u) (p := new) (hset' hset)
        exact ⟨_, hhanded (profileEntry_line_taken (s := u) htable (hvalid hv) hn), hkept.params, hkept.commissioned⟩
      · refine hhanded ((profileEntry_line_taken (s := u) htable (hvalid hv) hn).trans ?_)
        exact applyLine_tolerance (s := u) hp

end Sys2Proof.Machine
end

section
/-! SUPPORT. A channel that fails (R34 to R37, R1, R29, R45). -/

namespace Sys2Proof.Machine

open Sys2Proof.Safety

/-! ## Faults reported gone together -/

section
variable {s : State} {c : Nat} {src : Source} {code : FaultCode}

theorem gone_demandKept (hset : Settled s) (hkept : DemandKept s) : DemandKept (gone src code s) := by
  have hcm : (gone src code s).cm = (goneCore src code s).cm :=
    (follow_lineOnly (hset.after (goneCore_lineOnly src code s))).others .cm (by decide)
  refine demandKept_of_bypassed (goneCore_demandKept hkept.deskAndDrive) (gone_ls src code hset) fun i => ?_
  rw [State.bypassed, State.chan, hcm, State.bypassed, State.chan]

theorem goneAll_of_unlisted {codes : List FaultCode} (hkept : DemandKept s)
    (h : ∀ x ∈ s.ls.faults, x.source = .channel c → x.code ∉ codes) : goneAll follow c codes s = s := by
  induction codes with
  | nil => rfl
  | cons code codes ih =>
    rw [goneAll, List.foldl_cons, goneF_of_absent hkept fun x hx hc => h x hx hc.1 (hc.2 ▸ List.mem_cons_self)]
    exact ih fun x hx hs hm => h x hx hs (List.mem_cons_of_mem _ hm)

/-- Of several codes reported gone, one alone is listed. -/
theorem goneAll_of_single {before after : List FaultCode} (hset : Settled s) (hkept : DemandKept s)
    (hb : code ∉ before) (ha : code ∉ after) (h : ∀ x ∈ s.ls.faults, x.source = .channel c → x.code = code) :
    goneAll follow c (before ++ code :: after) s = gone (.channel c) code s := by
  have hbefore : goneAll follow c before s = s := goneAll_of_unlisted hkept fun x hx hs => by
    rw [h x hx hs]
    exact hb
  have hafter : goneAll follow c after (gone (.channel c) code s) = gone (.channel c) code s := by
    refine goneAll_of_unlisted (gone_demandKept hset hkept) fun x hx hs => ?_
    rcases (gone_withdrawn (.channel c) code hset).made x hx with hold | ⟨-, hc⟩ | hauto
    · rw [h x hold hs]
      exact ha
    · rw [hc]
      exact ha
    · exact Source.noConfusion (hs.symm.trans hauto.1)
  rw [goneAll, List.foldl_append, List.foldl_cons, show List.foldl _ s before = s from hbefore]
  exact hafter

end

/-! ## The encoder channel and the wind band without a channel -/

section
variable {s t : State} {c : Nat} {o : Option Nat}

theorem activeOf_of_stopped {k : ChanKind} {x : Channel} (h : x.entry.state ≠ .active) (i : Nat) :
    ActiveOf k (setChan c x s) i ↔ ActiveOf k s i ∧ i ≠ c := by
  unfold ActiveOf
  rw [chan_setChan]
  split
  · next hi =>
    obtain ⟨rfl, -⟩ := hi
    simp [h]
  · next hi =>
    have hne : i < 48 → i ≠ c := fun hlt heq => hi ⟨heq.symm, hlt⟩
    tauto

theorem bandNow_of_calm (h : ∀ i, t.chan i = s.chan i
    ∨ ((ActiveOf .wind s i → (s.chan i).rt.band = .calm) ∧ (ActiveOf .wind t i → (t.chan i).rt.band = .calm))) :
    t.bandNow = s.bandNow := by
  have hcalm : ∀ {b : Band} (k : Nat), b = .calm → b.code ≤ k := fun k hb => by
    rw [hb]
    exact Nat.zero_le k
  have hle : ∀ k, t.bandNow.code ≤ k ↔ s.bandNow.code ≤ k := fun k => by
    rw [bandNow_le, bandNow_le]
    refine forall_congr' fun i => ?_
    rcases h i with he | ⟨hs, ht⟩
    · rw [ActiveOf, he, ActiveOf]
    · exact ⟨fun _ ha => hcalm k (hs ha), fun _ ha => hcalm k (ht ha)⟩
  exact Band.code_inj (Nat.le_antisymm ((hle _).2 le_rfl) ((hle _).1 le_rfl))

/-- R1, R15: RA takes another encoder channel, no speed fault of the old one listed. -/
theorem determineEncoder_of_new (hkept : DemandKept s) (hnew : s.encoderNow = o) (hold : s.ra.encoder = some c)
    (hne : o ≠ some c) (hfaults : ∀ x ∈ s.ls.faults, x.source = .channel c → x.code ∉ [.overspeed, .rollback]) :
    determineEncoder follow s = { s with ra :=
      if o = none then { s.ra with encoder := o, baseValid := false, speedValid := false, v := 0, vf := 0 }
      else { s.ra with encoder := o, baseValid := false } } := by
  have hdiff : ¬ s.encoderNow = s.ra.encoder := by
    rw [hnew, hold]
    exact hne
  refine (if_neg hdiff).trans ?_
  rw [hnew, hold]
  exact goneAll_of_unlisted (demandKept_of_bypassed hkept rfl fun _ => rfl) hfaults

end

/-! ## A channel that fails without substitution (R36, R37) -/

theorem lowest_without {p : Nat → Prop} {o : Option Nat} {c : Nat} (h : Lowest p o) (hne : o ≠ some c) :
    Lowest (fun i => p i ∧ i ≠ c) o := by
  rcases h with ⟨rfl, hnone⟩ | ⟨d, rfl, hd, hlt⟩
  · exact .inl ⟨rfl, fun i hi => hnone i hi.1⟩
  · exact .inr ⟨d, rfl, ⟨hd, fun he => hne (by rw [he])⟩, fun i hi hp => hlt i hi hp.1⟩

theorem captureFail_of_none {c : Nat} {b : Option Nat} {s : State} (h : s.dr.capture = none) : captureFail c b s = s := by
  simp only [captureFail, h]

/-- R35, R36: a channel that has failed, its STALE raised or not. -/
def failedChannel (raised : Bool) (x : Channel) : Channel :=
  { x with
    entry := { x.entry with state := .failed }
    rt := { x.rt with condition := .stale, staleRaised := x.rt.staleRaised || raised } }

theorem markFailed_eq (c : Nat) (s : State) : markFailed c s = setChan c (failedChannel false (s.chan c)) s := by
  simp only [markFailed, failedChannel, Bool.or_false]

/-- R36, R37: `v` with the channel of `s` FAILED, off the substitution list as a standby, and RA's record as given. -/
def failedState (c : Nat) (ra : Rope) (s v : State) : State :=
  let t := setChan c (failedChannel true (s.chan c)) v
  { t with ra := ra, cm := { t.cm with subst := s.cm.subst.filter fun x => x.standby ≠ c } }

/-- R37: the substitution list without the entry that names channel `c` standby. -/
def offList (c : Nat) (s : State) : State :=
  { s with cm := { s.cm with subst := s.cm.subst.filter fun x => x.standby != c } }

/-- R36: the encoder channel's speed cleared. -/
def speedCleared (c : Nat) (s : State) : State :=
  if s.ra.encoder = some c then { s with ra := { s.ra with speedValid := false, v := 0, vf := 0 } } else s

def staleMarked (c : Nat) (s : State) : State := setRt c { (s.chan c).rt with staleRaised := true } s

theorem failPlain_eq (c : Nat) (s : State) : failPlain follow c s =
    let w := staleMarked c (captureFail c none (determineEncoder follow (speedCleared c (offList c
      (goneAll follow c cmFaults (markFailed c s))))))
    formBand (raise (classFault c .stale (w.chan c).entry.cls) w) := rfl

/-- R1: RA's record as the failure of channel `c` leaves it. -/
def RopeWithout (c : Nat) (s : State) (ra : Rope) : Prop :=
  (s.ra.encoder ≠ some c ∧ ra = s.ra)
    ∨ (s.ra.encoder = some c ∧ ∃ o, Lowest (fun i => ActiveOf .encoder s i ∧ i ≠ c) o
      ∧ ra = { s.ra with encoder := o, baseValid := false, speedValid := false, v := 0, vf := 0 })

section
variable {s v : State} {c : Nat} {ra : Rope}

/-- The failure, once the channel's own faults have been reported gone in `v`. -/
theorem failPlain_of_gone (hc : c < 48) (hgone : goneAll follow c cmFaults (markFailed c s) = v)
    (hcm : v.cm = (markFailed c s).cm) (hra : v.ra = s.ra) (hcap : v.dr.capture = none) (hkept : DemandKept v)
    (hfaults : ∀ x ∈ v.ls.faults, x.source = .channel c → x.code ∉ [.overspeed, .rollback])
    (hlow : Lowest (ActiveOf .encoder s) s.ra.encoder) (hrope : RopeWithout c s ra) :
    failPlain follow c s
      = formBand (raise (classFault c .stale (s.chan c).entry.cls) (failedState c ra s v)) := by
  have hchan : ∀ i, v.chan i = (markFailed c s).chan i := fun i => by rw [State.chan, hcm, State.chan]
  have hfail : v.chan c = failedChannel false (s.chan c) := by rw [hchan, markFailed_eq, chan_setChan_same hc]
  have hsubst : (v.cm.subst.filter fun x => x.standby != c) = s.cm.subst.filter fun x => x.standby ≠ c := by
    rw [hcm]
    exact List.filter_congr fun x _ => by by_cases hx : x.standby = c <;> simp [hx]
  have hnow : ∀ {w : State} {o : Option Nat}, w.cm.channels = v.cm.channels →
      Lowest (fun i => ActiveOf .encoder s i ∧ i ≠ c) o → w.encoderNow = o := fun {w o} hw ho => by
    rw [encoderNow_iff]
    have hact : ActiveOf .encoder w = fun i => ActiveOf .encoder s i ∧ i ≠ c := by
      funext i
      have hi : w.chan i = (markFailed c s).chan i := by
        rw [← hchan, State.chan, hw, State.chan]
      rw [ActiveOf, hi, markFailed_eq]
      exact propext (activeOf_of_stopped (by exact nofun) i)
    rw [hact]
    exact ho
  have hrope : captureFail c none (determineEncoder follow (speedCleared c (offList c v))) =
      { offList c v with ra := ra } := by
    rw [speedCleared, show (offList c v).ra = s.ra from hra]
    rcases hrope with ⟨hne, rfl⟩ | ⟨he, o, ho, rfl⟩
    · rw [if_neg hne, determineEncoder_of_same, captureFail_of_none (s := offList c v) hcap]
      · rw [← hra]
        rfl
      · rw [hnow (w := offList c v) rfl (lowest_without hlow hne)]
        exact congrArg Rope.encoder hra
    · have hne : o ≠ some c := by
        rintro rfl
        rcases ho with ⟨h, -⟩ | ⟨d, h, hd, -⟩
        · exact nomatch h
        · exact hd.2 (Option.some.inj h).symm
      have hkept' : DemandKept { offList c v with ra := { s.ra with speedValid := false, v := 0, vf := 0 } } :=
        demandKept_of_bypassed hkept rfl fun _ => rfl
      rw [if_pos he, determineEncoder_of_new (c := c) (o := o) hkept' (hnow rfl ho) he hne hfaults]
      refine (captureFail_of_none (by exact hcap)).trans ?_
      split <;> rfl
  have hmark : staleMarked c { offList c v with ra := ra } = failedState c ra s v := by
    rw [staleMarked, setRt, show ({ offList c v with ra := ra } : State).chan c = v.chan c from rfl, hfail,
      show ({ failedChannel false (s.chan c) with
        rt := { (failedChannel false (s.chan c)).rt with staleRaised := true } } : Channel)
          = failedChannel true (s.chan c) by simp only [failedChannel, Bool.or_true],
      failedState, ← hsubst]
    rfl
  have hclass : ((failedState c ra s v).chan c).entry.cls = (s.chan c).entry.cls :=
    (congrArg (fun x : Channel => x.entry.cls) (chan_setChan_same hc (failedChannel true (s.chan c)) v) :)
  rw [failPlain_eq, hgone, hrope, hmark]
  dsimp only
  rw [hclass]

theorem failedState_settled (hset : Settled v) : Settled (failedState c ra s v) := settled_of_eq hset rfl rfl rfl

theorem lineOnly_cm {t : State} (h : LineOnly s t) : t.cm = s.cm := h.others .cm (by decide)

section
variable (hc : c < 48) (hset : Settled s) (hkept : DemandKept s) (hform : ChannelsFormed s) (hcap : s.dr.capture = none)
  (hfaults : ∀ x ∈ s.ls.faults, x.source ≠ .channel c)
  (hwind : (s.chan c).entry.kind ≠ .wind ∨ (s.chan c).rt.band = .calm)
include hc hset hkept hform hcap hfaults hwind

/-- The failure of a channel with no fault listed, which does not hold the wind band above CALM. -/
theorem failPlain_of_quiet (hrope : RopeWithout c s ra) : failPlain follow c s =
    raise (classFault c .stale (s.chan c).entry.cls) (failedState c ra s s) := by
  have hkept' : DemandKept (markFailed c s) := demandKept_of_bypassed hkept rfl (bypassed_setChan rfl)
  have hsame : failedState c ra s (markFailed c s) = failedState c ra s s := by
    rw [failedState, markFailed_eq, setChan_setChan]
    rfl
  have hcm : (raise (classFault c .stale (s.chan c).entry.cls) (failedState c ra s s)).cm = (failedState c ra s s).cm :=
    lineOnly_cm (raise_lineOnly _ (failedState_settled hset))
  rw [failPlain_of_gone hc (goneAll_of_absent hkept' hfaults) rfl rfl hcap hkept' (fun x hx hs => absurd hs (hfaults x hx))
    hform.encoder hrope, hsame, formBand_of_same]
  rw [hcm, bandNow_of_calm (s := s)]
  · exact ((channelsFormed_iff s).1 hform).2
  · intro i
    have hchan : (raise (classFault c .stale (s.chan c).entry.cls) (failedState c ra s s)).chan i
        = (setChan c (failedChannel true (s.chan c)) s).chan i := by
      rw [State.chan, hcm]
      rfl
    rw [ActiveOf, ActiveOf, hchan]
    by_cases hi : c = i
    · subst hi
      rw [chan_setChan_same hc]
      exact .inr ⟨fun ha => hwind.resolve_left (not_not.2 ha.2.2), fun ha => nomatch ha.2.1⟩
    · exact .inl (chan_setChan_ne hi _ _)

end

end

/-! ## Substitution (R34, R35) -/

section
variable {s : State} {c b : Nat} {ra : Rope}

theorem standbyFor_iff : s.standbyFor c = some b ↔ (s.chan c).entry.standby = some b ∧ (s.chan b).entry.state = .standby
    ∧ (s.chan b).entry.kind = (s.chan c).entry.kind ∧ ∀ x ∈ s.cm.subst, x.standby ≠ c := by
  rw [State.standbyFor]
  cases (s.chan c).entry.standby with
  | none => exact ⟨nofun, fun h => nomatch h.1⟩
  | some a =>
    simp only [Option.some.injEq, List.any_eq_true, beq_iff_eq, not_exists, not_and]
    split_ifs with h
    · rw [Option.some.injEq]
      exact ⟨fun hab => hab ▸ ⟨rfl, h⟩, fun hab => hab.1⟩
    · exact ⟨nofun, fun hab => absurd (hab.1 ▸ hab.2) h⟩

theorem lt_of_state_ne {i : Nat} (h : (s.chan i).entry.state ≠ .unused) : i < 48 := by
  by_contra hi
  rw [chan_beyond (Nat.not_lt.1 hi)] at h
  exact h rfl

theorem setChan_comm (h : c ≠ b) (x y : Channel) (s : State) :
    setChan c x (setChan b y s) = setChan b y (setChan c x s) := by
  simp only [setChan, Vector.setIfInBound_comm x y h]

/-- R35: the standby `x` in the place of the primary `a`, its runtime record reset. -/
def activated (a x : Channel) (now : Nat) : Channel :=
  { x with
    entry := { x.entry with
      state := .active, boundary := if a.entry.kind = .trackMark then a.entry.boundary else x.entry.boundary }
    rt := x.rt.restart now }

theorem activateStandby_eq : activateStandby c b s =
    setChan b { activated (s.chan c) (s.chan b) s.now with rt := (s.chan b).rt } s := by
  rw [activateStandby, setEntry, activated]
  split_ifs <;> rfl

/-- R35: the pair has changed places in the table. -/
def exchanged (c b : Nat) (s : State) : State :=
  setChan c (failedChannel false (s.chan c)) (setChan b (activated (s.chan c) (s.chan b) s.now) s)

/-- R1: RA's record as the substitution of channel `c` by `b` leaves it. -/
def RopeAfterSubst (c b : Nat) (s : State) (ra : Rope) : Prop :=
  ((s.chan c).entry.kind ≠ .encoder ∧ ra = s.ra)
    ∨ (s.ra.encoder = some c ∧ ∃ o, Lowest (fun i => (ActiveOf .encoder s i ∧ i ≠ c) ∨ i = b) o
      ∧ ra = { s.ra with encoder := o, baseValid := false })

section
variable (hc : c < 48) (hb : b < 48)
include hc hb

theorem chan_exchanged (i : Nat) : (exchanged c b s).chan i = if i = c then failedChannel false (s.chan c)
    else if i = b then activated (s.chan c) (s.chan b) s.now else s.chan i := by
  rw [exchanged]
  split_ifs with hic hib
  · rw [hic, chan_setChan_same hc]
  · rw [chan_setChan_ne (Ne.symm hic), hib, chan_setChan_same hb]
  · rw [chan_setChan_ne (Ne.symm hic), chan_setChan_ne (Ne.symm hib)]

theorem demandKept_exchanged (hkept : DemandKept s) : DemandKept (exchanged c b s) :=
  demandKept_of_bypassed hkept rfl fun i => by
    rw [State.bypassed, chan_exchanged hc hb, State.bypassed]
    split_ifs with hic hib
    · rw [hic]
      rfl
    · rw [hib]
      rfl
    · rfl

theorem bandNow_exchanged (hstandby : (s.chan b).entry.state = .standby)
    (hwind : (s.chan c).entry.kind ≠ .wind ∨ (s.chan c).rt.band = .calm) : (exchanged c b s).bandNow = s.bandNow := by
  refine bandNow_of_calm fun i => ?_
  rw [ActiveOf, ActiveOf, chan_exchanged hc hb]
  split_ifs with hic hib
  · subst hic
    exact .inr ⟨fun ha => hwind.resolve_left (not_not.2 ha.2.2), fun ha => nomatch ha.2.1⟩
  · subst hib
    exact .inr ⟨fun ha => (nomatch hstandby.symm.trans ha.2.1), fun _ => rfl⟩
  · exact .inl rfl

variable (hbc : b ≠ c) (hkind : (s.chan b).entry.kind = (s.chan c).entry.kind)
include hkind

theorem encoderNow_exchanged_of_other (hk : (s.chan c).entry.kind ≠ .encoder) :
    (exchanged c b s).encoderNow = s.encoderNow := by
  refine encoderNow_congr fun i => ?_
  rw [ActiveOf, chan_exchanged hc hb, ActiveOf]
  split_ifs with hic hib
  · subst hic
    exact ⟨fun h => absurd h.2.2 hk, fun h => absurd h.2.2 hk⟩
  · subst hib
    exact ⟨fun h => absurd (hkind.symm.trans h.2.2) hk, fun h => absurd (hkind.symm.trans h.2.2) hk⟩
  · rfl

include hbc

theorem activeOf_exchanged {k : ChanKind} (hk : (s.chan c).entry.kind = k) (i : Nat) :
    ActiveOf k (exchanged c b s) i ↔ (ActiveOf k s i ∧ i ≠ c) ∨ i = b := by
  rw [ActiveOf, chan_exchanged hc hb]
  split_ifs with hic hib
  · subst hic
    exact ⟨fun h => (nomatch h.2.1), fun h => h.elim (fun h => absurd rfl h.2) fun h => absurd h.symm hbc⟩
  · subst hib
    exact ⟨fun _ => .inr rfl, fun _ => ⟨hb, rfl, hkind.trans hk⟩⟩
  · exact ⟨fun h => .inl ⟨h, hic⟩, fun h => (h.resolve_right hib).1⟩

end

/-- The standby's record is reset once the pair is in the list. -/
theorem resetRuntime_exchanged (hb : b < 48) (hbc : b ≠ c) (hkept : DemandKept s)
    (hfb : ∀ x ∈ s.ls.faults, x.source ≠ .channel b) :
    resetRuntime follow b (listSubst c b (markFailed c (activateStandby c b s))) = listSubst c b (exchanged c b s) := by
  generalize hB : ({ activated (s.chan c) (s.chan b) s.now with rt := (s.chan b).rt } : Channel) = B
  have hstart : markFailed c (activateStandby c b s) = setChan c (failedChannel false (s.chan c)) (setChan b B s) := by
    rw [activateStandby_eq, hB, markFailed_eq, chan_setChan_ne hbc]
  have hkept' : DemandKept (listSubst c b (setChan c (failedChannel false (s.chan c)) (setChan b B s))) := by
    refine demandKept_of_bypassed hkept rfl fun i => ?_
    refine (bypassed_setChan ?_ i).trans (bypassed_setChan ?_ i)
    · rw [chan_setChan_ne hbc]
      rfl
    · rw [← hB]
      rfl
  have hchan : (listSubst c b (setChan c (failedChannel false (s.chan c)) (setChan b B s))).chan b = B := by
    refine (chan_setChan_ne (Ne.symm hbc) _ _).trans (chan_setChan_same hb B s)
  rw [hstart, resetRuntime_of_absent hkept' hfb, setRt, hchan, exchanged]
  have hreset : ({ B with rt := B.rt.restart s.now } : Channel) = activated (s.chan c) (s.chan b) s.now := hB ▸ rfl
  refine (congrArg (listSubst c b) (setChan_comm hbc { B with rt := B.rt.restart s.now } _ (setChan b B s))).trans ?_
  rw [setChan_setChan, hreset]

/-- The substitution of a channel with no fault listed, nor one of its standby, which does not hold the wind band above
CALM. -/
theorem substitute_of_quiet (hc : c < 48) (hb : b < 48) (hbc : b ≠ c) (hkept : DemandKept s) (hform : ChannelsFormed s)
    (hcap : s.dr.capture = none) (hfc : ∀ x ∈ s.ls.faults, x.source ≠ .channel c)
    (hfb : ∀ x ∈ s.ls.faults, x.source ≠ .channel b) (hkind : (s.chan b).entry.kind = (s.chan c).entry.kind)
    (hstandby : (s.chan b).entry.state = .standby)
    (hwind : (s.chan c).entry.kind ≠ .wind ∨ (s.chan c).rt.band = .calm) (hrope : RopeAfterSubst c b s ra) :
    substitute follow c b s = setFlag .subst { listSubst c b (exchanged c b s) with ra := ra } := by
  obtain ⟨henc, hband⟩ := (channelsFormed_iff s).1 hform
  have hkept' : DemandKept (listSubst c b (exchanged c b s)) :=
    demandKept_of_bypassed (demandKept_exchanged hc hb hkept) rfl fun _ => rfl
  have hrope : determineEncoder follow (setFlag .subst (listSubst c b (exchanged c b s)))
      = setFlag .subst { listSubst c b (exchanged c b s) with ra := ra } := by
    rw [setFlag_eq, setFlag_eq]
    rcases hrope with ⟨hk, rfl⟩ | ⟨he, o, ho, rfl⟩
    · rw [determineEncoder_of_same]
      · rfl
      · exact henc.trans (encoderNow_exchanged_of_other hc hb hkind hk).symm
    · have hk : (s.chan c).entry.kind = .encoder := by
        rcases hform.encoder with ⟨h, -⟩ | ⟨d, h, hd, -⟩
        · exact nomatch he.symm.trans h
        · exact Option.some.inj (he.symm.trans h) ▸ hd.2.2
      have hnow : (exchanged c b s).encoderNow = o := by
        rw [encoderNow_iff, show ActiveOf .encoder (exchanged c b s) = _ from
          funext fun i => propext (activeOf_exchanged hc hb hbc hkind hk i)]
        exact ho
      have ho' : o ≠ none ∧ o ≠ some c := by
        rcases ho with ⟨-, hnone⟩ | ⟨d, rfl, hd, -⟩
        · exact absurd (.inr rfl) (hnone b)
        · refine ⟨nofun, fun hdc => ?_⟩
          cases hdc
          exact hd.elim (fun h => h.2 rfl) fun h => hbc h.symm
      refine (determineEncoder_of_new (s := { listSubst c b (exchanged c b s) with
        dr := flagged .subst (listSubst c b (exchanged c b s)).dr }) (demandKept_of_bypassed hkept' rfl fun _ => rfl) hnow he
        ho'.2 fun x hx hs => absurd hs (hfc x hx)).trans ?_
      rw [if_neg ho'.1]
      rfl
  rw [substitute]
  dsimp only
  rw [resetRuntime_exchanged hb hbc hkept hfb, goneAll_of_absent hkept' hfc,
    captureFail_of_none (by rw [setFlag_eq, flagged]; split <;> exact hcap), hrope, formBand_of_same]
  rw [setFlag_eq]
  exact hband.trans (bandNow_exchanged hc hb hstandby hwind).symm

end

/-! ## The wind band falls (R29) -/

section
variable {s w : State} {c : Nat}

theorem formBand_of_fall (h : s.bandNow = .calm) (hold : s.cm.windBand ≠ .calm) :
    formBand s = requestProfile .calm (setFlag .windBand { s with cm := { s.cm with windBand := .calm } }) := by
  refine (if_neg (by rw [h]; exact Ne.symm hold)).trans ?_
  rw [if_neg hold, h]
  exact if_pos rfl

theorem requestProfile_of_busy {p : Profile} (h : s.cl.load = .loading ∨ s.cl.profile ≠ .idle) :
    requestProfile p s = { s with cl := { s.cl with pending := some p } } := if_pos h

theorem requestProfile_of_no_pointers {p : Profile} (hl : s.cl.load = .ready) (hp : s.cl.profile = .idle)
    (h : s.cl.pointers = none) : requestProfile p s = s := by
  refine (if_neg ?_).trans (if_pos (by rw [h]; rfl))
  rw [hl, hp]
  exact fun hn => hn.elim nofun (· rfl)

end

theorem classFault_eq (c : Nat) (code : FaultCode) (cls : FaultClass) : classFault c code cls =
    { source := .channel c, code := code, cls := cls, latched := cls == .stop || cls == .trip, present := true } := by
  cases cls <;> rfl

/-! ## A stale time made shorter (R45) -/

section
variable {o : ChanEntry} {n : Nat}

theorem staleTime_narrows (hn : n < o.staleTime) :
    ¬ ChanStructural o { o with staleTime := n } ∧ ¬ ChanLoosens o { o with staleTime := n } := by
  simp only [ChanStructural, ChanLoosens, ne_eq, not_true_eq_false, lt_irrefl, or_self, and_false, not_false_eq_true, true_and,
    or_false, false_or]
  omega

end

/-- Settles O24. -/
theorem staleChannelFails : Obligations.StaleChannelFails := by
  unfold Obligations.StaleChannelFails
  intro stale failed
  refine ⟨fun c s hpin hc hact hset hkept hform hcap => ?_, fun c n bs r rest s hc hlen => ?_⟩
  · intro e rt u runs sound
    have hsetu : Settled u := settled_of_eq hset rfl rfl rfl
    have hkeptu : DemandKept u := demandKept_of_bypassed hkept rfl fun _ => rfl
    have hformu : ChannelsFormed u := ⟨hform.encoder, hform.held, hform.most⟩
    have hrun : exec (.staleTimeExpiry c) s = .next (failChannel follow c u) :=
      (event_of_released hpin _).trans (congrArg Host.Outcome.next (if_pos hact))
    have hunsound : (∀ b, ¬ sound b) → failChannel follow c u = failPlain follow c u := fun hn => by
      have hnone : u.standbyFor c = none := Option.eq_none_iff_forall_ne_some.2 fun b hb => hn b (standbyFor_iff.1 hb)
      rw [failChannel, hnone]
    have hsound : ∀ {b}, sound b → failChannel follow c u = if u.cm.subst.length < 8 then substitute follow c b u
        else failPlain follow c (setFlag .substFull u) := fun {b} hb => by
      rw [failChannel, show u.standbyFor c = some b from standbyFor_iff.2 hb]
      rfl
    refine ⟨fun hfaults hwind => ⟨fun ra hrope => ?_, fun b ra hb hroom hfb hrope => ?_⟩,
      fun code hk hstandby hnosub hband honly hcalm => ?_⟩
    · intro left
      refine ⟨fun hn => ⟨_, hrun.trans (congrArg Host.Outcome.next ((hunsound hn).trans
        (failPlain_of_quiet hc hsetu hkeptu hformu hcap hfaults hwind hrope))), ?_⟩, fun b hb hfull => ?_⟩
      · rw [classFault_eq]
        exact raise_raised _ (failedState_settled hsetu)
      · have hflag : failPlain follow c (setFlag .substFull u)
            = raise (classFault c .stale e.cls) (setFlag .substFull left) := by
          rw [setFlag_eq, setFlag_eq]
          exact failPlain_of_quiet (s := { u with dr := flagged .substFull u.dr }) hc (settled_of_eq hset rfl rfl rfl)
            (demandKept_of_bypassed hkept rfl fun _ => rfl) ⟨hform.encoder, hform.held, hform.most⟩
            (by rw [flagged]; split <;> exact hcap) hfaults hwind hrope
        refine ⟨_, hrun.trans (congrArg Host.Outcome.next ((hsound hb).trans ((if_neg (Nat.not_lt.2 hfull)).trans hflag))),
          ?_⟩
        rw [classFault_eq]
        exact raise_raised _ ((failedState_settled hsetu).after (setFlag_lineOnly _ _))
    · intro sb v
      have hstep := (hsound hb).trans (if_pos hroom)
      obtain ⟨-, hstandby, hkind, -⟩ := hb
      have hbc : b ≠ c := by
        rintro rfl
        exact nomatch hact.symm.trans hstandby
      have hb48 : b < 48 := lt_of_state_ne (by rw [hstandby]; exact nofun)
      exact hrun.trans (congrArg Host.Outcome.next (hstep.trans
        (substitute_of_quiet hc hb48 hbc hkeptu hformu hcap hfaults hfb hkind hstandby hwind hrope)))
    · have hm : Settled (markFailed c u) := settled_of_eq hset rfl rfl rfl
      have hkeptm : DemandKept (markFailed c u) := demandKept_of_bypassed hkeptu rfl (bypassed_setChan rfl)
      generalize hv : gone (.channel c) code (markFailed c u) = v
      have hline : LineOnly (markFailed c u) v := hv ▸ gone_lineOnly _ _ hm
      have hgone : goneAll follow c cmFaults (markFailed c u) = v := by
        rw [← hv]
        rcases hband with ⟨-, rfl⟩ | ⟨-, rfl⟩
        · exact goneAll_of_single (before := [.outLow, .outHigh]) hm hkeptm (by decide) (by decide) honly
        · exact goneAll_of_single (before := [.outLow, .outHigh, .windWindy]) hm hkeptm (by decide) (by decide) honly
      have hsetv : Settled v := hm.after hline
      have hencoder : s.ra.encoder ≠ some c := fun he => by
        rcases hform.encoder with ⟨h, -⟩ | ⟨d, h, hd, -⟩
        · exact nomatch he.symm.trans h
        · cases he.symm.trans h
          exact nomatch hk.symm.trans hd.2.2
      have hcodes : ∀ x ∈ v.ls.faults, x.source = .channel c → x.code ∉ [.overspeed, .rollback] := fun x hx hs => by
        have hcode : x.code = code := by
          rcases (hv ▸ gone_withdrawn (.channel c) code hm : Withdrawn _ _ _ v).made x hx with hold | ⟨-, h⟩ | h
          · exact honly x hold hs
          · exact h
          · exact Source.noConfusion (hs.symm.trans h.1)
        rw [hcode]
        rcases hband with ⟨-, rfl⟩ | ⟨-, rfl⟩ <;> decide
      have hfail := failPlain_of_gone (ra := s.ra) hc hgone (lineOnly_cm hline) (hline.others .ra (by decide))
        ((congrArg DeskUnit.capture hline.dr).trans hcap) (hv ▸ gone_demandKept hm hkeptm) hcodes hformu.encoder
        (.inl ⟨hencoder, rfl⟩)
      have hcmv : v.cm = (markFailed c u).cm := lineOnly_cm hline
      have hstate : failedState c s.ra u v = failed c true s v := by
        have hsubst : (u.cm.subst.filter fun x => x.standby ≠ c) = v.cm.subst := by
          rw [hcmv]
          exact List.filter_eq_self.2 fun x hx => decide_eq_true (hnosub x hx)
        rw [failedState, hsubst, show s.ra = v.ra from (hline.others .ra (by decide)).symm]
        rfl
      rw [hstate] at hfail
      have hsetw : Settled (failed c true s v) := settled_of_eq hsetv rfl rfl rfl
      generalize hw : raise (classFault c .stale (u.chan c).entry.cls) (failed c true s v) = w at hfail
      have hlinew : LineOnly (failed c true s v) w := hw ▸ raise_lineOnly _ hsetw
      have hcl : w.cl = s.cl := (hlinew.others .cl (by decide)).trans (hline.others .cl (by decide))
      have hchan : ∀ i, i ≠ c → w.chan i = s.chan i := fun i hi => by
        rw [State.chan, lineOnly_cm hlinew]
        refine (chan_setChan_ne (Ne.symm hi) _ v).trans ?_
        rw [State.chan, hcmv]
        exact chan_setChan_ne (Ne.symm hi) _ u
      have hfailed : w.chan c = failedChannel true (s.chan c) := by
        rw [State.chan, lineOnly_cm hlinew]
        exact chan_setChan_same hc _ v
      have hnow : w.bandNow = .calm := by
        refine Band.code_inj (Nat.le_antisymm ((bandNow_le w 0).2 fun i hi => ?_) (Nat.zero_le _))
        have hic : i ≠ c := by
          rintro rfl
          exact nomatch (congrArg (fun x : Channel => x.entry.state) hfailed).symm.trans hi.2.1
        rw [ActiveOf, hchan i hic] at hi
        rw [hchan i hic, hcalm i hi hic]
        exact le_rfl
      have hheld : w.cm.windBand ≠ .calm := by
        have hw' : w.cm.windBand = s.cm.windBand := by
          rw [lineOnly_cm hlinew]
          exact (congrArg ChanMon.windBand hcmv :)
        rw [hw']
        intro hcalm'
        have hmost := hform.most c ⟨hc, hact, hk⟩
        rw [hcalm'] at hmost
        rcases hband with ⟨h, -⟩ | ⟨h, -⟩ <;> exact absurd (h ▸ hmost) (by decide)
      have hruns : runs (requestProfile .calm (setFlag .windBand { w with cm := { w.cm with windBand := .calm } })) :=
        hrun.trans (congrArg Host.Outcome.next ((hunsound fun b hb => nomatch hstandby.symm.trans hb.1).trans
          (hfail.trans (formBand_of_fall hnow hheld))))
      refine ⟨v, w, ?_, ?_, fun hl hp hptr => ?_, fun hbusy => ?_⟩
      · rw [show failed c false s u = markFailed c u from (markFailed_eq c u).symm, ← hv]
        exact gone_withdrawn _ _ hm
      · rw [← hw, classFault_eq]
        exact raise_raised _ hsetw
      · rw [requestProfile_of_no_pointers] at hruns
        · exact hruns
        all_goals rw [setFlag_cl]
        · exact (congrArg Loader.load hcl).trans hl
        · exact (congrArg Loader.profile hcl).trans hp
        · exact (congrArg Loader.pointers hcl).trans hptr
      · rw [requestProfile_of_busy] at hruns
        · exact hruns
        · rw [setFlag_cl]
          exact hbusy.imp (fun h => (congrArg Loader.load hcl).trans h)
            fun h he => h ((congrArg Loader.profile hcl).symm.trans he)
  · intro o rt k entry hbytes hasked hallowed hact hn hbyp hcap answers
    obtain ⟨hi, hbs⟩ := write_fields (bs := bs) (i := c) 0 (by omega)
    obtain ⟨hns, hnl⟩ := staleTime_narrows hn
    have hkeptk : DemandKept s → DemandKept k := fun h => demandKept_of_bypassed h rfl fun _ => rfl
    have hallowed' : ChanAllowed k c entry := by
      rw [chanAllowed_iff] at hallowed ⊢
      exact hallowed
    have hbound : ¬ BoundChange c entry k := fun hb => by
      obtain ⟨-, h⟩ := hb
      rcases h with h | h | h | h | h | h <;> exact h rfl
    have hv : validChan c bs k = .ok entry := validChan_ok_iff.2 ⟨hc, hlen, hbytes, hallowed', hbound⟩
    have hS : chanStructural (k.chan c).entry entry = true ↔ ChanStructural o entry := chanStructural_iff _ _
    have hL : chanLoosens (k.chan c).entry entry = true ↔ ChanLoosens o entry := chanLoosens_iff _ _
    obtain ⟨-, -, hfree⟩ := narrowing_judged (s := k) hS hL
    obtain ⟨-, hkeep⟩ := uncommission_judged (s := k) hS hL (applyChan follow c entry k)
    have happly : applyChan follow c entry k = testStale follow c o.staleTime (setChan c { s.chan c with entry := entry } k) :=
      applyChan_of_same_place (s := k) hns rfl (by rw [State.bypassed, show k.chan c = s.chan c from rfl, hbyp]; rfl) hcap hc
    rw [happly] at hkeep
    have hrun : answers (testStale follow c o.staleTime (setChan c { s.chan c with entry := entry } k)) := by
      refine (event_write (judge := writeChannel) (a := .done []) hasked (by rw [hlen]; rfl)
        (writeChannel_of_taken (s := k) hi hbs hv (hfree (.inr ⟨hns, hnl⟩)))).trans ?_
      rw [happly, hkeep (.inr ⟨hns, hnl⟩)]
      rfl
    have hchan : (setChan c { s.chan c with entry := entry } k).chan c = { s.chan c with entry := entry } :=
      chan_setChan_same hc _ _
    refine ⟨fun hearly => ?_, fun hlate hstandby hnosub hset hkept hform hke hkw hfaults => ?_⟩
    · rw [testStale, if_neg] at hrun
      · exact hrun
      · rw [hchan]
        exact fun hn => absurd hn.2.2 (Nat.not_le.2 hearly)
    · generalize hW : setChan c { s.chan c with entry := entry } k = W at hrun hchan
      have hnone : W.standbyFor c = none := by
        rw [State.standbyFor, hchan, show entry.standby = none from hstandby]
      have htest : testStale follow c o.staleTime W = failPlain follow c W := by
        rw [testStale, if_pos, failChannel, hnone]
        rw [hchan, ← hW]
        exact ⟨hact, hn, hlate⟩
      have hencoder : s.ra.encoder ≠ some c := fun he => by
        rcases hform.encoder with ⟨h, -⟩ | ⟨d, h, hd, -⟩
        · exact nomatch he.symm.trans h
        · cases he.symm.trans h
          exact hke hd.2.2
      have hformW : ChannelsFormed W := by
        obtain ⟨henc, hband⟩ := (channelsFormed_iff s).1 hform
        rw [← hW]
        exact (channelsFormed_iff _).2 ⟨henc.trans (encoderNow_setChan (s := k) (x := { s.chan c with entry := entry }) hke hke).symm,
          hband.trans (bandNow_setChan (s := k) (x := { s.chan c with entry := entry }) hkw hkw).symm⟩
      have hfail := failPlain_of_quiet (s := W) (ra := s.ra) hc (hW ▸ settled_of_eq hset rfl rfl rfl)
        (hW ▸ demandKept_of_bypassed (hkeptk hkept) rfl (bypassed_setChan rfl)) hformW (hW ▸ hcap) (hW ▸ hfaults)
        (by rw [hchan]; exact .inl hkw) (.inl ⟨hW ▸ hencoder, hW ▸ rfl⟩)
      have hstate : failedState c s.ra W W = setChan c { s.chan c with
          entry := { entry with state := .failed }, rt := { rt with condition := .stale, staleRaised := true } } k := by
        have hsubst : (W.cm.subst.filter fun x => x.standby ≠ c) = k.cm.subst := by
          rw [← hW]
          exact List.filter_eq_self.2 fun x hx => decide_eq_true (hnosub x hx)
        rw [failedState, hsubst, hchan, ← hW, setChan_setChan]
        simp only [failedChannel, Bool.or_true]
        rfl
      rw [htest, hfail, hstate, show (W.chan c).entry.cls = (s.chan c).entry.cls by rw [hchan]] at hrun
      refine ⟨_, hrun, ?_⟩
      rw [classFault_eq]
      exact raise_raised _ (settled_of_eq hset rfl rfl rfl)

end Sys2Proof.Machine
end

section
/-! SUPPORT. A SAMPLE of one reading, and the readings of the window kinds (R23, R25, R26, R194). -/

namespace Sys2Proof.Machine

open Sys2Proof.Safety

/-! ## A SAMPLE of one reading (R23) -/

section
variable {bytes : List Byte} {x t : Word16} {c : Nat} {s v : State}

theorem parseSample_single (x t : Word16) :
    parseSample (enc2 t.toNat ++ enc1 1 ++ enc2 x.toNat) = some (t, [x]) := by
  have hword : ∀ w : Word16, BitVec.ofNat 16 w.toNat = w := fun w => by
    rw [BitVec.ofNat_toNat, BitVec.setWidth_eq]
  have ht : u16 (enc2 t.toNat ++ enc1 1 ++ enc2 x.toNat) 0 = t.toNat := u16_ofNat_of_lt t.isLt _
  have hx : u16 (enc2 t.toNat ++ enc1 1 ++ enc2 x.toNat) 3 = x.toNat := u16_ofNat_of_lt x.isLt []
  have hcount : u8 (enc2 t.toNat ++ enc1 1 ++ enc2 x.toNat) 2 = 1 := rfl
  rw [parseSample, hcount]
  refine (if_pos ⟨by decide, rfl⟩).trans ?_
  rw [ht, hword]
  simp only [List.range_one, List.map_cons, List.map_nil, Nat.mul_zero, Nat.add_zero, hx, hword]

theorem foldl_of_fixed {α β : Type} {f : β → α → β} {b : β} {l : List α} (h : ∀ a ∈ l, f b a = b) : l.foldl f b = b := by
  induction l with
  | nil => rfl
  | cons a l ih =>
    rw [List.foldl_cons, h a List.mem_cons_self]
    exact ih fun a' ha => h a' (List.mem_cons_of_mem _ ha)

theorem channelAt_congr {s t : State} (h : ∀ i, (t.chan i).entry = (s.chan i).entry) (node slot : Nat) :
    t.channelAt node slot = s.channelAt node slot := by
  simp only [State.channelAt, h]

/-- R23: the SAMPLE's one reading is judged, and its other slots match no channel. -/
theorem exec_sampled {d d' : DeskUnit} (h : Sampled s.ownAddress bytes x t c { s with dr := d })
    (hcap : captureReading c x t s = { s with dr := d' })
    (hv : judgeReading c x t (setRt c { (s.chan c).rt with lastReading := x } { s with dr := d' }) = v)
    (hentries : ∀ i, (v.chan i).entry = (s.chan i).entry) : exec (.loopFrameReceived bytes) s = .next v := by
  obtain ⟨f, hparse, hsource, hdest, hkind, hpayload, hslot, hothers⟩ := h.frame
  have htake : takeReading c x t s = v := by
    have hact : ((setRt c { (s.chan c).rt with lastReading := x } { s with dr := d' }).chan c).entry.state = .active := by
      rw [setRt, chan_setChan_same h.known]
      exact h.active
    rw [takeReading, hcap]
    exact (if_pos hact).trans hv
  have hfirst : takeSlot f.source t [x] s 0 = v := by
    rw [takeSlot, show s.channelAt f.source.toNat 0 = some c from hslot]
    exact htake
  have hrest : ∀ i ∈ List.range' 1 7, takeSlot f.source t [x] v i = v := fun i hi => by
    obtain ⟨h1, h8⟩ := List.mem_range'_1.1 hi
    rw [takeSlot, channelAt_congr hentries, show s.channelAt f.source.toNat i = none from hothers i h1 (by omega)]
  refine (event_of_released (s := s) h.pin _).trans (congrArg Host.Outcome.next ?_)
  rw [frameReceived, hparse]
  refine (if_neg hsource).trans ((if_pos hdest).trans ((if_pos hkind).trans ?_))
  rw [sampleFrame, hpayload, parseSample_single]
  refine (show List.foldl (takeSlot f.source t [x]) s (0 :: List.range' 1 7) = v from ?_)
  rw [List.foldl_cons, hfirst]
  exact foldl_of_fixed hrest

theorem setRt_setRt (c : Nat) (x y : Runtime) (hc : c < 48) : setRt c x (setRt c y s) = setRt c x s := by
  rw [setRt, setRt, chan_setChan_same hc, setChan_setChan]
  rfl

theorem credited_eq (rt : Runtime) : credited c x rt s = setRt c { rt with lastReading := x, lastAccepted := s.now } s := rfl

theorem credited_chan (hc : c < 48) (rt : Runtime) :
    (credited c x rt s).chan c = { s.chan c with rt := { rt with lastReading := x, lastAccepted := s.now } } :=
  chan_setChan_same hc _ _

theorem setRt_credited (hc : c < 48) (rt rt' : Runtime) :
    setRt c { rt' with lastReading := x, lastAccepted := s.now } (credited c x rt s) = credited c x rt' s :=
  setRt_setRt c _ _ hc

theorem credited_entries (rt : Runtime) (i : Nat) : ((credited c x rt s).chan i).entry = (s.chan i).entry := by
  rw [credited, chan_setChan]
  split
  · next hi => rw [hi.1]
  · rfl

theorem accepted_reading (hc : c < 48) :
    accepted c (setRt c { (s.chan c).rt with lastReading := x } s) = credited c x (s.chan c).rt s := by
  rw [accepted, setRt_setRt c _ _ hc]
  simp only [setRt, chan_setChan_same hc]
  rfl

theorem credited_settled (h : Settled s) (rt : Runtime) : Settled (credited c x rt s) := settled_of_eq h rfl rfl rfl

theorem captureReading_of_none (h : s.dr.capture = none) : captureReading c x t s = s := by
  rw [captureReading, h]

/-- R23: as `exec_sampled`, with no capture under way. -/
theorem sampled_runs (h : Sampled s.ownAddress bytes x t c s)
    (hv : judgeReading c x t (setRt c { (s.chan c).rt with lastReading := x } s) = v)
    (hentries : ∀ i, (v.chan i).entry = (s.chan i).entry) : exec (.loopFrameReceived bytes) s = .next v :=
  exec_sampled (d := s.dr) (d' := s.dr) h (captureReading_of_none h.capture) hv hentries

end

/-! ## The window kinds (R25, R26) -/

section
variable {e : ChanEntry} {y : Nat} {rt : Runtime}

/-- R25: the run count of a reading out on a side. -/
def sideCount (side : Side) (rt : Runtime) : Nat := if rt.runCount ≠ 0 ∧ rt.runSide = side then rt.runCount + 1 else 1

theorem runOn_eq (side : Side) (rt : Runtime) :
    runOn side rt = { rt with runCount := sideCount side rt, runSide := side } := by
  rw [runOn, sideCount]
  split_ifs with h
  · rw [← h.2]
  · rfl

/-- R25: the reading lies out of the window on a side. -/
def OutOn (e : ChanEntry) (y : Nat) : Side → Prop
  | .low => y < e.low
  | .high => e.low ≤ y ∧ e.high < y

theorem outSide_of_out {side : Side} (h : OutOn e y side) : outSide e y = some side := by
  cases side with
  | low => exact if_pos h
  | high => exact (if_neg (Nat.not_lt.2 h.1)).trans (if_pos h.2)

theorem outSide_of_inside (hlow : e.low ≤ y) (hhigh : y ≤ e.high) : outSide e y = none :=
  (if_neg (Nat.not_lt.2 hlow)).trans (if_neg (Nat.not_lt.2 hhigh))

theorem side_condition (side : Side) : side.condition.side = some side := by cases side <;> rfl

theorem condition_ne_normal (side : Side) : side.condition ≠ .normal := by cases side <;> exact nofun

/-- R25: a run that goes on, or reaches the persistence. -/
def windowRun (e : ChanEntry) (side : Side) (rt : Runtime) : Runtime :=
  if e.persistence ≤ sideCount side rt then
    { rt with condition := side.condition, runCount := 0, runSide := side, returnCount := 0 }
  else { rt with runCount := sideCount side rt, runSide := side }

theorem windowStep_of_normal_in (hc : rt.condition = .normal) (h : outSide e y = none) :
    windowStep e y rt = { rt with runCount := 0 } := by
  simp only [windowStep, hc, h, Condition.side]

theorem windowStep_of_normal_out {side : Side} (hc : rt.condition = .normal) (h : outSide e y = some side) :
    windowStep e y rt = windowRun e side rt := by
  simp only [windowStep, hc, h, Condition.side, runOn_eq, windowRun]

theorem windowStep_of_held_out {held : Side} (hc : rt.condition = held.condition) (h : outSide e y = some held) :
    windowStep e y rt = { rt with runCount := 0, returnCount := 0 } := by
  simp only [windowStep, hc, side_condition, h, if_true]

theorem windowStep_of_held_other {held side : Side} (hc : rt.condition = held.condition) (h : outSide e y = some side)
    (hne : side ≠ held) : windowStep e y rt = windowRun e side { rt with returnCount := 0 } := by
  simp only [windowStep, hc, side_condition, h, if_neg hne, runOn_eq, windowRun]

theorem windowStep_of_held_in {held : Side} (hc : rt.condition = held.condition) (h : outSide e y = none)
    (hb : inReturnBand e y = false) : windowStep e y rt = { rt with runCount := 0, returnCount := 0 } := by
  simp only [windowStep, hc, side_condition, h, hb, Bool.false_eq_true, if_false]

theorem windowStep_of_held_return {held : Side} (hc : rt.condition = held.condition) (h : outSide e y = none)
    (hb : inReturnBand e y = true) : windowStep e y rt =
      if e.persistence ≤ rt.returnCount + 1 then { rt with condition := .normal, runCount := 0, returnCount := 0 }
      else { rt with runCount := 0, returnCount := rt.returnCount + 1 } := by
  simp only [windowStep, hc, side_condition, h, hb, if_true]

end

section
variable {c : Nat} {x : Word16} {s : State} {rt' : Runtime} {held side : Side} (hc : c < 48)
  (hstep : windowStep (s.chan c).entry x.toNat { (s.chan c).rt with lastReading := x, lastAccepted := s.now }
    = { rt' with lastReading := x, lastAccepted := s.now })
include hc hstep

/-- R25, R26: what follows a reading that leaves the condition, or changes it: the old side's fault gone, the new side's
raised. -/
theorem windowReading_of_same (h : rt'.condition = (s.chan c).rt.condition) :
    windowReading c x.toNat (credited c x (s.chan c).rt s) = credited c x rt' s := by
  rw [windowReading, credited_chan hc]
  dsimp only
  rw [hstep]
  exact (if_pos h).trans (setRt_credited hc _ rt')

theorem windowReading_of_entered (hold : (s.chan c).rt.condition = .normal) (hnew : rt'.condition = side.condition) :
    windowReading c x.toNat (credited c x (s.chan c).rt s) =
      raise (classFault c side.faultCode (s.chan c).entry.cls) (credited c x rt' s) := by
  have hne : rt'.condition ≠ (s.chan c).rt.condition := by
    rw [hold, hnew]
    exact condition_ne_normal side
  rw [windowReading, credited_chan hc]
  dsimp only
  rw [hstep, setRt_credited hc _ rt']
  refine (if_neg hne).trans ?_
  rw [hold]
  dsimp only
  rw [hnew, side_condition]
  rfl

theorem windowReading_of_returned (hold : (s.chan c).rt.condition = held.condition) (hnew : rt'.condition = .normal) :
    windowReading c x.toNat (credited c x (s.chan c).rt s) = gone (.channel c) held.faultCode (credited c x rt' s) := by
  have hne : rt'.condition ≠ (s.chan c).rt.condition := by
    rw [hold, hnew]
    exact (condition_ne_normal held).symm
  rw [windowReading, credited_chan hc]
  dsimp only
  rw [hstep, setRt_credited hc _ rt']
  refine (if_neg hne).trans ?_
  rw [hold, side_condition]
  dsimp only
  rw [hnew]
  rfl

theorem windowReading_of_crossed (hold : (s.chan c).rt.condition = held.condition) (hnew : rt'.condition = side.condition)
    (hne : side ≠ held) : windowReading c x.toNat (credited c x (s.chan c).rt s) =
      raise (classFault c side.faultCode (s.chan c).entry.cls) (gone (.channel c) held.faultCode (credited c x rt' s)) := by
  have hdiff : rt'.condition ≠ (s.chan c).rt.condition := by
    rw [hold, hnew]
    intro he
    have hsides := side_condition side
    rw [he, side_condition] at hsides
    exact hne (Option.some.inj hsides).symm
  rw [windowReading, credited_chan hc]
  dsimp only
  rw [hstep, setRt_credited hc _ rt']
  refine (if_neg hdiff).trans ?_
  rw [hold, side_condition]
  dsimp only
  rw [hnew, side_condition]

end

end Sys2Proof.Machine
end

section
/-! SUPPORT. CABIN_ID readings (R73, R74), captured readings (R194), and the readings by kind. -/

namespace Sys2Proof.Machine

open Sys2Proof.Safety

/-! ## The readings by kind -/

section
variable {c : Nat} {x t : Word16} {s : State}

theorem kind_setRt (hc : c < 48) (rt : Runtime) : ((setRt c rt s).chan c).entry.kind = (s.chan c).entry.kind := by
  rw [setRt, chan_setChan_same hc]

theorem judgeReading_window (hc : c < 48) (hk : (s.chan c).entry.kind = .tension ∨ (s.chan c).entry.kind = .ropeOffset) :
    judgeReading c x t (setRt c { (s.chan c).rt with lastReading := x } s)
      = windowReading c x.toNat (credited c x (s.chan c).rt s) := by
  rw [judgeReading, kind_setRt hc]
  rcases hk with hk | hk
  · rw [hk]
    exact congrArg (windowReading c x.toNat) (accepted_reading hc)
  · rw [hk]
    exact congrArg (windowReading c x.toNat) (accepted_reading hc)

theorem judgeReading_mark (hc : c < 48) (hk : (s.chan c).entry.kind = .trackMark) :
    judgeReading c x t (setRt c { (s.chan c).rt with lastReading := x } s)
      = markReading c x (credited c x (s.chan c).rt s) := by
  rw [judgeReading, kind_setRt hc, hk]
  exact congrArg (markReading c x) (accepted_reading hc)

theorem judgeReading_passage (hc : c < 48) (hk : (s.chan c).entry.kind = .passage) :
    judgeReading c x t (setRt c { (s.chan c).rt with lastReading := x } s)
      = passageReading c x (credited c x (s.chan c).rt s) := by
  rw [judgeReading, kind_setRt hc, hk]
  exact congrArg (passageReading c x) (accepted_reading hc)

theorem judgeReading_cabinId (hc : c < 48) (hk : (s.chan c).entry.kind = .cabinId) :
    judgeReading c x t (setRt c { (s.chan c).rt with lastReading := x } s)
      = cabinIdEvent (if x.toNat ≤ 999 then x.toNat else 0) (credited c x (s.chan c).rt s) := by
  rw [judgeReading, kind_setRt hc, hk]
  exact congrArg (cabinIdReading x) (accepted_reading hc)

/-- R30, R31: the counter's new base. -/
theorem setRt_based (hc : c < 48) : setRt c { ((credited c x (s.chan c).rt s).chan c).rt with counterBase := some x }
    (credited c x (s.chan c).rt s) = credited c x { (s.chan c).rt with counterBase := some x } s := by
  rw [credited_chan hc]
  exact setRt_credited hc _ { (s.chan c).rt with counterBase := some x }

theorem passageReading_of_quiet (hc : c < 48)
    (h : (s.chan c).rt.counterBase = none ∨ (s.chan c).rt.counterBase = some x) :
    passageReading c x (credited c x (s.chan c).rt s) = credited c x { (s.chan c).rt with counterBase := some x } s := by
  rw [passageReading, setRt_based hc, credited_chan hc]
  dsimp only
  rcases h with h | h
  · rw [h]
  · rw [h]
    exact if_pos rfl

/-! ## Captured readings (R194) -/

theorem captureReading_of_other {k : Capture} (hk : s.dr.capture = some k)
    (h : k.channel ≠ c ∨ k.remaining = 0 ∨ k.written = true) : captureReading c x t s = s := by
  rw [captureReading, hk]
  exact if_pos h

theorem captureReading_of_full {k : Capture} (hk : s.dr.capture = some k) (hc : k.channel = c) (hr : k.remaining ≠ 0)
    (hw : k.written = false) (hfull : 16 ≤ k.buffer.length) :
    captureReading c x t s = { s with dr := { s.dr with capture := some { k with gap := true } } } := by
  rw [captureReading, hk]
  exact (if_neg (by simp [hc, hr, hw])).trans (if_pos hfull)

theorem captureReading_of_room {k : Capture} (hk : s.dr.capture = some k) (hc : k.channel = c) (hr : k.remaining ≠ 0)
    (hw : k.written = false) (hroom : k.buffer.length < 16) :
    captureReading c x t s = { s with dr := { s.dr with capture := some { k with
      buffer := k.buffer ++ [{ reading := x, stamp := t, gap := k.gap, subst := k.subst }]
      gap := false, subst := false, remaining := k.remaining - 1 } } } := by
  rw [captureReading, hk]
  exact (if_neg (by simp [hc, hr, hw])).trans (if_neg (Nat.not_le.2 hroom))

end

/-! ## Cabin identities (R73, R74) -/

section
variable {id : Nat} {s : State} {p : Cabin → Prop} {q : List Cabin}

/-- The queue without its oldest record that meets `p`, which is in no berth and has not failed its grip test. -/
def Leaves (p : Cabin → Prop) (s : State) (q : List Cabin) : Prop := ((∀ y ∈ s.ct.queue, ¬ p y) ∧ q = s.ct.queue)
  ∨ ∃ before o after, s.ct.queue = before ++ o :: after ∧ p o ∧ (∀ y ∈ before, ¬ p y) ∧ o.grip ≠ .fail
    ∧ s.isBerth o.zone = false ∧ q = before ++ after

theorem Leaves.eraseP {f : Cabin → Bool} (hf : ∀ y, f y = true ↔ p y) (h : Leaves p s q) : s.ct.queue.eraseP f = q
    ∧ ∀ y, s.ct.queue.find? f = some y → y.grip ≠ .fail ∧ s.isBerth y.zone = false := by
  have hnot : ∀ {y}, ¬ p y → f y = false := fun hn => Bool.eq_false_iff.2 (mt (hf _).1 hn)
  rcases h with ⟨hn, rfl⟩ | ⟨before, o, after, hq, ho, hb, hg, hz, rfl⟩
  · refine ⟨List.eraseP_of_forall_not fun y hy => by simp [hnot (hn y hy)], fun y hy => ?_⟩
    exact absurd ((hf y).1 (List.find?_some hy)) (hn y (List.mem_of_find?_eq_some hy))
  · rw [hq]
    refine ⟨eraseP_of_split (fun y hy => hnot (hb y hy)) ((hf o).2 ho), fun y hy => ?_⟩
    rw [find?_of_split (fun y hy => hnot (hb y hy)) ((hf o).2 ho)] at hy
    cases hy
    exact ⟨hg, hz⟩

theorem olderLeft?_of_quiet {o : Option Cabin} (hset : Settled s)
    (h : ∀ y, o = some y → y.grip ≠ .fail ∧ s.isBerth y.zone = false) : olderLeft? o s = s := by
  cases o with
  | none => rfl
  | some y =>
    obtain ⟨hg, hz⟩ := h y rfl
    rw [olderLeft?, olderLeft, recordGone_of_quiet hset hg]
    exact if_neg (by rw [hz]; exact Bool.false_ne_true)

theorem cabinIdEvent_of_full (h : 24 ≤ s.ct.queue.length) :
    cabinIdEvent id s = raise (eventFault (.cabin id) .trackFull) s := if_pos h

section
variable (hroom : s.ct.queue.length < 24)
include hroom

theorem cabinIdEvent_of_foreign (hr : s.registered id = false) : cabinIdEvent id s = enterUnregistered id s :=
  (if_neg (Nat.not_le.2 hroom)).trans (if_pos (by rw [hr]; rfl))

theorem cabinIdEvent_of_oldest {y : DownEntry} {rest : List DownEntry} (hr : s.registered id = true)
    (hd : s.ct.downhill = y :: rest) (hy : y.id = id) : cabinIdEvent id s = enterOldest id y s := by
  rw [cabinIdEvent, hd]
  exact (if_neg (Nat.not_le.2 hroom)).trans ((if_neg (by simp [hr])).trans (if_pos hy))

theorem cabinIdEvent_of_later {y : DownEntry} {rest : List DownEntry} (hr : s.registered id = true)
    (hd : s.ct.downhill = y :: rest) (hy : y.id ≠ id) (hz : ∃ z ∈ rest, z.id = id) :
    cabinIdEvent id s = enterOutOfOrder id s := by
  rw [cabinIdEvent, hd]
  exact (if_neg (Nat.not_le.2 hroom)).trans ((if_neg (by simp [hr])).trans ((if_neg hy).trans (if_pos (by simpa using hz))))

theorem cabinIdEvent_of_unlisted (hr : s.registered id = true) (hd : ∀ z ∈ s.ct.downhill, z.id ≠ id) :
    cabinIdEvent id s = enterUnknown id s := by
  rw [cabinIdEvent]
  refine (if_neg (Nat.not_le.2 hroom)).trans ((if_neg (by simp [hr])).trans ?_)
  cases h : s.ct.downhill with
  | nil => rfl
  | cons y rest =>
    rw [h] at hd
    refine (if_neg (hd y List.mem_cons_self)).trans (if_neg ?_)
    simp only [List.any_eq_true, beq_iff_eq, not_exists, not_and]
    exact fun z hz => hd z (List.mem_cons_of_mem _ hz)

end

/-- R74: a registered cabin's record has joined the queue `q`, its location TERMINAL. -/
def joined (id : Nat) (mark : Bool) (q : List Cabin) (up : List UpEntry) (down : List DownEntry) (s : State) : State :=
  setFlag .cabinEntry (setLocation id .terminal { s with ct := { s.ct with
    queue := q ++ [newCabin id .registered mark s], uphill := up, downhill := down } })

/-- R73: a FOREIGN record has joined the queue `q`. -/
def joinedForeign (id : Nat) (q : List Cabin) (s : State) : State :=
  setFlag .cabinEntry { s with ct := { s.ct with queue := q ++ [newCabin id .foreign false s] } }

theorem joined_settled (h : Settled s) (mark : Bool) (up : List UpEntry) (down : List DownEntry) :
    Settled (joined id mark q up down s) :=
  Settled.after (s := setLocation id .terminal { s with ct := { s.ct with
    queue := q ++ [newCabin id .registered mark s], uphill := up, downhill := down } })
    ⟨h.deferred, h.waiting, h.launched, h.room⟩ (setFlag_lineOnly _ _)

theorem joinedForeign_settled (h : Settled s) : Settled (joinedForeign id q s) :=
  Settled.after (s := { s with ct := { s.ct with queue := q ++ [newCabin id .foreign false s] } })
    ⟨h.deferred, h.waiting, h.launched, h.room⟩ (setFlag_lineOnly _ _)

theorem joined_cm (mark : Bool) (up : List UpEntry) (down : List DownEntry) : (joined id mark q up down s).cm = s.cm := by
  rw [joined, setFlag_cm]
  rfl

theorem joined_straps (mark : Bool) (up : List UpEntry) (down : List DownEntry) :
    (joined id mark q up down s).straps = s.straps := by
  rw [joined, setFlag_straps]
  rfl

theorem filter_bne {α : Type} (f : α → Nat) (n : Nat) (l : List α) :
    (l.filter fun z => f z != n) = l.filter fun z => f z ≠ n :=
  List.filter_congr fun z _ => by by_cases hz : f z = n <;> simp [hz]

theorem olderLeft?_after {v : State} {f : Cabin → Bool} (hset : Settled v) (hstraps : v.straps = s.straps)
    (hf : ∀ y, s.ct.queue.find? f = some y → y.grip ≠ .fail ∧ s.isBerth y.zone = false) :
    evalRelease (olderLeft? (s.ct.queue.find? f) v) = updateRelease v := by
  rw [olderLeft?_of_quiet hset fun y hy => (hf y hy).imp_right fun h => (isBerth_congr hstraps _).trans h,
    evalRelease_settled hset]

section
variable (hroom : s.ct.queue.length < 24)
include hroom

theorem oldest_enters {y : DownEntry} {rest : List DownEntry} (hr : s.registered id = true)
    (hd : s.ct.downhill = y :: rest) (hy : y.id = id) : cabinIdEvent id s =
      if outsideWindow s.params.downhillSpan s.params.tolerance (s.forwardDist y.pos) then
        raise (eventFault (.cabin id) .arrivalPosition) (joined id false s.ct.queue s.ct.uphill rest s)
      else joined id false s.ct.queue s.ct.uphill rest s := by
  rw [cabinIdEvent_of_oldest hroom hr hd hy, enterOldest, oldestMove, show s.ct.downhill.drop 1 = rest by rw [hd]; rfl]
  rfl

theorem later_enters {y : DownEntry} {rest : List DownEntry} (hr : s.registered id = true)
    (hd : s.ct.downhill = y :: rest) (hy : y.id ≠ id) (hz : ∃ z ∈ rest, z.id = id) : cabinIdEvent id s =
      raise (eventFault (.cabin id) .order) (setFlag .cabinOrder
        (joined id true s.ct.queue s.ct.uphill (s.ct.downhill.filter fun z => z.id ≠ id) s)) := by
  rw [cabinIdEvent_of_later hroom hr hd hy hz, enterOutOfOrder, outOfOrderMove, filter_bne]
  rfl

theorem unlisted_enters (hset : Settled s) (hr : s.registered id = true) (hd : ∀ z ∈ s.ct.downhill, z.id ≠ id)
    (hq : Leaves (fun y => y.id = id) s q) : cabinIdEvent id s =
      updateRelease (raise (eventFault (.cabin id) .unknownCabin)
        (joined id false q (s.ct.uphill.filter fun z => z.id ≠ id) s.ct.downhill s)) := by
  obtain ⟨herase, hfound⟩ := hq.eraseP (f := fun y => y.id == id) fun y => beq_iff_eq
  have hset' := joined_settled (id := id) (q := q) hset false (s.ct.uphill.filter fun z => z.id ≠ id) s.ct.downhill
  have hline := raise_lineOnly (eventFault (.cabin id) .unknownCabin) hset'
  have hmove : setFlag .cabinEntry (unknownMove id s)
      = joined id false q (s.ct.uphill.filter fun z => z.id ≠ id) s.ct.downhill s := by
    rw [unknownMove, filter_bne, herase]
    rfl
  rw [cabinIdEvent_of_unlisted hroom hr hd, enterUnknown, hmove]
  exact olderLeft?_after (hset'.after hline) ((hline.others .straps (by decide)).trans (joined_straps _ _ _)) hfound

theorem foreign_enters (hset : Settled s) (hid : 1 ≤ id) (hr : s.registered id = false)
    (hq : Leaves (fun y => y.identity = .foreign ∧ y.id = id) s q) : cabinIdEvent id s =
      updateRelease (raise (eventFault (.cabin id) .unknownCabin) (joinedForeign id q s)) := by
  obtain ⟨herase, hfound⟩ := hq.eraseP (f := foreignOf id) fun y => by
    rw [foreignOf, Bool.and_eq_true, beq_iff_eq, beq_iff_eq]
  have hset' := joinedForeign_settled (id := id) (q := q) hset
  have hline := raise_lineOnly (eventFault (.cabin id) .unknownCabin) hset'
  have hmove : setFlag .cabinEntry (foreignMove id s) = joinedForeign id q s := by
    rw [foreignMove, herase]
    rfl
  have hstraps : (joinedForeign id q s).straps = s.straps := by
    rw [joinedForeign, setFlag_straps]
  rw [cabinIdEvent_of_foreign hroom hr, enterUnregistered, if_neg (Nat.one_le_iff_ne_zero.1 hid), hmove]
  exact olderLeft?_after (hset'.after hline) ((hline.others .straps (by decide)).trans hstraps) hfound

end

end

theorem entries_of_lineOnly {c : Nat} {x : Word16} {rt : Runtime} {s v : State} (h : LineOnly (credited c x rt s) v)
    (i : Nat) : (v.chan i).entry = (s.chan i).entry := by
  rw [State.chan, lineOnly_cm h]
  exact credited_entries rt i

/-- Settles O22. -/
theorem windowCabinIdAndCaptureReadings : Obligations.WindowCabinIdAndCaptureReadings := by
  intro bytes x t c s hset e rt runs
  refine ⟨fun h => ⟨fun hkind => ?_, fun hkind => ?_⟩, fun k hk h hkind hbase => ?_⟩
  · intro out cond fault raised count entered
    have hc := h.known
    have hside : ∀ side, out side → outSide e x.toNat = some side := fun side ho =>
      outSide_of_out (by cases side <;> exact ho)
    have hcond : ∀ side, cond side = side.condition := fun side => by cases side <;> rfl
    have hfault : ∀ side, fault side = side.faultCode := fun side => by cases side <;> rfl
    have hruns : ∀ {rt' v}, windowReading c x.toNat (credited c x rt s) = v → LineOnly (credited c x rt' s) v → runs v :=
      fun hv hline => sampled_runs h ((judgeReading_window hc hkind).trans hv) (entries_of_lineOnly hline)
    let st : Runtime := { rt with lastReading := x, lastAccepted := s.now }
    have hsame : ∀ {rt' : Runtime}, windowStep e x.toNat st = { rt' with lastReading := x, lastAccepted := s.now } →
        rt'.condition = rt.condition → runs (credited c x rt' s) := fun hstep hkeep =>
      hruns (windowReading_of_same hc hstep hkeep) (.refl _)
    have hraised : ∀ (side : Side) {v w : State}, Settled v → w = raise (classFault c side.faultCode e.cls) v →
        raised side v w := fun side v w hv hw => by
      rw [hw, classFault_eq, ← hfault]
      exact raise_raised _ hv
    refine ⟨fun hn => ⟨fun hlow hhigh => ?_, fun side ho => ⟨fun hlt => ?_, fun hle => ?_⟩⟩, fun held hheld => ?_⟩
    · refine hsame (rt' := { rt with runCount := 0 }) ?_ rfl
      exact windowStep_of_normal_in (rt := st) hn (outSide_of_inside hlow hhigh)
    · refine hsame (rt' := { rt with runCount := count side, runSide := side }) ?_ rfl
      exact (windowStep_of_normal_out (rt := st) hn (hside side ho)).trans (if_neg (Nat.not_le.2 hlt))
    · refine ⟨_, hruns (windowReading_of_entered (side := side) (rt' := { rt with
        condition := cond side, runCount := 0, runSide := side, returnCount := 0 }) hc ?_ hn (hcond side))
        (raise_lineOnly _ (credited_settled hset _)), ?_⟩
      · refine (windowStep_of_normal_out (rt := st) hn (hside side ho)).trans ((if_pos hle).trans ?_)
        rw [hcond]
      · exact hraised side (credited_settled hset _) rfl
    · rw [hcond] at hheld
      refine ⟨fun ho => ?_, fun hlow hhigh hband => ?_, fun hlow hhigh => ⟨fun hlt => ?_, fun hle => ?_⟩,
        fun side hne ho => ⟨fun hlt => ?_, fun hle => ?_⟩⟩
      · refine hsame (rt' := { rt with runCount := 0, returnCount := 0 }) ?_ rfl
        exact windowStep_of_held_out (rt := st) hheld (hside held ho)
      · refine hsame (rt' := { rt with runCount := 0, returnCount := 0 }) ?_ rfl
        exact windowStep_of_held_in (rt := st) hheld (outSide_of_inside hlow hhigh) (decide_eq_false (by omega))
      · refine hsame (rt' := { rt with runCount := 0, returnCount := rt.returnCount + 1 }) ?_ rfl
        exact (windowStep_of_held_return (rt := st) hheld (outSide_of_inside (by omega) (by omega))
          (decide_eq_true ⟨hlow, hhigh⟩)).trans (if_neg (Nat.not_le.2 hlt))
      · refine ⟨_, hruns (windowReading_of_returned (held := held) (rt' := { rt with
          condition := .normal, runCount := 0, returnCount := 0 }) hc ?_ hheld rfl)
          (gone_lineOnly _ _ (credited_settled hset _)), ?_⟩
        · exact (windowStep_of_held_return (rt := st) hheld (outSide_of_inside (by omega) (by omega))
            (decide_eq_true ⟨hlow, hhigh⟩)).trans (if_pos hle)
        · rw [hfault]
          exact gone_withdrawn _ _ (credited_settled hset _)
      · refine hsame (rt' := { rt with runCount := count side, runSide := side, returnCount := 0 }) ?_ rfl
        exact (windowStep_of_held_other (rt := st) hheld (hside side ho) hne).trans (if_neg (Nat.not_le.2 hlt))
      · have hgone := gone_lineOnly (.channel c) held.faultCode (credited_settled (c := c) (x := x) hset { rt with
          condition := cond side, runCount := 0, runSide := side, returnCount := 0 })
        have hset' := (credited_settled (c := c) (x := x) hset _).after hgone
        refine ⟨_, _, ?_, hraised side hset' rfl, hruns (windowReading_of_crossed (held := held) (side := side)
          (rt' := { rt with condition := cond side, runCount := 0, runSide := side, returnCount := 0 }) hc ?_ hheld
          (hcond side) hne) (hgone.trans (raise_lineOnly _ hset'))⟩
        · rw [hfault]
          exact gone_withdrawn _ _ (credited_settled hset _)
        · refine (windowStep_of_held_other (rt := st) hheld (hside side ho) hne).trans ((if_pos hle).trans ?_)
          rw [hcond]
  · intro id base event fresh leaves
    have hc := h.known
    have hbase : Settled base := credited_settled hset rt
    have hruns : ∀ {v}, cabinIdEvent id base = v → v.cm = base.cm → runs v := fun hv hcm =>
      sampled_runs h ((judgeReading_cabinId hc hkind).trans hv) fun i => by
        rw [State.chan, hcm]
        exact credited_entries rt i
    refine ⟨fun hfull => ⟨_, hruns (cabinIdEvent_of_full hfull) (lineOnly_cm (raise_lineOnly _ hbase)),
      raise_raised _ hbase⟩, fun hroom hid => ⟨fun hreg => ⟨fun y rest hdown hy => ⟨fun hlow hhigh => ?_, fun hout => ?_⟩,
        fun y rest hdown hy hz => ?_, fun hdown q hq => ?_⟩, fun hreg q hq => ?_⟩⟩
    · have hin := oldest_enters (s := base) hroom hreg hdown hy
      refine hruns (hin.trans (if_neg fun hn => ?_)) (joined_cm _ _ _)
      exact (of_decide_eq_true hn).elim (Nat.not_lt.2 hlow) (Nat.not_lt.2 hhigh)
    · have hset' := joined_settled (id := id) (q := s.ct.queue) hbase false s.ct.uphill rest
      exact ⟨_, hruns ((oldest_enters (s := base) hroom hreg hdown hy).trans (if_pos (decide_eq_true hout)))
        ((lineOnly_cm (raise_lineOnly _ hset')).trans (joined_cm _ _ _)), raise_raised _ hset'⟩
    · have hset' := joined_settled (id := id) (q := s.ct.queue) hbase true s.ct.uphill
        (s.ct.downhill.filter fun z => z.id ≠ id)
      have hset'' := hset'.after (setFlag_lineOnly .cabinOrder _)
      exact ⟨_, hruns (later_enters (s := base) hroom hreg hdown hy hz) ((lineOnly_cm (raise_lineOnly _ hset'')).trans
        ((lineOnly_cm (setFlag_lineOnly _ _)).trans (joined_cm _ _ _))), raise_raised _ hset''⟩
    · have hset' := joined_settled (id := id) (q := q) hbase false (s.ct.uphill.filter fun z => z.id ≠ id) s.ct.downhill
      exact ⟨_, hruns (unlisted_enters (s := base) hroom hbase hreg hdown hq) ((lineOnly_cm (updateRelease_lineOnly _)).trans
        ((lineOnly_cm (raise_lineOnly _ hset')).trans (joined_cm _ _ _))), raise_raised _ hset'⟩
    · have hset' := joinedForeign_settled (id := id) (q := q) hbase
      refine ⟨_, hruns (foreign_enters (s := base) hroom hbase hid hreg hq) ((lineOnly_cm (updateRelease_lineOnly _)).trans
        ((lineOnly_cm (raise_lineOnly _ hset')).trans ?_)), raise_raised _ hset'⟩
      rw [joinedForeign, setFlag_cm]
  · intro based
    have hrun : ∀ d : DeskUnit, captureReading c x t s = { s with dr := d } → runs { based with dr := d } := fun d hcap => by
      have hjudge := judgeReading_passage (s := { s with dr := d }) (c := c) (x := x) (t := t) h.known hkind
      rw [passageReading_of_quiet (s := { s with dr := d }) h.known hbase] at hjudge
      exact exec_sampled h hcap hjudge (credited_entries _)
    refine ⟨fun hother => hrun s.dr (captureReading_of_other hk hother), fun hc hr hw => ⟨fun hfull => ?_,
      fun hroom => ?_⟩⟩
    · exact hrun _ (captureReading_of_full hk hc hr hw hfull)
    · exact hrun _ (captureReading_of_room hk hc hr hw hroom)

end Sys2Proof.Machine
end

section
/-! SUPPORT. TRACK_MARK readings and zone moves (R30, R75, R76). -/

namespace Sys2Proof.Machine

open Sys2Proof.Safety

/-! ## What DS's door operations change -/

/-- Two states differ at most in DS and LR. -/
def DoorsOnly (s t : State) : Prop := t = { s with ds := t.ds, lr := t.lr }

section
variable {s t u : State} {j : Nat}

theorem DoorsOnly.refl (s : State) : DoorsOnly s s := rfl

theorem DoorsOnly.trans (h : DoorsOnly s t) (g : DoorsOnly t u) : DoorsOnly s u :=
  Eq.trans g (congrArg (fun x : State => { x with ds := u.ds, lr := u.lr }) h)

theorem DoorsOnly.cm (h : DoorsOnly s t) : t.cm = s.cm := by
  rw [h]

theorem DoorsOnly.settled (h : DoorsOnly s t) (hs : Settled s) : Settled t := by
  rw [h]
  exact settled_of_eq hs rfl rfl rfl

theorem placeCommand_doorsOnly (j : Nat) (s : State) : DoorsOnly s (placeCommand j s) := by
  rw [placeCommand]
  split
  · exact .refl s
  · rfl

theorem offerCommand_doorsOnly (j : Nat) (s : State) : DoorsOnly s (offerCommand j s) := by
  rw [offerCommand]
  split
  · exact placeCommand_doorsOnly j s
  · rfl

theorem formOpen_doorsOnly (j : Nat) (st : DoorState) (kind : DwellKind) (s : State) : DoorsOnly s (formOpen j st kind s) :=
  DoorsOnly.trans (t := setDoor j { (recordCommand j .open st s).door j with dwellKind := kind } (recordCommand j .open st s))
    rfl (offerCommand_doorsOnly j _)

theorem settleGather_doorsOnly (s : State) : DoorsOnly s (settleGather s) := by
  rw [settleGather]
  split <;> rfl

theorem openWithDwell_doorsOnly (j : Nat) (s : State) : DoorsOnly s (openWithDwell j s) :=
  DoorsOnly.trans (t := setDoor j { s.door j with
    state := .open, dwellTimer := .running (s.now + (s.berth j).entry.fullDwell) } s) rfl (settleGather_doorsOnly _)

theorem updateWarning_doorsOnly (m : Byte) (s : State) : DoorsOnly s (updateWarning m s) := by
  rw [updateWarning]
  split
  · rfl
  · split
    · rfl
    · rw [formWarning]
      split
      · rfl
      · dsimp only
        split <;> rfl

theorem noticeLocked_cm {b : Bool} (hset : Settled s) : (noticeLocked j b s).cm = s.cm := by
  by_cases hnews : ∃ c ∈ s.ct.queue, c.zone = j ∧ c.locked ≠ b
  · rw [noticeLocked_of_news hset hnews]
    exact updateRelease_cm _
  · rw [noticeLocked_of_same fun c hc hz => by
      by_contra hl
      exact hnews ⟨c, hc, hz, hl⟩]

/-- R102: in a settled state an opening leaves CM alone. -/
theorem openForCabin_cm (hset : Settled s) : (openForCabin j s).cm = s.cm := by
  have hnotice : ∀ {v : State}, DoorsOnly s v → (noticeLocked j false v).cm = s.cm := fun hv =>
    (noticeLocked_cm (hv.settled hset)).trans hv.cm
  rw [openForCabin]
  dsimp only
  split
  · exact hnotice (formOpen_doorsOnly j .opening .full s)
  · exact hnotice (formOpen_doorsOnly j .opening .full s)
  · exact hnotice rfl
  · exact hnotice rfl
  · exact hnotice rfl
  · exact hnotice (openWithDwell_doorsOnly j s)
  · rfl

theorem openDelayOut_cm (hset : Settled s) : (openDelayOut j s).cm = s.cm :=
  (updateWarning_doorsOnly _ _).cm.trans (openForCabin_cm (DoorsOnly.settled (t := setDoor j _ s) rfl hset))

theorem berthEntered_cm {id : Nat} (hset : Settled s) : (berthEntered j id s).cm = s.cm := by
  rw [berthEntered]
  dsimp only
  split
  · split
    · exact openDelayOut_cm (DoorsOnly.settled (t := setDoor j _ s) rfl hset)
    · rfl
  · rfl

end

/-! ## A TRACK_MARK reading (R30) -/

section
variable {c : Nat} {x base : Word16} {s : State} (hc : c < 48)
include hc

theorem markReading_of_quiet (h : (s.chan c).rt.counterBase = none ∨ (s.chan c).rt.counterBase = some x) :
    markReading c x (credited c x (s.chan c).rt s) = credited c x { (s.chan c).rt with counterBase := some x } s := by
  rw [markReading, setRt_based hc, credited_chan hc]
  dsimp only
  rcases h with h | h
  · rw [h]
  · rw [h]
    exact if_pos (by rw [BitVec.sub_self]; rfl)

theorem markReading_of_skip (h : (s.chan c).rt.counterBase = some base) (hd : 2 ≤ (x - base).toNat) :
    markReading c x (credited c x (s.chan c).rt s)
      = raise (markSkip c) (credited c x { (s.chan c).rt with counterBase := some x } s) := by
  rw [markReading, setRt_based hc, credited_chan hc]
  dsimp only
  rw [h]
  exact (if_neg (by omega)).trans (if_neg (by omega))

theorem markReading_of_step (h : (s.chan c).rt.counterBase = some base) (hd : x = base + 1) :
    markReading c x (credited c x (s.chan c).rt s) = passageEvent (s.chan c).entry.boundary
      (gone (.channel c) .markSkip (credited c x { (s.chan c).rt with counterBase := some x } s)) := by
  have hone : (x - base).toNat = 1 := by
    rw [hd, BitVec.add_comm, BitVec.add_sub_cancel]
    rfl
  rw [markReading, setRt_based hc, credited_chan hc]
  dsimp only
  rw [h]
  exact (if_neg (by omega)).trans (if_pos hone)

end

/-! ## Zone moves (R75, R76) -/

section
variable {k : Nat} {r : Cabin} {before after : List Cabin} {s : State}

theorem passageEvent_of_move (h : k ≤ s.berthCount + 1) : passageEvent k s = zoneMove k s := if_neg (by omega)

theorem zoneMove_of_empty (h : ∀ y ∈ s.ct.queue, y.zone ≠ k - 1) :
    zoneMove k s = raise (eventFault (.cabin 0) .phantom) s := by
  rw [zoneMove, List.find?_eq_none.2 fun y hy => by simpa using h y hy]

section
variable (hq : s.ct.queue = before ++ r :: after) (hr : r.zone = k - 1) (hb : ∀ y ∈ before, y.zone ≠ k - 1)
include hq hr hb

theorem zoneMove_of_found :
    zoneMove k s = if zoneRoom k s then moveInto k r s else raise (eventFault (.cabin r.id) .phantom) s := by
  have hfind : s.ct.queue.find? (fun y => y.zone == k - 1) = some r := by
    rw [hq]
    exact find?_of_split (fun y hy => by simpa using hb y hy) (by simpa using hr)
  rw [zoneMove, hfind]

theorem zoneShift_of_found (bad : Bool) : zoneShift k bad s =
    { s with ct := { s.ct with queue := before ++ { r with zone := k, locked := r.locked && !bad } :: after } } := by
  rw [zoneShift, hq, modifyFirst_of_split (fun y hy => by simpa using hb y hy) (by simpa using hr)]
  rfl

end

theorem zoneRoom_iff : zoneRoom k s = true ↔ if k = s.launchZone then inZone k s < 2 else inZone k s < 1 := by
  rw [zoneRoom]
  split <;> exact decide_eq_true_iff

theorem exitCheck_of_closed {j : Nat} (h : (s.door j).state = .closed) : exitCheck j s = s := if_pos h

theorem exitCheck_of_open {j : Nat} (h : (s.door j).state ≠ .closed) :
    exitCheck j s = raise (eventFault (.berth j) .doorNotLocked) s := if_neg h

end

end Sys2Proof.Machine
end

section
/-! TRACK_MARK readings, zone moves and launches (R30, R75, R76, R83, R84). -/

namespace Sys2Proof.Machine

open Sys2Proof.Safety

/-! ## A record's move (R75, R76) -/

section
variable {k : Nat} {r : Cabin} {before after : List Cabin} {s w : State}

/-- R75: the queue's record stands in zone `k`. -/
def stood (k : Nat) (r : Cabin) (before after : List Cabin) (locked : Bool) (s : State) : State :=
  { s with ct := { s.ct with queue := before ++ { r with zone := k, locked := locked } :: after } }

/-- R101: the berth left, when there is one. -/
def leftZone (k : Nat) (s : State) : State := if k = 1 then s else berthVacated (k - 1) s

/-- R75, R101: the zone entered. -/
def enteredZone (k id : Nat) (s : State) : State :=
  if k = s.berthCount + 1 then updateRelease s else berthEntered k id s

theorem stood_settled (h : Settled s) (locked : Bool) : Settled (stood k r before after locked s) :=
  ⟨h.deferred, h.waiting, h.launched, h.room⟩

theorem leftZone_doorsOnly (k : Nat) (s : State) : DoorsOnly s (leftZone k s) := by
  rw [leftZone]
  split <;> rfl

theorem DoorsOnly.berthCount (h : DoorsOnly s w) : w.berthCount = s.berthCount := by
  rw [h]
  rfl

theorem enteredZone_cm {id : Nat} (h : Settled s) : (enteredZone k id s).cm = s.cm := by
  rw [enteredZone]
  split
  · exact updateRelease_cm s
  · exact berthEntered_cm h

theorem isBerth_left (h1 : 2 ≤ k) (hk : k ≤ s.berthCount + 1) : s.isBerth (k - 1) = true :=
  decide_eq_true (by omega)

theorem enteredZone_of_moved {id : Nat} {u : State} (hu : Settled u) (hcount : u.berthCount = s.berthCount) :
    (if k = s.launchZone then evalRelease u else berthEntered k id u) = enteredZone k id u := by
  rw [enteredZone, evalRelease_settled hu, hcount]
  rfl

section
variable (hset : Settled s) (hq : s.ct.queue = before ++ r :: after) (hr : r.zone = k - 1)
  (hb : ∀ y ∈ before, y.zone ≠ k - 1) (hk : k ≤ s.berthCount + 1)
include hset hq hr hb hk

theorem moveInto_of_closed (h1 : 1 ≤ k) (h : k = 1 ∨ (s.door (k - 1)).state = .closed) :
    moveInto k r s = enteredZone k r.id (leftZone k (stood k r before after r.locked s)) := by
  have hbad : (s.isBerth (k - 1) && (s.door (k - 1)).state != .closed) = false := by
    rcases h with rfl | h
    · rfl
    · rw [h, Bool.and_eq_false_iff]
      exact .inr rfl
  have hshift : zoneShift k false s = stood k r before after r.locked s := by
    rw [zoneShift_of_found hq hr hb, Bool.not_false, Bool.and_true]
    rfl
  have hleft : (if s.isBerth (k - 1) then berthVacated (k - 1) (exitCheck (k - 1) (zoneShift k false s))
      else zoneShift k false s) = leftZone k (stood k r before after r.locked s) := by
    rw [hshift, leftZone]
    by_cases hone : k = 1
    · rw [if_pos hone, hone]
      rfl
    · rw [if_neg hone, isBerth_left (by omega) hk, if_pos rfl]
      exact congrArg (berthVacated (k - 1)) (exitCheck_of_closed (h.resolve_left hone))
  have hdoors := leftZone_doorsOnly k (stood k r before after r.locked s)
  rw [moveInto, hbad, hshift]
  refine Eq.trans ?_ (enteredZone_of_moved (s := s) (hdoors.settled (stood_settled hset _)) hdoors.berthCount)
  rw [← hleft, hshift]

theorem moveInto_of_open (h2 : 2 ≤ k) (h : (s.door (k - 1)).state ≠ .closed) :
    moveInto k r s = enteredZone k r.id (leftZone k
      (raise (eventFault (.berth (k - 1)) .doorNotLocked) (stood k r before after false s))) := by
  have hberth : s.isBerth (k - 1) = true := isBerth_left h2 hk
  have hbad : (s.isBerth (k - 1) && (s.door (k - 1)).state != .closed) = true := by
    rw [hberth, Bool.true_and, bne_iff_ne]
    exact h
  have hshift : zoneShift k true s = stood k r before after false s := by
    rw [zoneShift_of_found hq hr hb, Bool.not_true, Bool.and_false]
    rfl
  have hset' := stood_settled (k := k) (r := r) (before := before) (after := after) hset false
  have hline := raise_lineOnly (eventFault (.berth (k - 1)) .doorNotLocked) hset'
  have hdoors := leftZone_doorsOnly k (raise (eventFault (.berth (k - 1)) .doorNotLocked)
    (stood k r before after false s))
  have hcount : (raise (eventFault (.berth (k - 1)) .doorNotLocked) (stood k r before after false s)).berthCount
      = s.berthCount := by
    rw [State.berthCount, hline.others .straps (by decide)]
    rfl
  have hleft : berthVacated (k - 1) (exitCheck (k - 1) (stood k r before after false s)) = leftZone k
      (raise (eventFault (.berth (k - 1)) .doorNotLocked) (stood k r before after false s)) := by
    rw [leftZone, if_neg (by omega)]
    exact congrArg (berthVacated (k - 1)) (exitCheck_of_open h)
  rw [moveInto, hbad, hshift]
  refine Eq.trans ?_ (enteredZone_of_moved (s := s) (hdoors.settled (hset'.after hline))
    (hdoors.berthCount.trans hcount))
  rw [← hleft]
  refine (congrArg (fun u => if k = s.launchZone then evalRelease u else berthEntered k r.id u) (if_pos ?_) :)
  exact hberth

end

end

/-! ## A launch (R83, R84) -/

section
variable {r : Cabin} {before after : List Cabin} {s v : State}

theorem updateRelease_setFlag (f : Flag) (s : State) : updateRelease (setFlag f s) = setFlag f (updateRelease s) := by
  have h := updateRelease_cs_voice (s := s) s.cs (flagged f s.dr) s.lr.voice
  rw [setFlag_eq, setFlag_eq, updateRelease_dr]
  refine h.trans ?_
  have hl := updateRelease_lineOnly s
  have hcs : s.cs = (updateRelease s).cs := (hl.others .cs (by decide)).symm
  have hvoice : s.lr.voice = (updateRelease s).lr.voice := by
    rw [hl.lr]
  rw [hcs, hvoice]

theorem updateRelease_twice (s : State) : updateRelease (updateRelease s) = updateRelease s :=
  updateRelease_of_line (s := s) (u := updateRelease s) rfl (.refl _) (by rw [updateRelease_ls]) rfl

/-- R84: the record has left the queue, and Q and the launch count follow. -/
def departed (before after : List Cabin) (s : State) : State := { s with
  ra := { s.ra with q := s.ra.p, qValid := true }
  ct := { s.ct with queue := before ++ after, launchCount := s.ct.launchCount + 1 } }

/-- R84: a registered cabin joins the uphill list, or is UNPLACED. -/
def launchListed (id : Nat) (s : State) : State :=
  if s.ct.uphill.length < 64 then
    setLocation id .uphill { s with ct := { s.ct with uphill := s.ct.uphill ++
      [{ id := id, pos := s.ra.p, order := s.ct.launchCount, overdue := false }] } }
  else setLocation id .unplaced s

/-- R84: the summit is told. -/
def announced (id : Nat) (s : State) : State := { s with sl := { s.sl with
  txQueue := s.sl.txQueue ++ [{ msg := { type := 1, payload := enc2 id }, seq := s.sl.nextSend
                                sent := false, age := 0 }]
  nextSend := s.sl.nextSend + 1 } }

theorem departed_settled (h : Settled s) : Settled (departed before after s) :=
  ⟨h.deferred, h.waiting, h.launched, h.room⟩

theorem launchListed_settled {id : Nat} (h : Settled s) : Settled (launchListed id s) := by
  rw [launchListed]
  split <;> exact ⟨h.deferred, h.waiting, h.launched, h.room⟩

theorem launchListed_sl (id : Nat) (s : State) : (launchListed id s).sl = s.sl := by
  rw [launchListed]
  split <;> rfl

theorem launchListed_cm (id : Nat) (s : State) : (launchListed id s).cm = s.cm := by
  rw [launchListed]
  split <;> rfl

section
variable (hq : s.ct.queue = before ++ r :: after) (hr : r.zone = s.launchZone)
  (hb : ∀ y ∈ before, y.zone ≠ s.launchZone)
include hq hr hb

theorem launchMove_of_found : launchMove r s =
    if r.identity = .registered then launchListed r.id (departed before after s) else departed before after s := by
  have herase : s.ct.queue.eraseP (fun y => y.zone == s.launchZone) = before ++ after := by
    rw [hq]
    exact eraseP_of_split (fun y hy => by simpa using hb y hy) (by simpa using hr)
  rw [launchMove, herase]
  by_cases hi : r.identity = .registered
  · rw [if_pos hi]
    exact if_neg (not_not.2 hi)
  · rw [if_neg hi]
    exact if_pos hi

theorem launched_of_registered (hset : Settled s) (hi : r.identity = .registered) (hg : r.grip ≠ .fail)
    (hroom : s.sl.txQueue.length < 15) :
    evalRelease (setFlag .cabinLaunch (launchNotice r (recordGone r (launchMove r s))))
      = setFlag .cabinLaunch (updateRelease (announced r.id (launchListed r.id (departed before after s)))) := by
  have hmove := launchListed_settled (id := r.id) (departed_settled (before := before) (after := after) hset)
  have hqueue : (launchListed r.id (departed before after s)).sl.txQueue = s.sl.txQueue := by
    rw [launchListed_sl]
    rfl
  have hset' : Settled (announced r.id (launchListed r.id (departed before after s))) := by
    refine ⟨hmove.deferred, hmove.waiting, hmove.launched, ?_⟩
    rw [announced, List.length_append, hqueue, List.length_singleton]
    omega
  have hnotice : launchNotice r (launchListed r.id (departed before after s))
      = updateRelease (announced r.id (launchListed r.id (departed before after s))) := by
    rw [launchNotice, if_neg (not_not.2 hi), txOffer_of_room (by rw [hqueue]; omega)]
    exact evalRelease_settled hset'
  have hup := hset'.after (updateRelease_lineOnly _)
  rw [launchMove_of_found hq hr hb, if_pos hi, recordGone_of_quiet hmove hg, hnotice,
    evalRelease_settled (hup.after (setFlag_lineOnly _ _)), updateRelease_setFlag, updateRelease_twice]

theorem launched_of_unregistered (hset : Settled s) (hi : r.identity ≠ .registered) (hg : r.grip ≠ .fail) :
    evalRelease (setFlag .cabinLaunch (launchNotice r (recordGone r (launchMove r s))))
      = updateRelease (setFlag .cabinLaunch (departed before after s)) := by
  have hmove := departed_settled (before := before) (after := after) hset
  rw [launchMove_of_found hq hr hb, if_neg hi, recordGone_of_quiet hmove hg, launchNotice, if_pos hi,
    evalRelease_settled (hmove.after (setFlag_lineOnly _ _))]

end

/-! ## The verdict on a launch (R83) -/

theorem judgeLaunch_of_good (hi : r.identity = .registered) (h : s.ct.release = .go) (hc : s.ct.releaseCabin = r.id) :
    judgeLaunch r s = s := by
  rw [judgeLaunch, launchFault, if_pos ⟨hi, h, hc⟩]

theorem settling_iff {id : Nat} :
    s.settling id = true ↔ ∃ g, s.ct.lastGo = some g ∧ g.id = id ∧ s.now - g.leftAt < 300 := by
  rw [State.settling]
  cases s.ct.lastGo with
  | none => exact ⟨fun h => absurd h Bool.false_ne_true, fun ⟨_, h, _⟩ => absurd h nofun⟩
  | some g => exact decide_eq_true_iff.trans ⟨fun h => ⟨g, rfl, h⟩, fun ⟨_, h, hg⟩ => by cases h; exact hg⟩

theorem judgeLaunch_of_late (hi : r.identity = .registered) (h : s.ct.release = .hold)
    (hl : ∃ g, s.ct.lastGo = some g ∧ g.id = r.id ∧ s.now - g.leftAt < 300) : judgeLaunch r s = raise
      { source := .cabin r.id, code := .lateHold, cls := .note, latched := true, present := false } s := by
  have hngo : s.ct.release ≠ .go := by
    rw [h]
    exact nofun
  rw [judgeLaunch, launchFault, if_neg fun hn => hngo hn.2.1, if_pos ⟨hi, h, settling_iff.2 hl⟩]

theorem judgeLaunch_of_violation (hg : r.identity = .registered → ¬ (s.ct.release = .go ∧ s.ct.releaseCabin = r.id))
    (hl : r.identity = .registered →
      ¬ (s.ct.release = .hold ∧ ∃ g, s.ct.lastGo = some g ∧ g.id = r.id ∧ s.now - g.leftAt < 300)) :
    judgeLaunch r s = raise
      { source := .cabin r.id, code := .launchViolation, cls := .trip, latched := true, present := false } s := by
  rw [judgeLaunch, launchFault, if_neg fun hn => hg hn.1 hn.2,
    if_neg fun hn => hl hn.1 ⟨hn.2.1, settling_iff.1 hn.2.2⟩]

theorem launch_of_empty (h : ∀ y ∈ s.ct.queue, y.zone ≠ s.launchZone) :
    launch s = raise (eventFault (.cabin 0) .phantom) s := by
  have hn : s.launchHead = none := List.find?_eq_none.2 fun y hy => by simpa using h y hy
  rw [launch, hn]

theorem launch_of_found (hq : s.ct.queue = before ++ r :: after) (hr : r.zone = s.launchZone)
    (hb : ∀ y ∈ before, y.zone ≠ s.launchZone) : launch s =
      evalRelease (setFlag .cabinLaunch (launchNotice r (recordGone r (launchMove r (judgeLaunch r s))))) := by
  rw [launch, launchHead_of_split hq hr hb]

theorem passageEvent_of_launch {k : Nat} (h : k = s.berthCount + 2) : passageEvent k s = launch s := if_pos h

end

/-- Settles O23. -/
theorem trackMarksMoveAndLaunchCabins : Obligations.TrackMarksMoveAndLaunchCabins := by
  intro bytes x t c s h hset hkept hkind e rt runs based phantom
  have hc := h.known
  have hbased : Settled based := credited_settled hset _
  have hruns : ∀ {v}, markReading c x (credited c x rt s) = v → v.cm = based.cm → runs v := fun hv hcm =>
    sampled_runs h ((judgeReading_mark hc hkind).trans hv) fun i => by
      rw [State.chan, hcm]
      exact credited_entries _ i
  refine ⟨fun hb => hruns (markReading_of_quiet hc hb) rfl, fun base hb => ⟨fun hd => ?_, fun hd => ?_⟩⟩
  · exact ⟨_, hruns (markReading_of_skip hc hb hd) (lineOnly_cm (raise_lineOnly _ hbased)), raise_raised _ hbased⟩
  have hline := gone_lineOnly (.channel c) .markSkip hbased
  obtain ⟨w, hw⟩ : ∃ w, w = gone (.channel c) .markSkip based := ⟨_, rfl⟩
  rw [← hw] at hline
  have hpassage : ∀ {v}, passageEvent e.boundary w = v → v.cm = w.cm → runs v := fun hv hcm =>
    hruns ((markReading_of_step hc hb hd).trans (hw ▸ hv)) (hcm.trans (lineOnly_cm hline))
  have hsetw : Settled w := hbased.after hline
  have hcount : w.berthCount = s.berthCount := by
    rw [State.berthCount, hline.others .straps (by decide)]
    rfl
  have hzone : w.launchZone = s.launchZone := by
    rw [State.launchZone, hcount]
    rfl
  have hnow : w.now = s.now := hline.others .now (by decide)
  have hqueue : w.ct.queue = s.ct.queue := by
    rw [hline.ct]
    rfl
  refine ⟨w, hw ▸ gone_withdrawn _ _ hbased, fun habsent => ?_, fun h1 hk => ?_, fun hk hroom => ?_⟩
  · rw [hw]
    exact goneF_of_absent (demandKept_of_bypassed hkept rfl (bypassed_setChan rfl)) habsent
  · intro k
    have hmove : ∀ {v}, zoneMove k w = v → v.cm = w.cm → runs v := fun hv =>
      hpassage ((passageEvent_of_move (by omega)).trans hv)
    refine ⟨fun hn => ?_, fun r before after hq hr hbefore => ?_⟩
    · exact ⟨_, hmove (zoneMove_of_empty (by rw [hqueue]; exact hn)) (lineOnly_cm (raise_lineOnly _ hsetw)),
        raise_raised _ hsetw⟩
    intro moved vacated entered
    have hq' : w.ct.queue = before ++ r :: after := hqueue.trans hq
    have hfound := zoneMove_of_found hq' hr hbefore
    have hdoor : (w.door (k - 1)).state = (s.door (k - 1)).state := by
      rw [hline.doors]
      rfl
    have hroom : zoneRoom k w = true ↔ if k = s.berthCount + 1 then inZone k s < 2 else inZone k s < 1 := by
      rw [zoneRoom_iff, hzone, inZone, hqueue]
      rfl
    have hmoved : ∀ {v : State}, zoneRoom k w = true → moveInto k r w = enteredZone k r.id (leftZone k v) → Settled v →
        v.cm = w.cm → v.berthCount = s.berthCount → v.now = s.now → runs (entered (vacated v)) := by
      intro v hr hv hset' hcm hcv hnv
      have hdoors := leftZone_doorsOnly k v
      have hentered : entered (leftZone k v) = enteredZone k r.id (leftZone k v) := by
        rw [enteredZone, hdoors.berthCount, hcv, berthEntered, hdoors, hnv]
        rfl
      refine hmove (hfound.trans ((if_pos hr).trans (hv.trans hentered.symm))) ?_
      exact (congrArg State.cm hentered).trans ((enteredZone_cm (hdoors.settled hset')).trans (hdoors.cm.trans hcm))
    refine ⟨fun hfull => ?_, fun hberth hlaunch => ⟨fun hclosed => ?_, fun h2 hopen => ?_⟩⟩
    · refine ⟨_, hmove (hfound.trans (if_neg ?_)) (lineOnly_cm (raise_lineOnly _ hsetw)), raise_raised _ hsetw⟩
      rw [hroom]
      split <;> omega
    · refine hmoved (hroom.2 (by split <;> omega)) (moveInto_of_closed hsetw hq' hr hbefore (by omega) h1 ?_)
        (stood_settled hsetw _) rfl hcount hnow
      rwa [hdoor]
    · have hset' := stood_settled (k := k) (r := r) (before := before) (after := after) hsetw false
      have hraise := raise_lineOnly (eventFault (.berth (k - 1)) .doorNotLocked) hset'
      refine ⟨_, hmoved (hroom.2 (by split <;> omega)) (moveInto_of_open hsetw hq' hr hbefore (by omega) h2 ?_)
        (hset'.after hraise) (lineOnly_cm hraise :) ?_
        ((hraise.others .now (by decide)).trans hnow), raise_raised _ hset'⟩
      · rwa [hdoor]
      · rw [State.berthCount, hraise.others .straps (by decide)]
        exact hcount
  · have hmove : ∀ {v}, launch w = v → v.cm = w.cm → runs v := fun hv =>
      hpassage ((passageEvent_of_launch (hk.trans (by rw [hcount]))).trans hv)
    refine ⟨fun hn => ?_, fun r before after hq hr hbefore hgrip => ?_⟩
    · exact ⟨_, hmove (launch_of_empty (by rw [hqueue, hzone]; exact hn)) (lineOnly_cm (raise_lineOnly _ hsetw)),
        raise_raised _ hsetw⟩
    intro departs listed announces launched good late violation
    have hfound := launch_of_found (hqueue.trans hq) (hr.trans hzone.symm) (by rw [hzone]; exact hbefore)
    have hjudged : ∀ {v}, judgeLaunch r w = v → LineOnly w v →
        (r.identity = .registered → runs (launched v))
        ∧ (r.identity ≠ .registered → runs (updateRelease (setFlag .cabinLaunch (departs v)))) := by
      intro v hv hlv
      have hall := hline.trans hlv
      have hsetv := hsetw.after hlv
      have hqv : v.ct.queue = before ++ r :: after := by
        rw [hall.ct]
        exact hq
      have hup : v.ct.uphill = s.ct.uphill := by
        rw [hall.ct]
        rfl
      have hlc : v.ct.launchCount = s.ct.launchCount := by
        rw [hall.ct]
        rfl
      have hp : v.ra.p = s.ra.p := congrArg (fun a => a.p) (hall.others .ra (by decide))
      have hns : v.sl.nextSend = s.sl.nextSend := by
        rw [hall.sl]
        rfl
      have hzv : v.launchZone = s.launchZone := by
        rw [State.launchZone, State.berthCount, hall.others .straps (by decide)]
        rfl
      refine ⟨fun hi => ?_, fun hi => ?_⟩
      · have hlaunched : launched v = setFlag .cabinLaunch
            (updateRelease (announced r.id (launchListed r.id (departed before after v)))) := by
          have hlist : listed (departs v) = launchListed r.id (departed before after v) := by
            simp only [listed, departs, launchListed, departed, ← hup, ← hp, ← hlc]
            rfl
          have htold : announces (listed (departs v)) = announced r.id (launchListed r.id (departed before after v)) := by
            rw [hlist, announced, launchListed_sl]
            simp only [announces, launchListed_sl, ← hns]
            rfl
          exact congrArg (fun u => setFlag .cabinLaunch (updateRelease u)) htold
        have hend := launched_of_registered hqv (hr.trans hzv.symm) (by rw [hzv]; exact hbefore) hsetv hi hgrip ?_
        · refine hmove ((hfound.trans (by rw [hv, hend])).trans hlaunched.symm) ((congrArg State.cm hlaunched).trans ?_)
          rw [setFlag_cm, updateRelease_cm, announced, launchListed_cm]
          have hcm := lineOnly_cm hlv
          exact hcm
        · rw [hall.sl]
          exact hroom
      · have hend := launched_of_unregistered hqv (hr.trans hzv.symm) (by rw [hzv]; exact hbefore) hsetv hi hgrip
        refine hmove (hfound.trans (by rw [hv]; exact hend)) ?_
        rw [updateRelease_cm, setFlag_cm]
        have hcm := lineOnly_cm hlv
        exact hcm
    refine ⟨fun hi => ⟨fun hgood => ?_, fun hlate => ?_, fun hg hl => ?_⟩, fun hi => ?_⟩
    · exact (hjudged (judgeLaunch_of_good hi hgood.1 hgood.2) (.refl w)).1 hi
    · have hlate' : ∃ g, w.ct.lastGo = some g ∧ g.id = r.id ∧ w.now - g.leftAt < 300 := by
        rw [hnow]
        exact hlate.2
      exact ⟨_, (hjudged (judgeLaunch_of_late hi hlate.1 hlate') (raise_lineOnly _ hsetw)).1 hi, raise_raised _ hsetw⟩
    · refine ⟨_, (hjudged (judgeLaunch_of_violation (fun _ => hg) fun _ => ?_) (raise_lineOnly _ hsetw)).1 hi,
        raise_raised _ hsetw⟩
      rw [hnow]
      exact hl
    · exact ⟨_, (hjudged (judgeLaunch_of_violation (fun h => absurd h hi) fun h => absurd h hi)
        (raise_lineOnly _ hsetw)).2 hi, raise_raised _ hsetw⟩

end Sys2Proof.Machine
end

section
/-! The stages of an encoder reading, its checks and its position update (R2 to R10, R13, R14, R57, R59, R147). -/

namespace Sys2Proof.Machine

open Sys2Proof.Safety

/-! ## The stages (R3 to R9) -/

section
variable {e : ChanEntry} {len dt : Nat} {n t : Word16} {ra : Rope}

theorem ropeStages_of_unbased (h : ra.baseValid = false) :
    ropeStages e len n t ra = (.base, { ra with cLast := n, tLast := t, baseValid := true }) :=
  if_pos (by rw [h]; rfl)

section
variable (h : ra.baseValid = true)
include h

theorem ropeStages_of_repeated (ht : timeStep t ra.tLast = 0) : ropeStages e len n t ra = (.repeated, ra) :=
  (if_neg (by simp [h])).trans (if_pos ht)

theorem ropeStages_of_jump (ht : timeStep t ra.tLast ≠ 0) (hn : e.step < (countStep n ra.cLast).natAbs) :
    ropeStages e len n t ra = (.jump, { ra with cLast := n, tLast := t }) :=
  (if_neg (by simp [h])).trans ((if_neg ht).trans (if_pos hn))

theorem ropeStages_of_travel (ht : timeStep t ra.tLast ≠ 0) (hn : (countStep n ra.cLast).natAbs ≤ e.step) :
    ropeStages e len n t ra = (.travel,
      { travel e len (countStep n ra.cLast) (timeStep t ra.tLast) ra with cLast := n, tLast := t }) :=
  (if_neg (by simp [h])).trans ((if_neg ht).trans (if_neg (Nat.not_lt.2 hn)))

end

theorem ropeStages_of_verdict_repeated (h : (ropeStages e len n t ra).1 = .repeated) : (ropeStages e len n t ra).2 = ra := by
  by_cases hb : ra.baseValid = true
  · by_cases ht : timeStep t ra.tLast = 0
    · rw [ropeStages_of_repeated hb ht]
    · by_cases hn : e.step < (countStep n ra.cLast).natAbs
      · rw [ropeStages_of_jump hb ht hn] at h
        exact nomatch h
      · rw [ropeStages_of_travel hb ht (Nat.not_lt.1 hn)] at h
        exact nomatch h
  · rw [ropeStages_of_unbased (Bool.eq_false_iff.2 hb)] at h
    exact nomatch h

/-- R7: a travel moves the position by the travel, to the micrometre round the loop. -/
theorem travel_moves (dn : Int) (hlen : 0 < len) :
    (1000 * ((travel e len dn dt ra).p : Int) + (travel e len dn dt ra).r - (1000 * (ra.p : Int) + ra.r + dn * e.scale))
      % (1000 * len) = 0 := by
  have hr : ((travel e len dn dt ra).r : Int) = ((ra.r : Int) + dn * e.scale) % 1000 := by
    show ((((ra.r : Int) + dn * e.scale) - 1000 * Int.fdiv ((ra.r : Int) + dn * e.scale) 1000).toNat : Int) = _
    rw [Int.fdiv_eq_ediv_of_nonneg _ (by omega)]
    omega
  have hp : ((travel e len dn dt ra).p : Int) = ((ra.p : Int) + ((ra.r : Int) + dn * e.scale) / 1000) % len := by
    show (((((ra.p : Int) + Int.fdiv ((ra.r : Int) + dn * e.scale) 1000) % (len : Int)).toNat : Nat) : Int) = _
    rw [Int.fdiv_eq_ediv_of_nonneg _ (by omega)]
    exact Int.toNat_of_nonneg (Int.emod_nonneg _ (by omega))
  have hsplit := Int.emod_add_mul_ediv ((ra.r : Int) + dn * e.scale) 1000
  have hround := Int.emod_add_mul_ediv ((ra.p : Int) + ((ra.r : Int) + dn * e.scale) / 1000) len
  refine Int.emod_eq_zero_of_dvd
    ⟨-(((ra.p : Int) + ((ra.r : Int) + dn * e.scale) / 1000) / len), ?_⟩
  rw [hr, hp]
  linarith

theorem travel_lt (dn : Int) (hlen : 0 < len) : (travel e len dn dt ra).p < len := by
  have hpos : (0 : Int) < len := by omega
  have h0 := Int.emod_nonneg ((ra.p : Int) + Int.fdiv ((ra.r : Int) + dn * e.scale) 1000) hpos.ne'
  have h1 := Int.emod_lt_of_pos ((ra.p : Int) + Int.fdiv ((ra.r : Int) + dn * e.scale) 1000) hpos
  show (((ra.p : Int) + Int.fdiv ((ra.r : Int) + dn * e.scale) 1000) % (len : Int)).toNat < len
  omega

theorem travel_remainder (dn : Int) : (travel e len dn dt ra).r ≤ 999 := by
  show (((ra.r : Int) + dn * e.scale) - 1000 * Int.fdiv ((ra.r : Int) + dn * e.scale) 1000).toNat ≤ 999
  rw [Int.fdiv_eq_ediv_of_nonneg _ (by omega)]
  omega

end

/-! ## A reading of the encoder (R2) -/

section
variable {c : Nat} {n t : Word16} {s : State} {ra : Rope}

/-- R2: the runtime record credited by a verdict, and RA. -/
def judged (c : Nat) (v : Verdict) (ra : Rope) (s : State) : State :=
  setRt c (creditVerdict v s.now (s.chan c).rt) { s with ra := ra }

section
variable (henc : s.ra.encoder = some c)
include henc

theorem encoderReading_of_base (h : ropeStages (s.chan c).entry s.params.loopLen n t s.ra = (.base, ra)) :
    encoderReading c n t s = judged c .base ra s := by
  simp only [encoderReading, if_pos henc, h]
  rfl

theorem encoderReading_of_repeated (h : ropeStages (s.chan c).entry s.params.loopLen n t s.ra = (.repeated, ra)) :
    encoderReading c n t s = judged c .repeated ra s := by
  simp only [encoderReading, if_pos henc, h]
  rfl

theorem encoderReading_of_jump (h : ropeStages (s.chan c).entry s.params.loopLen n t s.ra = (.jump, ra))
    (hrun : (s.chan c).rt.runCount + 1 < (s.chan c).entry.persistence) :
    encoderReading c n t s = judged c .jump ra s := by
  simp only [encoderReading, if_pos henc, h]
  exact if_neg (Nat.not_le.2 hrun)

theorem encoderReading_of_travel (h : ropeStages (s.chan c).entry s.params.loopLen n t s.ra = (.travel, ra)) :
    encoderReading c n t s = afterTravel c (judged c .travel ra s) := by
  simp only [encoderReading, if_pos henc, h]
  rfl

end

/-- R2, R23: the reading is recorded before it is judged. -/
theorem judged_of_recorded (hc : c < 48) (v : Verdict) :
    judged c v ra (setRt c { (s.chan c).rt with lastReading := n } s)
      = setRt c (creditVerdict v s.now { (s.chan c).rt with lastReading := n }) { s with ra := ra } := by
  have hrt : ((setRt c { (s.chan c).rt with lastReading := n } s).chan c).rt = { (s.chan c).rt with lastReading := n } :=
    congrArg Channel.rt (chan_setChan_same hc _ _)
  rw [judged, hrt]
  exact setRt_setRt (s := { s with ra := ra }) c _ _ hc

theorem setRt_entries (rt : Runtime) (i : Nat) : ((setRt c rt { s with ra := ra }).chan i).entry = (s.chan i).entry := by
  rw [setRt, chan_setChan]
  split
  · next hi =>
    rw [hi.1]
    rfl
  · rfl

theorem judgeReading_encoder (hk : ((s.chan c).entry).kind = .encoder) : judgeReading c n t s = encoderReading c n t s := by
  rw [judgeReading, hk]

end

/-! ## The checks and the position update (R10, R13, R14, R57, R59, R147) -/

section
variable {c : Nat} {m s t u w : State}

theorem overspeedCheck_of_fast (h : overspeedLimit s < s.ra.vf.natAbs) :
    overspeedCheck c s = raise (ropeFault c .overspeed) s := if_pos h

theorem overspeedCheck_of_slow (h : ¬ overspeedLimit s < s.ra.vf.natAbs) :
    overspeedCheck c s = gone (.channel c) .overspeed s := if_neg h

theorem rollbackCheck_of_back (h : s.ra.vf < -(s.params.reverseLimit : Int)) :
    rollbackCheck c s = raise (ropeFault c .rollback) s := if_pos h

theorem rollbackCheck_of_forward (h : ¬ s.ra.vf < -(s.params.reverseLimit : Int)) :
    rollbackCheck c s = gone (.channel c) .rollback s := if_neg h

theorem overspeedCheck_lineOnly (h : Settled s) : LineOnly s (overspeedCheck c s) := by
  rw [overspeedCheck]
  split
  · exact raise_lineOnly _ h
  · exact gone_lineOnly _ _ h

theorem rollbackCheck_lineOnly (h : Settled s) : LineOnly s (rollbackCheck c s) := by
  rw [rollbackCheck]
  split
  · exact raise_lineOnly _ h
  · exact gone_lineOnly _ _ h

/-- R12: the speed tests read RA and LINE_PARAMS. -/
theorem speedTests_of_lineOnly (h : LineOnly s t) :
    t.forward = s.forward ∧ t.startExit = s.startExit ∧ t.atRest = s.atRest ∧ t.forwardDist = s.forwardDist := by
  have hra : t.ra = s.ra := h.others .ra (by decide)
  have hp : t.params = s.params := h.params
  refine ⟨?_, ?_, ?_, ?_⟩
  · rw [State.forward, hra, State.forward]
  · rw [State.startExit, hra, hp, State.startExit]
  · rw [State.atRest, hra, hp, State.atRest]
  · funext p
    rw [State.forwardDist, hra, hp, State.forwardDist]

theorem enterLine_followed (st : LineState) (h : Settled s) :
    LineOnly s (follow s (enterLine st s)) ∧ (follow s (enterLine st s)).ls.line = st := by
  have hset := h.after (enterLine_lineOnly st s)
  refine ⟨(enterLine_lineOnly st s).trans (follow_lineOnly hset), ?_⟩
  rw [follow_settled hset]
  split
  · exact enterLine_line st s
  · rw [updateRelease_ls]
    exact enterLine_line st s

theorem lineOnUpdate_of_kept (h1 : ¬ (s.ls.line = .starting ∧ s.startExit = true))
    (h2 : ¬ (s.ls.line = .stopping ∧ s.atRest = true)) : lineOnUpdate s = s := (if_neg h1).trans (if_neg h2)

theorem lineOnUpdate_of_started (h : s.ls.line = .starting) (he : s.startExit = true) :
    lineOnUpdate s = follow s (enterLine (if s.ls.effDemand = .run then .running else .slowed) s) := if_pos ⟨h, he⟩

theorem lineOnUpdate_of_rest (h : s.ls.line = .stopping) (hr : s.atRest = true) :
    lineOnUpdate s = follow s (enterLine .stopped s) :=
  (if_neg fun hn => by rw [h] at hn; exact nomatch hn.1).trans (if_pos ⟨h, hr⟩)

/-- R147: the oldest uphill cabin is not overdue, or already marked. -/
def UpInTime (s : State) : Prop :=
  ∀ y ∈ s.ct.uphill.head?, y.overdue = false → ¬ s.params.uphillSpan + s.params.tolerance < s.forwardDist y.pos

/-- R147: the oldest downhill cabin is not overdue, or already marked. -/
def DownInTime (s : State) : Prop :=
  ∀ y ∈ s.ct.downhill.head?, y.overdue = false → ¬ s.params.downhillSpan + s.params.tolerance < s.forwardDist y.pos

theorem overdueUp_of_inTime (h : UpInTime s) : overdueUp s = s := by
  rw [overdueUp]
  cases hl : s.ct.uphill with
  | nil => rfl
  | cons y ys =>
    refine if_neg fun hn => ?_
    rw [Bool.and_eq_true, Bool.not_eq_true', decide_eq_true_iff] at hn
    exact h y (by rw [hl]; rfl) hn.1 hn.2

theorem overdueDown_of_inTime (h : DownInTime s) : overdueDown s = s := by
  rw [overdueDown]
  cases hl : s.ct.downhill with
  | nil => rfl
  | cons y ys =>
    refine if_neg fun hn => ?_
    rw [Bool.and_eq_true, Bool.not_eq_true', decide_eq_true_iff] at hn
    exact h y (by rw [hl]; rfl) hn.1 hn.2

theorem overdueUp_of_past {y : UpEntry} {rest : List UpEntry} (hl : s.ct.uphill = y :: rest) (hy : y.overdue = false)
    (hp : s.params.uphillSpan + s.params.tolerance < s.forwardDist y.pos) :
    overdueUp s = raise (eventFault (.cabin y.id) .overdue)
      { s with ct := { s.ct with uphill := { y with overdue := true } :: rest } } := by
  rw [overdueUp, hl]
  exact if_pos (by rw [hy]; exact decide_eq_true hp)

theorem inTime_of_lineOnly (h : LineOnly s t) : (UpInTime t ↔ UpInTime s) ∧ (DownInTime t ↔ DownInTime s) := by
  obtain ⟨-, -, -, hd⟩ := speedTests_of_lineOnly h
  have hp : t.params = s.params := h.params
  rw [UpInTime, DownInTime, hd, hp, h.ct]
  exact ⟨.rfl, .rfl⟩

theorem positionUpdate_of_inTime (hset : Settled s) (hu : lineOnUpdate s = u) (hl : LineOnly s u)
    (hdown : DownInTime s ∨ s.forward = false) (hup : UpInTime s ∨ s.forward = false) :
    positionUpdate s = updateRelease u := by
  obtain ⟨hupu, hdownu⟩ := inTime_of_lineOnly hl
  refine (show positionUpdate s = evalRelease (if s.forward then overdueDown (overdueUp (lineOnUpdate s))
    else lineOnUpdate s) from rfl).trans ?_
  rw [hu, ← evalRelease_settled (hset.after hl)]
  refine congrArg evalRelease ?_
  by_cases hf : s.forward = true
  · have hup' := hupu.2 (hup.resolve_right (by rw [hf]; exact nofun))
    have hdown' := hdownu.2 (hdown.resolve_right (by rw [hf]; exact nofun))
    rw [if_pos hf, overdueUp_of_inTime hup', overdueDown_of_inTime hdown']
  · exact if_neg hf

theorem positionUpdate_of_past {y : UpEntry} {rest : List UpEntry} (hset : Settled s) (hu : lineOnUpdate s = s)
    (hf : s.forward = true) (hdown : DownInTime s) (hl : s.ct.uphill = y :: rest) (hy : y.overdue = false)
    (hp : s.params.uphillSpan + s.params.tolerance < s.forwardDist y.pos) :
    positionUpdate s = updateRelease (raise (eventFault (.cabin y.id) .overdue)
      { s with ct := { s.ct with uphill := { y with overdue := true } :: rest } }) := by
  have hset' : Settled { s with ct := { s.ct with uphill := { y with overdue := true } :: rest } } :=
    ⟨hset.deferred, hset.waiting, hset.launched, hset.room⟩
  have hline := raise_lineOnly (eventFault (.cabin y.id) .overdue) hset'
  have hdown' := (inTime_of_lineOnly hline).2.2 hdown
  refine (show positionUpdate s = evalRelease (if s.forward then overdueDown (overdueUp (lineOnUpdate s))
    else lineOnUpdate s) from rfl).trans ?_
  rw [hu, if_pos hf, overdueUp_of_past hl hy hp, overdueDown_of_inTime hdown', evalRelease_settled (hset'.after hline)]

end

/-- Settles O20. -/
theorem encoderReadingStages : Obligations.EncoderReadingStages := by
  refine ⟨?_, ?_⟩
  · intro e len n t ra hlen dt dn
    exact ⟨ropeStages_of_unbased, ropeStages_of_repeated, ropeStages_of_jump, fun hb ht hn =>
      ⟨_, _, _, _, ropeStages_of_travel hb ht hn, travel_moves dn hlen, travel_lt dn hlen, travel_remainder dn, rfl,
        fun hz => if_pos hz, fun hs => if_neg (by omega)⟩⟩
  intro bytes n t c s h hset hkept hkind henc e rt runs stages
  have hc := h.known
  obtain ⟨s0, hs0⟩ : ∃ s0, s0 = setRt c { rt with lastReading := n } s := ⟨_, rfl⟩
  have hchan : s0.chan c = { s.chan c with rt := { rt with lastReading := n } } := hs0 ▸ chan_setChan_same hc _ _
  have hkind0 : (s0.chan c).entry.kind = .encoder := by
    rw [hchan]
    exact hkind
  have henc0 : s0.ra.encoder = some c := hs0 ▸ henc
  have hstages : ∀ {v}, stages.1 = v →
      ropeStages (s0.chan c).entry s0.params.loopLen n t s0.ra = (v, stages.2) := fun hv => by
    rw [hchan, hs0, ← hv]
    rfl
  have hjudged : ∀ v, judged c v stages.2 s0 = setRt c (creditVerdict v s.now { rt with lastReading := n })
      { s with ra := stages.2 } := fun v => hs0 ▸ judged_of_recorded hc v
  have hruns : ∀ {v rt'}, encoderReading c n t s0 = v → v.cm = (setRt c rt' { s with ra := stages.2 }).cm → runs v :=
    fun hv hcm => sampled_runs h (by rw [judgeReading_encoder (by rw [← hs0]; exact hkind0), ← hs0, hv]) fun i => by
      rw [State.chan, hcm]
      exact setRt_entries _ i
  refine ⟨fun hv => ?_, fun hv => ?_, fun hv hrun => ?_, fun hv => ?_⟩
  · exact hruns ((encoderReading_of_base henc0 (hstages hv)).trans (hjudged .base)) rfl
  · have hra : stages.2 = s.ra := ropeStages_of_verdict_repeated hv
    have hend := hruns ((encoderReading_of_repeated henc0 (hstages hv)).trans (hjudged .repeated)) rfl
    rw [hra] at hend
    exact hend
  · exact hruns ((encoderReading_of_jump henc0 (hstages hv) (by rw [hchan]; exact hrun)).trans (hjudged .jump)) rfl
  intro m limit fast back checked past
  have hm : Settled m := settled_of_eq hset rfl rfl rfl
  have hfast := overspeedCheck_lineOnly (c := c) hm
  have hv' := hm.after hfast
  have hback := rollbackCheck_lineOnly (c := c) hv'
  obtain ⟨v, hvd⟩ : ∃ v, v = overspeedCheck c m := ⟨_, rfl⟩
  obtain ⟨w, hwd⟩ : ∃ w, w = rollbackCheck c v := ⟨_, rfl⟩
  rw [← hvd] at hfast hv' hback
  rw [← hwd] at hback
  have hvra : v.ra = m.ra := hfast.others .ra (by decide)
  have hvp : v.params = m.params := hfast.params
  have hw := hv'.after hback
  have hmw := hfast.trans hback
  obtain ⟨htf, hte, hta, htd⟩ := speedTests_of_lineOnly hmw
  obtain ⟨hup, hdown⟩ := inTime_of_lineOnly hmw
  have hrun : ∀ {u}, positionUpdate w = u → u.cm = m.cm → runs u := fun hu hcm => by
    refine hruns ((encoderReading_of_travel henc0 (hstages hv)).trans ?_) hcm
    rw [hjudged, ← hu, hwd, hvd]
    rfl
  have hquiet : ∀ {u}, DownInTime m ∨ m.forward = false → UpInTime m ∨ m.forward = false → lineOnUpdate w = u →
      LineOnly w u → runs (updateRelease u) := fun hd hu he hl =>
    hrun (positionUpdate_of_inTime hw he hl (hd.imp hdown.2 htf.trans) (hu.imp hup.2 htf.trans)) <| by
      rw [updateRelease_cm, lineOnly_cm hl, lineOnly_cm hmw]
  refine ⟨v, w, ⟨fun hf => ?_, fun hf => ?_⟩, ⟨fun hb => ?_, fun hb => ?_⟩, fun hf hb habsent => ?_, fun hdt =>
    ⟨fun hut => ⟨fun h1 h2 => ?_, fun h1 h2 => ?_, fun h1 h2 => ?_⟩, fun y rest hl hy hp hfw h1 h2 => ?_⟩⟩
  · rw [hvd, overspeedCheck_of_fast (s := m) hf]
    exact raise_raised _ hm
  · rw [hvd, overspeedCheck_of_slow (s := m) hf]
    exact gone_withdrawn _ _ hm
  · rw [hwd, rollbackCheck_of_back (by rw [hvra, hvp]; exact hb)]
    exact raise_raised _ hv'
  · rw [hwd, rollbackCheck_of_forward (by rw [hvra, hvp]; exact hb)]
    exact gone_withdrawn _ _ hv'
  · have hkeptm : DemandKept m := demandKept_of_bypassed hkept rfl (bypassed_setChan rfl)
    have hvm : v = m := by
      rw [hvd, overspeedCheck_of_slow (s := m) hf]
      exact goneF_of_absent hkeptm fun y hy hc => habsent y hy ⟨hc.1, .inl hc.2⟩
    rw [hwd, hvm, rollbackCheck_of_forward (s := m) hb]
    exact goneF_of_absent hkeptm fun y hy hc => habsent y hy ⟨hc.1, .inr hc.2⟩
  · exact hquiet hdt hut (lineOnUpdate_of_kept (by rw [hte]; exact h1) (by rw [hta]; exact h2)) (.refl w)
  · obtain ⟨hent, hst⟩ := enterLine_followed (if w.ls.effDemand = .run then .running else .slowed) hw
    refine ⟨_, hquiet hdt hut (lineOnUpdate_of_started h1 (hte.trans h2)) hent, hent.trans (updateRelease_lineOnly _), ?_⟩
    rw [updateRelease_ls]
    exact hst
  · obtain ⟨hent, hst⟩ := enterLine_followed .stopped hw
    refine ⟨_, hquiet hdt hut (lineOnUpdate_of_rest h1 (hta.trans h2)) hent, hent.trans (updateRelease_lineOnly _), ?_⟩
    rw [updateRelease_ls]
    exact hst
  · have hlw : w.ct.uphill = y :: rest := by
      rw [hmw.ct]
      exact hl
    have hpw : w.params.uphillSpan + w.params.tolerance < w.forwardDist y.pos := by
      rw [htd, show w.params = s.params from hmw.params]
      exact hp
    have hset' : Settled { w with ct := { w.ct with uphill := { y with overdue := true } :: rest } } :=
      ⟨hw.deferred, hw.waiting, hw.launched, hw.room⟩
    have hdw : DownInTime w := hdown.2 (hdt.resolve_right (by rw [hfw]; exact nofun))
    refine ⟨_, hrun (positionUpdate_of_past hw (lineOnUpdate_of_kept (fun h => h1 h.1) fun h => h2 h.1) (htf.trans hfw)
      hdw hlw hy hpw) ?_, raise_raised _ hset'⟩
    rw [updateRelease_cm, lineOnly_cm (raise_lineOnly _ hset')]
    exact (lineOnly_cm hmw :)

end Sys2Proof.Machine
end

section
/-! SUPPORT. DOOR_STAT frames: a status judged by the record's state (R95, R96, R99, R103, R107, R108). -/

namespace Sys2Proof.Machine

open Sys2Proof.Safety

/-! ## The frame (R209) -/

section
variable {j : Nat} {st : DoorStatus} {g : Bool} {src : Byte} {p : List Byte} {s : State}

theorem DoorStatus.ofCode_code (x : DoorStatus) : DoorStatus.ofCode x.code = some x := by cases x <;> rfl

theorem parseDoorStat_of_status (st : DoorStatus) (g : Bool) : parseDoorStat (enc1 st.code ++ encMark g) = some (st, g) := by
  cases st <;> cases g <;> rfl

theorem DoorStatus.ofCode_of_large {n : Nat} (h : 5 < n) : DoorStatus.ofCode n = none := by
  match n, h with
  | k + 6, _ => rfl

theorem parseDoorStat_of_bad (h : p.length ≠ 2 ∨ 5 < u8 p 0) : parseDoorStat p = none := by
  rw [parseDoorStat]
  rcases h with h | h
  · exact if_neg h
  · rw [DoorStatus.ofCode_of_large h]
    exact ite_self none

theorem doorStatus_of_bad (h : parseDoorStat p = none) : doorStatus src p s = s := by
  rw [doorStatus, h]

theorem doorStatus_of_stranger (h : ∀ j, s.isBerth j = true → (s.berth j).entry.doorNode ≠ src.toNat) :
    doorStatus src p s = s := by
  have hnone : s.berthList.find? (fun j => (s.berth j).entry.doorNode == src.toNat) = none :=
    List.find?_eq_none.2 fun j hj => by simpa using h j (mem_berthList.1 hj)
  rw [doorStatus, hnone]
  split
  · next h => exact nomatch h
  · rfl

theorem doorStatus_of_berth (hp : parseDoorStat p = some (st, g)) (hj : s.isBerth j = true)
    (hn : (s.berth j).entry.doorNode = src.toNat)
    (hu : ∀ i, s.isBerth i = true → i ≠ j → (s.berth i).entry.doorNode ≠ src.toNat) :
    doorStatus src p s = takeStatus j st g s := by
  have hfind : s.berthList.find? (fun j => (s.berth j).entry.doorNode == src.toNat) = some j := by
    cases h : s.berthList.find? (fun j => (s.berth j).entry.doorNode == src.toNat) with
    | none => exact absurd hn (by simpa using List.find?_eq_none.1 h j (mem_berthList.2 hj))
    | some i =>
      have hi := mem_berthList.1 (List.mem_of_find?_eq_some h)
      by_cases hij : i = j
      · rw [hij]
      · exact absurd (by simpa using List.find?_some h) (hu i hi hij)
  rw [doorStatus, hp, hfind]

end

/-! ## The record with a status, and the toggle count (R95, R99) -/

/-- R95: the record with its last status. -/
def Door.shown (d : Door) (st : DoorStatus) (g : Bool) : Door := { d with awaiting := false, lastStatus := some (st, g) }

/-- R99: the motion statuses that have repeated a toggle, this one counted. -/
def Door.repeats (d : Door) (st : DoorStatus) (g : Bool) : Nat :=
  match d.lastStatus with
  | some (p, q) => if st.moving ∧ p.moving ∧ q = g then d.stallCount + 1 else 0
  | none => 0

/-- R95: a status is the first of a CLOSED record with no command. -/
def Door.first (d : Door) : Prop := d.awaiting = true ∧ d.state = .closed ∧ d.command = none

section
variable {j : Nat} {st : DoorStatus} {g : Bool} {s t u : State} {d x : Door}

theorem toggleCheck_of_fault (h : (t.door j).state = .fault) (prev : Option (DoorStatus × Bool)) :
    toggleCheck j prev st g t = t := if_pos h

theorem toggleCheck_eq (d : Door) : toggleCheck j d.lastStatus st g t =
    if (t.door j).state = .fault then t
    else
      let n := { d with stallCount := (t.door j).stallCount }.repeats st g
      if 3 ≤ n then doorFault j (setDoor j { t.door j with stallCount := n } t)
      else setDoor j { t.door j with stallCount := n } t := rfl

section
variable (hj : j ≤ 8) (h : x.state ≠ .fault) (hs : x.stallCount = d.stallCount)
include hj h hs

theorem toggleCheck_setDoor : toggleCheck j d.lastStatus st g (setDoor j x t) =
    if 3 ≤ d.repeats st g then doorFault j (setDoor j { x with stallCount := d.repeats st g } t)
    else setDoor j { x with stallCount := d.repeats st g } t := by
  have hn : { d with stallCount := x.stallCount }.repeats st g = d.repeats st g := by rw [hs]
  refine (toggleCheck_eq d).trans ?_
  rw [door_setDoor_same hj, if_neg h, hn]
  dsimp only
  rw [setDoor_setDoor hj]

end

/-- R95, R96: what the status brings, before its toggle is checked. -/
def judgedStatus (j : Nat) (st : DoorStatus) (g : Bool) (s : State) : State :=
  if (s.door j).awaiting ∧ (s.door j).state = .closed ∧ (s.door j).command = none then
    firstStatus j st (setDoor j ((s.door j).shown st g) s)
  else judgeStatus j st (setDoor j ((s.door j).shown st g) s)

theorem judgedStatus_of_first (h : (s.door j).first) :
    judgedStatus j st g s = firstStatus j st (setDoor j ((s.door j).shown st g) s) := if_pos h

theorem judgedStatus_of_later (h : ¬ (s.door j).first) :
    judgedStatus j st g s = judgeStatus j st (setDoor j ((s.door j).shown st g) s) := if_neg h

theorem takeStatus_eq : takeStatus j st g s =
    updateWarning s.closingSet (toggleCheck j (s.door j).lastStatus st g (judgedStatus j st g s)) := rfl

section
variable (hj : j ≤ 8)
include hj

section
variable (he : judgedStatus j st g s = setDoor j x u) (hx : x.state ≠ .fault) (hs : x.stallCount = (s.door j).stallCount)
include he hx hs

theorem takeStatus_of_few (hn : (s.door j).repeats st g < 3) : takeStatus j st g s =
    updateWarning s.closingSet (setDoor j { x with stallCount := (s.door j).repeats st g } u) := by
  rw [takeStatus_eq, he, toggleCheck_setDoor hj hx hs, if_neg (Nat.not_le.2 hn)]

theorem takeStatus_of_third (hn : 3 ≤ (s.door j).repeats st g) : takeStatus j st g s =
    updateWarning s.closingSet (doorFault j (setDoor j { x with stallCount := (s.door j).repeats st g } u)) := by
  rw [takeStatus_eq, he, toggleCheck_setDoor hj hx hs, if_pos hn]

end

end

/-! ## A status judged by the record's state (R96) -/

section
variable {ds : DoorState}

theorem judgeStatus_of_fault (h : (t.door j).state = .fault) : judgeStatus j st t = t := by
  simp only [judgeStatus, h]

theorem judgeStatus_of_failed (h : (t.door j).state ≠ .fault) : judgeStatus j .failed t = doorFault j t := by
  cases hs : (t.door j).state with
  | fault => exact absurd hs h
  | _ => simp only [judgeStatus, hs]

/-- R96: the statuses that a record in this state records alone. -/
def Agrees (ds : DoorState) (st : DoorStatus) : Prop :=
  (ds = .closed ∧ st = .locked) ∨ ((ds = .open ∨ ds = .pending) ∧ st = .open)
    ∨ ((ds = .opening ∨ ds = .reopening) ∧ (st = .locked ∨ st = .closing ∨ st = .obstructed))
    ∨ (ds = .closing ∧ (st = .opening ∨ st = .open))

/-- R96: the statuses that contradict a record at rest. -/
def Contradicts (ds : DoorState) (st : DoorStatus) : Prop :=
  (ds = .closed ∧ st ≠ .locked) ∨ ((ds = .open ∨ ds = .pending) ∧ st ≠ .open)

theorem judgeStatus_of_agrees (h : Agrees (t.door j).state st) : judgeStatus j st t = t := by
  rcases h with ⟨h, rfl⟩ | ⟨h | h, rfl⟩ | ⟨h | h, rfl | rfl | rfl⟩ | ⟨h, rfl | rfl⟩ <;> simp only [judgeStatus, h]

theorem judgeStatus_of_contradicts (h : Contradicts (t.door j).state st) : judgeStatus j st t = doorFault j t := by
  rcases h with ⟨h, hs⟩ | ⟨h | h, hs⟩ <;> cases st <;> simp_all [judgeStatus]

theorem judgeStatus_of_reflected (h : (((t.door j).state = .opening ∨ (t.door j).state = .reopening) ∧ st = .opening)
    ∨ ((t.door j).state = .closing ∧ st = .closing)) : judgeStatus j st t = reflected j t := by
  rcases h with ⟨h | h, rfl⟩ | ⟨h, rfl⟩ <;> simp only [judgeStatus, h]

theorem judgeStatus_of_opened (h : (t.door j).state = .opening ∨ (t.door j).state = .reopening) :
    judgeStatus j .open t = reachOpen j t := by
  rcases h with h | h <;> simp only [judgeStatus, h]

theorem judgeStatus_of_closed (h : (t.door j).state = .closing) : judgeStatus j .locked t = reachClosed j t := by
  simp only [judgeStatus, h]

theorem judgeStatus_of_obstructed (h : (t.door j).state = .closing) : judgeStatus j .obstructed t = obstruction j t := by
  simp only [judgeStatus, h]

end

end

/-! ## What a status brings (R95, R103, R107, R108) -/

section
variable {j : Nat} {s u : State} {x : Door} {m : DeskTarget}

/-- R103, R107: the record with a desk mark whose target it has reached cleared. -/
def Door.unmarked (m : DeskTarget) (d : Door) : Door :=
  { d with deskMark := if d.deskMark = some m then none else d.deskMark }

/-- R103, R107: DOOR_DONE set for a desk mark whose target the record has reached. -/
def doneFor (m : DeskTarget) (d : Door) (s : State) : State :=
  { s with dr := if d.deskMark = some m then flagged .doorDone s.dr else s.dr }

theorem doneFor_eq (m : DeskTarget) (d : Door) (s : State) :
    (if d.deskMark = some m then setFlag .doorDone s else s) = doneFor m d s := by
  rw [doneFor]
  split
  · exact setFlag_eq _ s
  · rfl

section
variable (hj : j ≤ 8)
include hj

theorem reachMark_setDoor : reachMark j m (setDoor j x s) = setDoor j (x.unmarked m) (doneFor m x s) := by
  rw [reachMark, door_setDoor_same hj, doneFor, Door.unmarked]
  by_cases h : x.deskMark = some m
  · rw [if_pos h, if_pos h, if_pos h, setDoor_setDoor hj, setFlag_eq]
    rfl
  · rw [if_neg h, if_neg h, if_neg h]

theorem obstruction_eq : obstruction j (setDoor j x s) =
    if (s.berth j).entry.retries < x.retryCount + 1 then
      doorFault j (setDoor j { x with retryCount := x.retryCount + 1, ackTimer := none } s)
    else sendOpened j (formOpen j .reopening .reopen
      (setDoor j { x with retryCount := x.retryCount + 1, ackTimer := none } s)) := by
  have hdoor : ((setDoor j x s).berth j).door = x := door_setDoor_same hj x s
  rw [obstruction, hdoor, setDoor_setDoor hj, entry_setDoor_same hj]

section
variable (hwait : DoorWait.command j ∉ s.ds.waiting)
include hwait

theorem reachClosed_setDoor : reachClosed j (setDoor j x s) = sendLocked j (setDoor j
    (({ x with state := .closed, command := none, ackTimer := none, motionTimer := none, retryCount := 0 } : Door).unmarked
      .closed) (doneFor .closed x s)) := by
  rw [reachClosed, door_setDoor_same hj, setDoor_setDoor hj]
  dsimp only
  rw [unwait_of_not_mem (s := setDoor j _ s) hwait, reachMark_setDoor hj]
  rfl

/-- R103: the record that has reached OPEN, its motion over. -/
def Door.arrived (x : Door) : Door := { x with command := none, ackTimer := none, motionTimer := none }.unmarked .open

theorem reachOpen_eq : reachOpen j (setDoor j x s) =
    if x.heldClose then
      becomePending j (setDoor j { x.arrived with heldClose := false, dwellKind := .full } (doneFor .open x s))
    else if x.held then
      setDoor j { x.arrived with
        state := .open, hold := .yes ((s.berth j).entry.dwellOf x.dwellKind), dwellTimer := .suspended
        dwellKind := .full } (doneFor .open x s)
    else
      setDoor j { x.arrived with
        state := .open, dwellTimer := .running (s.now + (s.berth j).entry.dwellOf x.dwellKind), dwellKind := .full }
        (doneFor .open x s) := by
  rw [reachOpen, door_setDoor_same hj, setDoor_setDoor hj, entry_setDoor_same hj]
  dsimp only
  rw [unwait_of_not_mem (s := setDoor j _ s) hwait, reachMark_setDoor hj, door_setDoor_same hj, setDoor_setDoor hj,
    setDoor_setDoor hj, setDoor_setDoor hj]
  rfl

end

end

end

/-! ## A first status (R95) -/

section
variable {j : Nat} {s : State} {x : Door}

theorem foundMoving_setDoor (hj : j ≤ 8) (dst : DoorState) : foundMoving j dst (setDoor j x s) =
    setDoor j { x with state := dst, motionTimer := some (s.now + (s.berth j).entry.motionLimit * 100) } s := by
  rw [foundMoving, door_setDoor_same hj, entry_setDoor_same hj, setDoor_setDoor hj]
  rfl

theorem formOpen_setDoor (hj : s.isBerth j = true) (hwait : DoorWait.command j ∉ s.ds.waiting)
    (hroom : s.lr.door.length < 8) (dst : DoorState) (kind : DwellKind) : formOpen j dst kind (setDoor j x s) =
    setDoor j { x with
        state := dst, command := some (.open, .placedOnce), ackTimer := some (s.now + 300)
        motionTimer := some (s.now + (s.berth j).entry.motionLimit * 100), dwellTimer := .stopped, dwellKind := kind }
      { s with lr := { s.lr with door := s.lr.door ++ [commandFrame (s.berth j).entry.doorNode .open] } } := by
  have hj' := le_of_isBerth hj
  rw [formOpen_of_room (s := setDoor j x s) hj hwait hroom, door_setDoor_same hj', entry_setDoor_same hj']
  exact setDoor_setDoor hj' _ x
    { s with lr := { s.lr with door := s.lr.door ++ [commandFrame (s.berth j).entry.doorNode .open] } }

theorem foundOpen_setDoor {i : Nat} (hj : s.isBerth j = true) (hc : x.cabin.isSome = true) (hi : s.isBerth i = true)
    (hij : i ≠ j) (hp : (s.door i).state = .pending) : foundOpen j (setDoor j x s) =
    setDoor j { x with state := .open, dwellTimer := .running (s.now + (s.berth j).entry.dwell * 500) } s := by
  have hj' := le_of_isBerth hj
  rw [foundOpen_of_cabin (by rw [door_setDoor_same hj']; exact hc), door_setDoor_same hj', entry_setDoor_same hj',
    setDoor_setDoor hj']
  exact settleGather_of_other hj hi hij hp

end

/-! ## A fault, the gather, and a notice to CT -/

section
variable {j : Nat} {st : DoorStatus} {g : Bool} {s u : State} {x : Door}

/-- R104: the gather does not end with this berth's record. -/
def GatherStays (j : Nat) (s : State) : Prop := (s.ds.windowTimer = none ∧ s.ds.capTimer = none)
  ∨ ∃ i, s.isBerth i = true ∧ i ≠ j ∧ (s.door i).state = .pending

theorem doorFault_setDoor (hj : s.isBerth j = true) (hwait : DoorWait.command j ∉ s.ds.waiting) (hg : GatherStays j s) :
    doorFault j (setDoor j x s) = setFlag .doorFault (raise (doorFaultRaise j) (setDoor j x.faulted s)) := by
  have hj' := le_of_isBerth hj
  rw [doorFault_of_not_mem (s := setDoor j x s) hwait, door_setDoor_same hj', setDoor_setDoor hj']
  rcases hg with ⟨hw, hc⟩ | ⟨i, hi, hij, hp⟩
  · rw [settleGather_of_idle (s := setDoor j _ s) hw hc]
  · rw [settleGather_of_other hj hi hij hp]

theorem takeStatus_of_faulted (hj : s.isBerth j = true) (hwait : DoorWait.command j ∉ s.ds.waiting)
    (hg : GatherStays j s) (hset : Settled s) (he : judgedStatus j st g s = doorFault j (setDoor j x s)) :
    takeStatus j st g s = updateWarning s.closingSet
      (setFlag .doorFault (raise (doorFaultRaise j) (setDoor j x.faulted s))) := by
  have hline := raise_lineOnly (doorFaultRaise j) (settled_of_eq (t := setDoor j x.faulted s) hset rfl rfl rfl)
  rw [doorFault_setDoor hj hwait hg] at he
  rw [takeStatus_eq, he, toggleCheck_of_fault]
  rw [State.door, State.berth, setFlag_ds]
  refine (congrArg Door.state (hline.doors j)).trans ?_
  rw [door_setDoor_same (le_of_isBerth hj)]
  rfl

theorem becomePending_setDoor {cap : Option Nat} (hj : s.isBerth j = true) (hd : (s.door j).state ≠ .pending)
    (hx : x.state ≠ .pending)
    (hcap : ((∀ i, s.isBerth i = true → (s.door i).state ≠ .pending)
        ∧ cap = some (s.now + 4 * ((s.berth j).entry.gatherWindow * 100)))
      ∨ ((∃ i, s.isBerth i = true ∧ (s.door i).state = .pending) ∧ cap = s.ds.capTimer)) :
    becomePending j (setDoor j x s) = setDoor j { x with state := .pending, dwellTimer := .stopped }
      { s with ds := { s.ds with
        windowTimer := some (s.now + (s.berth j).entry.gatherWindow * 100), capTimer := cap } } := by
  have hj' := le_of_isBerth hj
  have hcap' : cap = if (setDoor j x s).gathering then (setDoor j x s).ds.capTimer
      else some ((setDoor j x s).now + 4 * (((setDoor j x s).berth j).entry.gatherWindow * 100)) := by
    rw [gathering_setDoor hj hx hd, entry_setDoor_same hj']
    rcases hcap with ⟨hidle, rfl⟩ | ⟨hother, rfl⟩
    · rw [gathering_of_none hidle]
      rfl
    · rw [gathering_iff.2 hother]
      rfl
  rw [becomePending_eq hcap', entry_setDoor_same hj', door_setDoor_same hj']
  exact setDoor_setDoor hj' _ _ { s with ds := { s.ds with
    windowTimer := some (s.now + (s.berth j).entry.gatherWindow * 100), capTimer := cap } }

/-- The release leaves DS, and does not read it. -/
theorem updateRelease_of_ds (x : DoorSeq) (s : State) :
    updateRelease { s with ds := x } = { updateRelease s with ds := x } := by
  have hsend : ∀ t : State, sendLaunchRel { t with ds := x } = { sendLaunchRel t with ds := x } := fun t => by
    rw [sendLaunchRel, sendLaunchRel]
    by_cases h : t.params.conveyorNode = 0
    · rw [if_pos h]
      exact if_pos h
    · rw [if_neg h]
      exact if_neg h
  have hnow : releaseNow { s with ds := x } = releaseNow s := rfl
  obtain ⟨⟨r, id⟩, h⟩ : ∃ x, releaseNow s = x := ⟨_, rfl⟩
  by_cases hn : s.ct.release ≠ r ∨ s.ct.releaseCabin ≠ id
  · rw [updateRelease_of_new h hn]
    exact (updateRelease_of_new (hnow.trans h) hn).trans (hsend (released r id s))
  · obtain ⟨hr, hid⟩ := not_or.1 hn
    rw [updateRelease_of_same h (not_not.1 hr) (not_not.1 hid)]
    exact updateRelease_of_same (hnow.trans h) (not_not.1 hr) (not_not.1 hid)

theorem setDoor_updateRelease (d : Door) (s : State) : setDoor j d (updateRelease s) = updateRelease (setDoor j d s) :=
  Eq.trans (congrArg (fun x => { updateRelease s with ds := (setDoor j d { s with ds := x }).ds }) (updateRelease_ds s) :)
    (updateRelease_of_ds (setDoor j d s).ds s).symm

/-- R77: a notice before the record's count, or after it. -/
theorem setDoor_noticeLocked {i : Nat} {b : Bool} {d : Door} (hset : Settled s) :
    setDoor j d (noticeLocked i b s) = noticeLocked i b (setDoor j d s) := by
  have hset' : Settled (setDoor j d s) := settled_of_eq hset rfl rfl rfl
  by_cases hnews : ∃ c ∈ s.ct.queue, c.zone = i ∧ c.locked ≠ b
  · rw [noticeLocked_of_news hset hnews, noticeLocked_of_news hset' hnews, setDoor_updateRelease]
    rfl
  · have hsame : ∀ c ∈ s.ct.queue, c.zone = i → c.locked = b := fun c hc hz => by
      by_contra hl
      exact hnews ⟨c, hc, hz, hl⟩
    rw [noticeLocked_of_same hsame, noticeLocked_of_same (s := setDoor j d s) hsame]

theorem takeStatus_of_noticed {b : Bool} (hj : j ≤ 8) (he : judgedStatus j st g s = noticeLocked j b (setDoor j x u))
    (hset : Settled u) (hx : x.state ≠ .fault) (hs : x.stallCount = (s.door j).stallCount)
    (hn : (s.door j).repeats st g < 3) : takeStatus j st g s = updateWarning s.closingSet
      (noticeLocked j b (setDoor j { x with stallCount := (s.door j).repeats st g } u)) := by
  have hset' : Settled (setDoor j x u) := settled_of_eq hset rfl rfl rfl
  have hdoor : (noticeLocked j b (setDoor j x u)).door j = x := by
    rw [State.door, State.berth, (noticeLocked_frame hset').1]
    exact door_setDoor_same hj x u
  have hcount : { s.door j with stallCount := x.stallCount }.repeats st g = (s.door j).repeats st g := by rw [hs]
  rw [takeStatus_eq, he]
  refine congrArg (updateWarning s.closingSet) ((toggleCheck_eq (s.door j)).trans ?_)
  rw [hdoor, if_neg hx, hcount]
  dsimp only
  rw [if_neg (Nat.not_le.2 hn), setDoor_noticeLocked hset', setDoor_setDoor hj]

end

end Sys2Proof.Machine
end

section
/-! SUPPORT. A drive's status, by the state of its record (R95, R96, R99, R103, R107, R108, R112). -/

namespace Sys2Proof.Machine

open Sys2Proof.Safety

section
variable {j : Nat} {st : DoorStatus} {g : Bool} {s u : State} {x : Door}

/-- R95, R99: a record that has taken a status, its repeats counted against the record before. -/
def Door.heard (d : Door) (st : DoorStatus) (g : Bool) (x : Door) : Door :=
  { x with awaiting := false, lastStatus := some (st, g), stallCount := d.repeats st g }

theorem state_ne_of_eq {S T : DoorState} {d : Door} (h : d.state = S) (hne : S ≠ T) : d.state ≠ T := h ▸ hne

theorem not_first_of_state {S : DoorState} (h : (s.door j).state = S) (hne : S ≠ .closed) : ¬ (s.door j).first :=
  fun hf => hne (h.symm.trans hf.2.1)

theorem state_shown (hj : j ≤ 8) : ((setDoor j ((s.door j).shown st g) s).door j).state = (s.door j).state := by
  rw [door_setDoor_same hj]
  rfl

/-- R95: in FAULT a status is recorded, its repeats not counted. -/
theorem takeStatus_of_fault (hj : s.isBerth j = true) (h : (s.door j).state = .fault) :
    takeStatus j st g s = setDoor j ((s.door j).shown st g) s := by
  have hstate := (state_shown (st := st) (g := g) (le_of_isBerth hj)).trans h
  have he := (judgedStatus_of_later (not_first_of_state h nofun)).trans (judgeStatus_of_fault (st := st) hstate)
  rw [takeStatus_eq, he, toggleCheck_of_fault hstate]
  exact updateWarning_of_same (closingSet_door hj rfl rfl .rfl)

theorem judgedStatus_of_opened (hj : s.isBerth j = true)
    (hm : (s.door j).state = .opening ∨ (s.door j).state = .reopening) (hst : st = .open) :
    judgedStatus j st g s = reachOpen j (setDoor j ((s.door j).shown st g) s) := by
  subst hst
  have hnf : ¬ (s.door j).first := by
    rcases hm with h | h <;> exact not_first_of_state h nofun
  exact (judgedStatus_of_later hnf).trans (judgeStatus_of_opened (by rw [state_shown (le_of_isBerth hj)]; exact hm))

theorem not_closing_of_moving (hm : (s.door j).state = .opening ∨ (s.door j).state = .reopening) :
    (s.door j).state ≠ .closing := by
  rcases hm with h | h <;> exact state_ne_of_eq h nofun

/-! ## With fewer than 3 repeats -/

section
variable (hj : s.isBerth j = true) (hn : (s.door j).repeats st g < 3)
include hj hn

/-- R106: a status that leaves the CLOSING records as they were. -/
theorem takeStatus_of_calm (he : judgedStatus j st g s = setDoor j x u) (hx : x.state ≠ .fault)
    (hc : x.state = .closing ↔ (s.door j).state = .closing) (hs : x.stallCount = (s.door j).stallCount)
    (hstraps : u.straps = s.straps) (hds : u.ds.berths = s.ds.berths) :
    takeStatus j st g s = setDoor j { x with stallCount := (s.door j).repeats st g } u :=
  (takeStatus_of_few (le_of_isBerth hj) he hx hs hn).trans
    (updateWarning_of_same (closingSet_door hj hstraps hds hc))

section
variable (hf : (s.door j).first)
include hf

/-- R95: a first status that leaves the record in no motion, or opening. -/
theorem takeStatus_of_first (he : firstStatus j st (setDoor j ((s.door j).shown st g) s) = setDoor j x u)
    (hx : x.state ≠ .fault) (hc : x.state ≠ .closing) (hs : x.stallCount = (s.door j).stallCount)
    (hstraps : u.straps = s.straps) (hds : u.ds.berths = s.ds.berths) :
    takeStatus j st g s = setDoor j { x with stallCount := (s.door j).repeats st g } u :=
  takeStatus_of_calm hj hn ((judgedStatus_of_first hf).trans he) hx
    (iff_of_false hc (state_ne_of_eq hf.2.1 nofun)) hs hstraps hds

theorem takeStatus_first_locked (h : st = .locked) :
    takeStatus j st g s = setDoor j ((s.door j).heard st g (s.door j)) s := by
  subst h
  exact takeStatus_of_first hj hn hf (x := (s.door j).shown .locked g) rfl (state_ne_of_eq hf.2.1 nofun)
    (state_ne_of_eq hf.2.1 nofun) rfl rfl rfl

theorem takeStatus_first_open (h : st = .open) (hc : (s.door j).cabin.isSome = true)
    (hi : ∃ i, s.isBerth i = true ∧ (s.door i).state = .pending) : takeStatus j st g s = setDoor j ((s.door j).heard st g
      { s.door j with state := .open, dwellTimer := .running (s.now + (s.berth j).entry.dwell * 500) }) s := by
  subst h
  obtain ⟨i, hi, hp⟩ := hi
  have hij : i ≠ j := by
    rintro rfl
    exact state_ne_of_eq hf.2.1 (T := .pending) nofun hp
  exact takeStatus_of_first hj hn hf (foundOpen_setDoor hj hc hi hij hp) nofun nofun rfl rfl rfl

theorem takeStatus_first_vacant {cap : Option Nat} (h : st = .open) (hc : (s.door j).cabin = none)
    (hcap : ((∀ i, s.isBerth i = true → (s.door i).state ≠ .pending)
        ∧ cap = some (s.now + 4 * ((s.berth j).entry.gatherWindow * 100)))
      ∨ ((∃ i, s.isBerth i = true ∧ (s.door i).state = .pending) ∧ cap = s.ds.capTimer)) :
    takeStatus j st g s = setDoor j ((s.door j).heard st g
        { s.door j with state := .pending, dwellTimer := .stopped })
      { s with ds := { s.ds with
        windowTimer := some (s.now + (s.berth j).entry.gatherWindow * 100), capTimer := cap } } := by
  subst h
  have hne : ∀ {d : Door}, d.state = (s.door j).state → d.state ≠ .pending := fun hd =>
    state_ne_of_eq (hd.trans hf.2.1) nofun
  refine takeStatus_of_first hj hn hf (Eq.trans ?_ (becomePending_setDoor (x := (s.door j).shown .open g) hj (hne rfl)
    (hne rfl) hcap)) nofun nofun rfl rfl rfl
  exact foundOpen_of_vacant (by rw [door_setDoor_same (le_of_isBerth hj)]; exact hc)

theorem takeStatus_first_opening (h : st = .opening) : takeStatus j st g s = setDoor j ((s.door j).heard st g
    { s.door j with
      state := .opening, motionTimer := some (s.now + (s.berth j).entry.motionLimit * 100) }) s := by
  subst h
  exact takeStatus_of_first hj hn hf (foundMoving_setDoor (le_of_isBerth hj) .opening) nofun nofun rfl rfl rfl

theorem takeStatus_first_closing (h : st = .closing) : takeStatus j st g s = updateWarning s.closingSet (setDoor j
    ((s.door j).heard st g { s.door j with
      state := .closing, motionTimer := some (s.now + (s.berth j).entry.motionLimit * 100) }) s) := by
  subst h
  have hj' := le_of_isBerth hj
  have he := (judgedStatus_of_first (st := .closing) (g := g) hf).trans
    (foundMoving_setDoor (s := s) (x := (s.door j).shown .closing g) hj' .closing)
  have hfew := takeStatus_of_few hj' he nofun rfl hn
  exact hfew

theorem takeStatus_first_obstructed (h : st = .obstructed) (hwait : DoorWait.command j ∉ s.ds.waiting)
    (hroom : s.lr.door.length < 8) : takeStatus j st g s = setDoor j ((s.door j).heard st g { s.door j with
        state := .opening, command := some (.open, .placedOnce), ackTimer := some (s.now + 300)
        motionTimer := some (s.now + (s.berth j).entry.motionLimit * 100), dwellTimer := .stopped, dwellKind := .full })
      { s with lr := { s.lr with door := s.lr.door ++ [commandFrame (s.berth j).entry.doorNode .open] } } := by
  subst h
  exact takeStatus_of_first hj hn hf (formOpen_setDoor hj hwait hroom .opening .full) nofun nofun rfl rfl rfl

end

theorem takeStatus_agrees (h : Agrees (s.door j).state st) :
    takeStatus j st g s = setDoor j ((s.door j).heard st g (s.door j)) s := by
  by_cases hf : (s.door j).first
  · refine takeStatus_first_locked hj hn hf ?_
    rcases h with ⟨-, h⟩ | ⟨h, -⟩ | ⟨h, -⟩ | ⟨h, -⟩
    · exact h
    all_goals
      rw [hf.2.1] at h
      exact absurd h (by decide)
  · have hstate := state_shown (s := s) (st := st) (g := g) (le_of_isBerth hj)
    have hne : (s.door j).state ≠ .fault := by
      rcases h with ⟨h, -⟩ | ⟨h | h, -⟩ | ⟨h | h, -⟩ | ⟨h, -⟩ <;> exact state_ne_of_eq h nofun
    exact takeStatus_of_calm hj hn (x := (s.door j).shown st g) ((judgedStatus_of_later hf).trans
      (judgeStatus_of_agrees (by rw [hstate]; exact h))) hne .rfl rfl rfl rfl

theorem takeStatus_reflected (h : (((s.door j).state = .opening ∨ (s.door j).state = .reopening) ∧ st = .opening)
    ∨ ((s.door j).state = .closing ∧ st = .closing)) :
    takeStatus j st g s = setDoor j ((s.door j).heard st g { s.door j with ackTimer := none }) s := by
  have hj' := le_of_isBerth hj
  have hstate := state_shown (s := s) (st := st) (g := g) hj'
  have hsort : (s.door j).state ≠ .fault ∧ (s.door j).state ≠ .closed := by
    rcases h with ⟨h | h, -⟩ | ⟨h, -⟩ <;> exact ⟨state_ne_of_eq h nofun, state_ne_of_eq h nofun⟩
  refine takeStatus_of_calm hj hn (x := { (s.door j).shown st g with ackTimer := none })
    ((judgedStatus_of_later fun hf => hsort.2 hf.2.1).trans ((judgeStatus_of_reflected (by rw [hstate]; exact h)).trans ?_))
    hsort.1 .rfl rfl rfl rfl
  rw [reflected, door_setDoor_same hj', setDoor_setDoor hj']

section
variable (hwait : DoorWait.command j ∉ s.ds.waiting)
include hwait

/-! ### A record in motion reaches OPEN (R103) -/

section
variable (hm : (s.door j).state = .opening ∨ (s.door j).state = .reopening) (hst : st = .open)
include hm hst

theorem takeStatus_opened_pending {cap : Option Nat} (hh : (s.door j).heldClose = true)
    (hcap : ((∀ i, s.isBerth i = true → (s.door i).state ≠ .pending)
        ∧ cap = some (s.now + 4 * ((s.berth j).entry.gatherWindow * 100)))
      ∨ ((∃ i, s.isBerth i = true ∧ (s.door i).state = .pending) ∧ cap = s.ds.capTimer)) :
    takeStatus j st g s = doneFor .open (s.door j) (setDoor j ((s.door j).heard st g { (s.door j).arrived with
        dwellKind := .full, heldClose := false, state := .pending, dwellTimer := .stopped })
      { s with ds := { s.ds with
        windowTimer := some (s.now + (s.berth j).entry.gatherWindow * 100), capTimer := cap } }) := by
  have hne : (s.door j).state ≠ .pending := by
    rcases hm with h | h <;> exact state_ne_of_eq h nofun
  have he := (judgedStatus_of_opened (g := g) hj hm hst).trans ((reachOpen_eq (le_of_isBerth hj) hwait).trans (if_pos hh))
  have hp := becomePending_setDoor (s := doneFor .open (s.door j) s) (x := { ((s.door j).shown st g).arrived with
    heldClose := false, dwellKind := .full }) hj hne hne hcap
  exact takeStatus_of_calm hj hn (he.trans hp) nofun (iff_of_false nofun (not_closing_of_moving hm)) rfl
    rfl rfl

theorem takeStatus_opened_held (hh : (s.door j).heldClose = false) (hold : (s.door j).hold ≠ .no) :
    takeStatus j st g s = doneFor .open (s.door j) (setDoor j ((s.door j).heard st g { (s.door j).arrived with
      dwellKind := .full, state := .open, hold := .yes ((s.berth j).entry.dwellOf (s.door j).dwellKind)
      dwellTimer := .suspended }) s) := by
  have hheld : ((s.door j).shown st g).held = true := bne_iff_ne.2 hold
  have he := (judgedStatus_of_opened (g := g) hj hm hst).trans ((reachOpen_eq (le_of_isBerth hj) hwait).trans
    ((if_neg (show ¬ ((s.door j).shown st g).heldClose = true from Bool.eq_false_iff.1 hh)).trans (if_pos hheld)))
  exact takeStatus_of_calm hj hn he nofun (iff_of_false nofun (not_closing_of_moving hm)) rfl rfl rfl

theorem takeStatus_opened_free (hh : (s.door j).heldClose = false) (hold : (s.door j).hold = .no) :
    takeStatus j st g s = doneFor .open (s.door j) (setDoor j ((s.door j).heard st g { (s.door j).arrived with
      dwellKind := .full, state := .open
      dwellTimer := .running (s.now + (s.berth j).entry.dwellOf (s.door j).dwellKind) }) s) := by
  have hheld : ¬ ((s.door j).shown st g).held = true := fun h => bne_iff_ne.1 h hold
  have he := (judgedStatus_of_opened (g := g) hj hm hst).trans ((reachOpen_eq (le_of_isBerth hj) hwait).trans
    ((if_neg (show ¬ ((s.door j).shown st g).heldClose = true from Bool.eq_false_iff.1 hh)).trans (if_neg hheld)))
  exact takeStatus_of_calm hj hn he nofun (iff_of_false nofun (not_closing_of_moving hm)) rfl rfl rfl

end

/-! ### A CLOSING record reaches CLOSED, or reopens (R107, R108) -/

section
variable (hcl : (s.door j).state = .closing)
include hcl

/-- R107: the record that LOCKED closes. -/
def Door.shut (d : Door) : Door :=
  { d with state := .closed, command := none, ackTimer := none, motionTimer := none, retryCount := 0 }.unmarked .closed

theorem judgedStatus_of_shut (hst : st = .locked) : judgedStatus j st g s =
    if (s.door j).cabin.isSome ∧ (s.door j).openDelay = none ∧ (s.door j).waitingOpen = false then
      noticeLocked j true (setDoor j ((s.door j).shown st g).shut (doneFor .closed (s.door j) s))
    else setDoor j ((s.door j).shown st g).shut (doneFor .closed (s.door j) s) := by
  subst hst
  have hj' := le_of_isBerth hj
  refine (judgedStatus_of_later (not_first_of_state hcl nofun)).trans ((judgeStatus_of_closed
    ((state_shown hj').trans hcl)).trans ((reachClosed_setDoor hj' hwait).trans (sendLocked_setDoor hj')))

theorem takeStatus_shut_quiet (hst : st = .locked)
    (hq : ¬ ((s.door j).cabin.isSome = true ∧ (s.door j).openDelay = none ∧ (s.door j).waitingOpen = false)
      ∨ ∀ c ∈ s.ct.queue, c.zone = j → c.locked = true) : takeStatus j st g s = updateWarning s.closingSet
        (doneFor .closed (s.door j) (setDoor j ((s.door j).heard st g (s.door j).shut) s)) := by
  have he : judgedStatus j st g s = setDoor j ((s.door j).shown st g).shut (doneFor .closed (s.door j) s) := by
    rw [judgedStatus_of_shut hj hn hwait hcl hst]
    rcases hq with hq | hq
    · exact if_neg hq
    · rw [noticeLocked_of_same (s := setDoor j _ (doneFor .closed (s.door j) s)) hq]
      exact ite_self _
  have hfew := takeStatus_of_few (le_of_isBerth hj) he nofun rfl hn
  exact hfew

theorem takeStatus_shut_news (hst : st = .locked)
    (hv : (s.door j).cabin.isSome = true ∧ (s.door j).openDelay = none ∧ (s.door j).waitingOpen = false)
    (hset : Settled s) (hq : ∃ c ∈ s.ct.queue, c.zone = j ∧ c.locked = false) :
    takeStatus j st g s = updateWarning s.closingSet (updateRelease (marked j true
      (doneFor .closed (s.door j) (setDoor j ((s.door j).heard st g (s.door j).shut) s)))) := by
  have he := (judgedStatus_of_shut (g := g) hj hn hwait hcl hst).trans (if_pos hv)
  have hset' : Settled (doneFor .closed (s.door j) s) := settled_of_eq hset rfl rfl rfl
  obtain ⟨c, hc, hz, hl⟩ := hq
  rw [takeStatus_of_noticed (le_of_isBerth hj) he hset' nofun rfl hn]
  exact congrArg (updateWarning s.closingSet) (noticeLocked_of_news (settled_of_eq hset rfl rfl rfl)
    ⟨c, hc, hz, by rw [hl]; decide⟩)

/-- R108: the record that an obstruction reopens. -/
def Door.reopens (d : Door) (now limit : Nat) : Door :=
  { d with
    retryCount := d.retryCount + 1, state := .reopening, command := some (.open, .placedOnce), ackTimer := some (now + 300)
    motionTimer := some (now + limit * 100), dwellTimer := .stopped, dwellKind := .reopen }

theorem judgedStatus_of_reopened (hst : st = .obstructed) (hre : (s.door j).retryCount + 1 ≤ (s.berth j).entry.retries)
    (hroom : s.lr.door.length < 8) {x : Door} {u : State}
    (hx : x = ((s.door j).shown st g).reopens s.now (s.berth j).entry.motionLimit)
    (hu : u = { s with lr := { s.lr with door := s.lr.door ++ [commandFrame (s.berth j).entry.doorNode .open] } }) :
    judgedStatus j st g s =
      if (s.door j).cabin.isSome then noticeLocked j false (setDoor j x u) else setDoor j x u := by
  subst hst
  have hj' := le_of_isBerth hj
  refine (judgedStatus_of_later (not_first_of_state hcl nofun)).trans ((judgeStatus_of_obstructed
    ((state_shown hj').trans hcl)).trans ((obstruction_eq hj').trans ((if_neg (Nat.not_lt.2 hre)).trans ?_)))
  rw [formOpen_setDoor hj hwait hroom, sendOpened_setDoor hj', hx, hu]
  rfl

theorem takeStatus_reopened_quiet (hst : st = .obstructed)
    (hre : (s.door j).retryCount + 1 ≤ (s.berth j).entry.retries) (hroom : s.lr.door.length < 8)
    (hq : (s.door j).cabin = none ∨ ∀ c ∈ s.ct.queue, c.zone = j → c.locked = false) :
    takeStatus j st g s = updateWarning s.closingSet (setDoor j
      ((s.door j).heard st g ((s.door j).reopens s.now (s.berth j).entry.motionLimit))
      { s with lr := { s.lr with door := s.lr.door ++ [commandFrame (s.berth j).entry.doorNode .open] } }) := by
  obtain ⟨u, hu⟩ : ∃ u, u = { s with lr := { s.lr with
    door := s.lr.door ++ [commandFrame (s.berth j).entry.doorNode .open] } } := ⟨_, rfl⟩
  have hct : u.ct = s.ct := by rw [hu]
  have he : judgedStatus j st g s = setDoor j (((s.door j).shown st g).reopens s.now (s.berth j).entry.motionLimit) u := by
    rw [judgedStatus_of_reopened hj hn hwait hcl hst hre hroom rfl hu]
    rcases hq with hq | hq
    · rw [hq]
      exact if_neg nofun
    · rw [noticeLocked_of_same (s := setDoor j _ u) (by rw [setDoor_ct, hct]; exact hq)]
      exact ite_self _
  rw [← hu]
  have hfew := takeStatus_of_few (le_of_isBerth hj) he nofun rfl hn
  exact hfew

theorem takeStatus_reopened_news (hst : st = .obstructed)
    (hre : (s.door j).retryCount + 1 ≤ (s.berth j).entry.retries) (hroom : s.lr.door.length < 8)
    (hc : (s.door j).cabin.isSome = true) (hset : Settled s) (hq : ∃ c ∈ s.ct.queue, c.zone = j ∧ c.locked = true) :
    takeStatus j st g s = updateWarning s.closingSet (updateRelease (marked j false (setDoor j
      ((s.door j).heard st g ((s.door j).reopens s.now (s.berth j).entry.motionLimit))
      { s with lr := { s.lr with door := s.lr.door ++ [commandFrame (s.berth j).entry.doorNode .open] } }))) := by
  obtain ⟨u, hu⟩ : ∃ u, u = { s with lr := { s.lr with
    door := s.lr.door ++ [commandFrame (s.berth j).entry.doorNode .open] } } := ⟨_, rfl⟩
  have hct : u.ct = s.ct := by rw [hu]
  have hset' : Settled u := hu ▸ settled_of_eq hset rfl rfl rfl
  have he := (judgedStatus_of_reopened (g := g) hj hn hwait hcl hst hre hroom rfl hu).trans (if_pos hc)
  obtain ⟨c, hq, hz, hl⟩ := hq
  rw [← hu, takeStatus_of_noticed (le_of_isBerth hj) he hset' nofun rfl hn]
  exact congrArg (updateWarning s.closingSet) (noticeLocked_of_news (settled_of_eq hset' rfl rfl rfl)
    ⟨c, by rw [setDoor_ct, hct]; exact hq, hz, by rw [hl]; decide⟩)

end

end

end

/-! ## The statuses that bring a fault (R95, R96, R99, R108) -/

theorem repeats_of_still {d : Door} (h : st.moving = false) : d.repeats st g = 0 := by
  rw [Door.repeats, h]
  split
  · exact if_neg fun hc => Bool.false_ne_true hc.1
  · rfl

theorem moving_of_repeats {d : Door} (h : 3 ≤ d.repeats st g) : st = .opening ∨ st = .closing := by
  cases st with
  | opening => exact .inl rfl
  | closing => exact .inr rfl
  | _ =>
    rw [repeats_of_still rfl] at h
    exact absurd h (by decide)

/-- R112: the record in FAULT, with DOOR_FAULT raised and its flag set. -/
def faultBrought (j : Nat) (m : Byte) (x : Door) (s : State) : State :=
  updateWarning m (setFlag .doorFault (raise (doorFaultRaise j) (setDoor j x s)))

section
variable (hj : s.isBerth j = true) (hwait : DoorWait.command j ∉ s.ds.waiting) (hg : GatherStays j s)
include hj hwait hg

theorem takeStatus_repeated (h : 3 ≤ (s.door j).repeats st g)
    (hm : ((s.door j).state = .opening ∨ (s.door j).state = .reopening) ∨ (s.door j).state = .closing) :
    takeStatus j st g s = faultBrought j s.closingSet
      ({ s.door j with stallCount := (s.door j).repeats st g }.shown st g).faulted s := by
  have hj' := le_of_isBerth hj
  have hstate := state_shown (s := s) (st := st) (g := g) hj'
  have hsort : (s.door j).state ≠ .fault ∧ (s.door j).state ≠ .closed := by
    rcases hm with (h | h) | h <;> exact ⟨state_ne_of_eq h nofun, state_ne_of_eq h nofun⟩
  have hlater := judgedStatus_of_later (st := st) (g := g) fun hf => hsort.2 hf.2.1
  have hbrought : ∀ {x : Door}, judgedStatus j st g s = setDoor j x s → x.state ≠ .fault →
      x.stallCount = (s.door j).stallCount → { x with stallCount := (s.door j).repeats st g }.faulted
        = ({ s.door j with stallCount := (s.door j).repeats st g }.shown st g).faulted → takeStatus j st g s
          = faultBrought j s.closingSet ({ s.door j with stallCount := (s.door j).repeats st g }.shown st g).faulted s :=
    fun he hx hs hf => by
      rw [takeStatus_of_third hj' he hx hs h, doorFault_setDoor hj hwait hg, hf]
      rfl
  have hreflected : reflected j (setDoor j ((s.door j).shown st g) s)
      = setDoor j { (s.door j).shown st g with ackTimer := none } s := by
    rw [reflected, door_setDoor_same hj', setDoor_setDoor hj']
  rcases moving_of_repeats h with hst | hst
  · rcases hm with hm | hm
    · exact hbrought (hlater.trans ((judgeStatus_of_reflected (by rw [hstate]; exact .inl ⟨hm, hst⟩)).trans hreflected))
        hsort.1 rfl rfl
    · exact hbrought (x := (s.door j).shown st g) (hlater.trans (judgeStatus_of_agrees (by
        rw [hstate]
        exact .inr (.inr (.inr ⟨hm, .inl hst⟩))))) hsort.1 rfl rfl
  · rcases hm with hm | hm
    · exact hbrought (x := (s.door j).shown st g) (hlater.trans (judgeStatus_of_agrees (by
        rw [hstate]
        exact .inr (.inr (.inl ⟨hm, .inr (.inl hst)⟩))))) hsort.1 rfl rfl
    · exact hbrought (hlater.trans ((judgeStatus_of_reflected (by rw [hstate]; exact .inr ⟨hm, hst⟩)).trans hreflected))
        hsort.1 rfl rfl

section
variable (hset : Settled s)
include hset

theorem takeStatus_contradicted (hnf : (s.door j).state ≠ .fault)
    (h : st = .failed ∨ ((s.door j).state = .closed ∧ ¬ (s.door j).first ∧ st ≠ .locked)
      ∨ (((s.door j).state = .open ∨ (s.door j).state = .pending) ∧ st ≠ .open)) :
    takeStatus j st g s = faultBrought j s.closingSet ((s.door j).shown st g).faulted s := by
  have hstate := state_shown (s := s) (st := st) (g := g) (le_of_isBerth hj)
  have hbad : Contradicts (s.door j).state st → judgeStatus j st (setDoor j ((s.door j).shown st g) s)
      = doorFault j (setDoor j ((s.door j).shown st g) s) := fun h =>
    judgeStatus_of_contradicts (by rw [hstate]; exact h)
  refine takeStatus_of_faulted hj hwait hg hset ?_
  rcases h with rfl | ⟨hs, hnot, hst⟩ | ⟨hs, hst⟩
  · by_cases hf : (s.door j).first
    · exact judgedStatus_of_first hf
    · exact (judgedStatus_of_later hf).trans (judgeStatus_of_failed (by rw [hstate]; exact hnf))
  · exact (judgedStatus_of_later hnot).trans (hbad (.inl ⟨hs, hst⟩))
  · have hlater : ¬ (s.door j).first := by
      rcases hs with hs | hs <;> exact not_first_of_state hs nofun
    exact (judgedStatus_of_later hlater).trans (hbad (.inr ⟨hs, hst⟩))

theorem takeStatus_spent (hcl : (s.door j).state = .closing) (hst : st = .obstructed)
    (hre : (s.berth j).entry.retries < (s.door j).retryCount + 1) : takeStatus j st g s = faultBrought j s.closingSet
      ({ s.door j with retryCount := (s.door j).retryCount + 1 }.shown st g).faulted s := by
  subst hst
  have hj' := le_of_isBerth hj
  have hobs := (obstruction_eq (s := s) (x := (s.door j).shown .obstructed g) hj').trans (if_pos hre)
  have he := (judgedStatus_of_later (not_first_of_state hcl nofun)).trans
    ((judgeStatus_of_obstructed ((state_shown hj').trans hcl)).trans hobs)
  have hf := takeStatus_of_faulted hj hwait hg hset he
  exact hf

end

end

end

end Sys2Proof.Machine
end

section
/-! SUPPORT. CALL and VOICE frames of a phone (R150, R153 to R155, R158, R161), and the calls they start and end. -/

namespace Sys2Proof.Machine

open Sys2Proof.Safety

/-! ## A changed call record, and frames to the phones -/

section
variable {s r : State} {x y : CallSwitch} {fs gs : List QFrame} {m : Message} {h : Nat} {p : Priority}

/-- R151: a new call record with CALL_CHANGE, and frames at the tail of the VOICE queue. -/
def placed (x : CallSwitch) (fs : List QFrame) (s : State) : State :=
  { s with cs := x, dr := flagged .callChange s.dr, lr := { s.lr with voice := s.lr.voice ++ fs } }

theorem flagged_flagged (f : Flag) (s : State) : flagged f (flagged f s.dr) = flagged f s.dr := by
  have h : setFlag f (setFlag f s) = setFlag f s := if_pos (flag_setFlag_same f s)
  rw [setFlag_eq, setFlag_eq] at h
  exact congrArg State.dr h

theorem placed_placed : placed y gs (placed x fs s) = placed y (fs ++ gs) s := by
  rw [placed, placed, placed, flagged_flagged, List.append_assoc]

theorem setFlag_voiced : setFlag .callChange { voiced fs s with cs := x } = placed x fs s := by
  rw [setFlag_eq]
  rfl

theorem setFlag_changed : setFlag .callChange { s with cs := x } = placed x [] s := by
  rw [setFlag_eq, placed, List.append_nil]

theorem voiced_placed : voiced gs (placed x fs s) = placed x (fs ++ gs) s := by
  rw [voiced, placed, placed, List.append_assoc]

theorem updateRelease_messaged_placed :
    updateRelease (messaged m (placed x fs s)) = placed x fs (updateRelease (messaged m s)) := by
  refine (updateRelease_cs_voice (s := messaged m s) x (flagged .callChange s.dr) (s.lr.voice ++ fs)).trans ?_
  rw [placed, updateRelease_dr, updateRelease_voice]
  rfl

/-! ## A call begins, connects or ends (R153, R155, R158) -/

/-- R153: the call record of an outgoing call. -/
def CallSwitch.dialled (x : CallSwitch) (h : Nat) (p : Priority) (now : Nat) : CallSwitch :=
  { x.entered .outgoing (some h) p with ringTimer := some (now + 30000) }

theorem formCallMsg_placed (hb : x.backlog = []) (hset : Settled s) (hroom : s.sl.txQueue.length < 15) :
    formCallMsg m (placed x fs s) = placed x fs (updateRelease (messaged m s)) := by
  rw [formCallMsg_of_room (s := placed x fs s) hb (settled_of_eq hset rfl rfl rfl) hroom, updateRelease_messaged_placed]

theorem sendStanding_placed {st : Standing} {cause : Cause} (hnode : ((placed x fs s).phoneEntry h).node ≠ 0)
    (hroom : s.lr.voice.length + fs.length < 4) : sendStanding h st cause (placed x fs s)
      = placed x (fs ++ [phoneFrame h (enc1 4 ++ enc1 st.code ++ enc1 cause.code) (placed x fs s)]) s := by
  rw [sendStanding_of_node hnode (by rw [placed, List.length_append]; exact hroom), voiced_placed]

section
variable (hb : s.cs.backlog = []) (hset : Settled s) (hroom : s.sl.txQueue.length < 15)
include hb hset hroom

theorem startOutgoing_of_room (hout : s.cs.call ≠ .outgoing) (hin : s.cs.call ≠ .incoming)
    (hnode : (s.phoneEntry h).node ≠ 0) (hvoice : s.lr.voice.length < 4) : startOutgoing h p s =
      placed (s.cs.dialled h p s.now) [phoneFrame h [4, 1, 0] s] (updateRelease (messaged (ringMsg p) s)) := by
  have hset1 : setCall .outgoing (some h) p s = placed (s.cs.entered .outgoing (some h) p) [] s :=
    (setCall_of_quiet (fun he => hout he.symm) hin).trans setFlag_changed
  have hform : formCallMsg (ringMsg p) (placed (s.cs.dialled h p s.now) [] s)
      = placed (s.cs.dialled h p s.now) [] (updateRelease (messaged (ringMsg p) s)) := formCallMsg_placed hb hset hroom
  rw [startOutgoing, hset1]
  refine (congrArg (sendStanding h .ringing .normal) hform).trans (sendStanding_placed ?_ ?_)
  · exact hnode
  · rw [updateRelease_voice]
    exact hvoice

theorem answerCall_of_room (hin : s.cs.call = .incoming) (hrung : ∀ i ∈ s.cs.rung, (s.phoneEntry i).node ≠ 0)
    (hnode : (s.phoneEntry h).node ≠ 0) (hvoice : s.lr.voice.length + s.cs.rung.length < 4) : answerCall h s =
      placed (s.cs.entered .connected (some h) (s.cs.priority.max (s.phoneEntry h).priority))
        ((s.cs.rung.map fun i => phoneFrame i [3, 0, 0] s) ++ [phoneFrame h [4, 4, 0] s])
        (updateRelease (messaged answerMsg s)) := by
  have hset1 := (setCall_of_incoming (st := .connected) (phone := some h)
    (prio := s.cs.priority.max (s.phoneEntry h).priority) nofun hin hrung hvoice.le).trans setFlag_voiced
  have hform := formCallMsg_placed (x := s.cs.entered .connected (some h) (s.cs.priority.max (s.phoneEntry h).priority))
    (fs := s.cs.rung.map fun i => phoneFrame i [3, 0, 0] s) (m := answerMsg) hb hset hroom
  rw [answerCall, hset1]
  refine (congrArg (sendStanding h .connected .normal) hform).trans (sendStanding_placed ?_ ?_)
  · exact hnode
  · rw [updateRelease_voice, List.length_map]
    exact hvoice

end

theorem startOutgoing_placed (hb : x.backlog = []) (hset : Settled s) (hroom : s.sl.txQueue.length < 15)
    (hcall : x.call = .idle) (hnode : ((placed x fs s).phoneEntry h).node ≠ 0)
    (hvoice : s.lr.voice.length + fs.length < 4) : startOutgoing h p (placed x fs s) =
      placed (x.dialled h p s.now) (fs ++ [phoneFrame h [4, 1, 0] (placed x fs s)])
        (updateRelease (messaged (ringMsg p) s)) := by
  have hne : ∀ {c : CallState}, c ≠ .idle → (placed x fs s).cs.call ≠ c := fun hc he => hc (he.symm.trans hcall)
  rw [startOutgoing_of_room (s := placed x fs s) hb (settled_of_eq hset rfl rfl rfl) hroom (hne nofun) (hne nofun) hnode
    (by rw [placed, List.length_append]; exact hvoice), updateRelease_messaged_placed, placed_placed]
  rfl

theorem endCall_placed {cause : Cause} (hcall : s.cs.call = .outgoing ∨ s.cs.call = .connected)
    (hp : s.cs.phone = some h) (hnode : (s.phoneEntry h).node ≠ 0) (hroom : s.lr.voice.length < 4) :
    endCall cause s
      = placed (s.cs.entered .idle none s.cs.priority) [phoneFrame h ([4, 0] ++ enc1 cause.code) s] s :=
  (endCall_of_phone hcall hp hnode hroom).trans setFlag_voiced

theorem serve_of_stopped (h : s.linkRunning = false) : serve s = s := by
  rw [serve]
  split
  · exact if_neg fun hc => Bool.false_ne_true (h.symm.trans hc.2)
  · rfl

theorem serve_of_waiting {w : WaitReq} {rest : List WaitReq} (hw : s.cs.waiting = w :: rest) (hc : s.cs.call = .idle)
    (hl : s.linkRunning = true) :
    serve s = startOutgoing w.phone w.priority { s with cs := { s.cs with waiting := rest } } := by
  rw [serve, hw]
  exact if_pos ⟨hc, hl⟩

theorem linkRunning_iff : s.linkRunning = true ↔ s.sl.link = .up ∨ s.sl.link = .degraded := by
  rw [State.linkRunning, Bool.or_eq_true, beq_iff_eq, beq_iff_eq]

end

/-! ## The waiting list (R154) -/

section
variable {s : State} {h : Nat} {p : Priority} {older : List WaitReq} {w : WaitReq}

/-- R154: the waiting requests of a priority. -/
def waitersOf (p : Priority) (s : State) : List WaitReq := s.cs.waiting.filter fun w => w.priority == p

/-- R154: the waiting list with a request after the last one of its own priority. -/
def waitingWith (h : Nat) (p : Priority) (s : State) : List WaitReq :=
  if p = .emergency then waitersOf .emergency s ++ [{ phone := h, priority := p }] ++ waitersOf .service s
  else waitersOf .emergency s ++ waitersOf .service s ++ [{ phone := h, priority := p }]

theorem priority_of_waiter (hw : w ∈ waitersOf p s) : w.priority = p := by
  simpa using (List.mem_filter.1 hw).2

theorem filter_of_all {l : List WaitReq} (q : WaitReq → Bool) (h : ∀ w ∈ l, q w = true) : l.filter q = l :=
  List.filter_eq_self.2 h

theorem filter_of_none {l : List WaitReq} (q : WaitReq → Bool) (h : ∀ w ∈ l, q w = false) : l.filter q = [] :=
  List.filter_eq_nil_iff.2 fun w hw => by simp [h w hw]

theorem insertReq_of_emergency {l e v : List WaitReq} {r : WaitReq} (hr : r.priority = .emergency) (hl : l = e ++ v)
    (he : ∀ w ∈ e, w.priority = .emergency) (hv : ∀ w ∈ v, w.priority = .service) : insertReq r l = e ++ [r] ++ v := by
  have hee : e.filter (fun w => w.priority == .emergency) = e := filter_of_all _ fun w hw => by rw [he w hw]; rfl
  have hen : e.filter (fun w => w.priority != .emergency) = [] := filter_of_none _ fun w hw => by rw [he w hw]; rfl
  have hve : v.filter (fun w => w.priority == .emergency) = [] := filter_of_none _ fun w hw => by rw [hv w hw]; rfl
  have hvn : v.filter (fun w => w.priority != .emergency) = v := filter_of_all _ fun w hw => by rw [hv w hw]; rfl
  rw [hl, insertReq, hr]
  simp only [List.filter_append, hee, hen, hve, hvn, List.append_nil, List.nil_append]

theorem insertReq_of_service {l : List WaitReq} {r : WaitReq} (hr : r.priority = .service) : insertReq r l = l ++ [r] := by
  rw [insertReq, hr]

section
variable (hnode : (s.phoneEntry h).node ≠ 0)
include hnode

theorem joinWaiting_of_room (hlen : s.cs.waiting.length < 4) (hvoice : s.lr.voice.length < 4)
    (hsorted : s.cs.waiting = waitersOf .emergency s ++ waitersOf .service s) : joinWaiting h p s =
      voiced [phoneFrame h [4, 2, 0] s] { s with cs := { s.cs with waiting := waitingWith h p s } } := by
  have hlist : insertReq { phone := h, priority := p } s.cs.waiting = waitingWith h p s := by
    cases p with
    | emergency => exact insertReq_of_emergency rfl hsorted (fun _ => priority_of_waiter) fun _ => priority_of_waiter
    | service => rw [insertReq_of_service rfl, hsorted]; rfl
  refine (if_pos hlen).trans ?_
  rw [hlist]
  exact sendStanding_of_node (s := { s with cs := { s.cs with waiting := _ } }) hnode hvoice

theorem joinWaiting_of_busy (hlen : s.cs.waiting.length = 4) (hvoice : s.lr.voice.length < 4)
    (hp : p = .service ∨ waitersOf .service s = []) : joinWaiting h p s = voiced [phoneFrame h [4, 3, 0] s] s := by
  have hbusy : joinWaiting h p s = sendStanding h .busy .normal s := by
    refine (if_neg (by rw [hlen]; decide)).trans ?_
    cases p with
    | service => rfl
    | emergency =>
      cases hl : s.cs.waiting.getLast? with
      | none => rfl
      | some w =>
        have hw : w ∈ s.cs.waiting := List.mem_of_getLast? hl
        refine if_neg fun hs => ?_
        have hmem : w ∈ waitersOf .service s := List.mem_filter.2 ⟨hw, by rw [hs]; rfl⟩
        rw [hp.resolve_left nofun] at hmem
        exact absurd hmem List.not_mem_nil
  rw [hbusy, sendStanding_of_node hnode hvoice]
  rfl

theorem joinWaiting_of_displaced (hlen : s.cs.waiting.length = 4) (hvoice : s.lr.voice.length < 3)
    (hservice : waitersOf .service s = older ++ [w])
    (hsorted : s.cs.waiting = waitersOf .emergency s ++ waitersOf .service s) (hw : (s.phoneEntry w.phone).node ≠ 0) :
    joinWaiting h .emergency s = voiced [phoneFrame w.phone [4, 3, 0] s, phoneFrame h [4, 2, 0] s] { s with
      cs := { s.cs with waiting := waitersOf .emergency s ++ [{ phone := h, priority := .emergency }] ++ older } } := by
  have hlast : s.cs.waiting = (waitersOf .emergency s ++ older) ++ [w] := by
    rw [hsorted, hservice, List.append_assoc]
  have hmem : ∀ v ∈ older ++ [w], v.priority = .service := fun v hv => priority_of_waiter (by rw [hservice]; exact hv)
  have hwp : w.priority = .service := hmem w (List.mem_append_right _ List.mem_cons_self)
  have hlist : insertReq { phone := h, priority := .emergency } s.cs.waiting.dropLast
      = waitersOf .emergency s ++ [{ phone := h, priority := .emergency }] ++ older :=
    insertReq_of_emergency rfl (by rw [hlast, List.dropLast_concat]) (fun _ => priority_of_waiter) fun v hv =>
      hmem v (List.mem_append_left _ hv)
  have hget : s.cs.waiting.getLast? = some w := by
    rw [hlast, List.getLast?_concat]
  have hfull : ¬ s.cs.waiting.length < Config.waitingCap := by
    rw [hlen]
    decide
  have hbusy : sendStanding w.phone .busy .normal s = voiced [phoneFrame w.phone [4, 3, 0] s] s :=
    sendStanding_of_node hw (by omega)
  simp only [joinWaiting, if_neg hfull, hget, if_pos hwp, hlist, hbusy]
  have hsend := sendStanding_of_node (st := .waiting) (cause := .normal) (s := { voiced [phoneFrame w.phone [4, 3, 0] s] s with
    cs := { s.cs with waiting := waitersOf .emergency s ++ [{ phone := h, priority := .emergency }] ++ older } }) hnode
    (by rw [voiced, List.length_append]; exact Nat.succ_lt_succ hvoice)
  refine hsend.trans ?_
  exact voiced_voiced _ _ { s with
    cs := { s.cs with waiting := waitersOf .emergency s ++ [{ phone := h, priority := .emergency }] ++ older } }

end

end

/-! ## The frames (R150, R209) -/

section
variable {s : State} {bytes : List Byte} {f : Frame} {src : Byte} {q : List Byte} {h : Nat}

/-- R164: a well-formed frame's source is a node. -/
theorem source_ne_zero (hp : parseFrame bytes = some f) : f.source.toNat ≠ 0 := by
  rw [parseFrame] at hp
  split at hp
  · next hc =>
    cases hp
    exact hc.2.2.2.2.1
  · exact nomatch hp

theorem parseHook_of_other (h0 : q ≠ [0]) (h1 : q ≠ [1]) : parseHook q = none := by
  match q with
  | [] => rfl
  | [b] =>
    have hb0 : u8 [b] 0 ≠ 0 := fun hb => h0 (congrArg (fun x => [x]) (BitVec.eq_of_toNat_eq hb))
    have hb1 : u8 [b] 0 ≠ 1 := fun hb => h1 (congrArg (fun x => [x]) (BitVec.eq_of_toNat_eq hb))
    rw [parseHook, if_neg hb0, if_neg hb1]
    exact ite_self none
  | b :: c :: l => rfl

theorem phoneOf_of_stranger (h : ∀ i, i < 8 → (s.phoneEntry i).node ≠ src.toNat) : s.phoneOf src = none :=
  List.find?_eq_none.2 fun i hi => by simpa using h i (List.mem_range.1 hi)

theorem phoneOf_of_phone (hh : h < 8) (hn : (s.phoneEntry h).node = src.toNat)
    (ho : ∀ i, i < 8 → i ≠ h → (s.phoneEntry i).node ≠ src.toNat) : s.phoneOf src = some h := by
  cases hf : s.phoneOf src with
  | none => exact absurd hn (by simpa using List.find?_eq_none.1 hf h (List.mem_range.2 hh))
  | some i =>
    have hi := List.mem_range.1 (List.mem_of_find?_eq_some hf)
    by_cases hih : i = h
    · rw [hih]
    · exact absurd (by simpa using List.find?_some hf) (ho i hi hih)

theorem callFrame_of_stranger (h : s.phoneOf src = none) : callFrame src q s = s := by
  rw [callFrame, h]

theorem callFrame_of_other (h : parseHook q = none) : callFrame src q s = s := by
  rw [callFrame, h]
  split
  · next h => exact nomatch h
  · next h => exact nomatch h
  · rfl

theorem callFrame_of_offHook (hp : s.phoneOf src = some h) : callFrame src [0] s = offHook h s := by
  rw [callFrame, hp]
  rfl

theorem callFrame_of_onHook (hp : s.phoneOf src = some h) : callFrame src [1] s = onHook h s := by
  rw [callFrame, hp]
  rfl

theorem voiceFrame_of_stranger (h : s.phoneOf src = none) : voiceFrame src q s = s := by
  rw [voiceFrame, h]

theorem voiceFrame_of_other (hp : s.phoneOf src = some h)
    (hn : q.length ≠ 40 ∨ s.cs.call ≠ .connected ∨ s.cs.phone ≠ some h) : voiceFrame src q s = s := by
  rw [voiceFrame, hp]
  refine if_neg fun hc => ?_
  rcases hn with hn | hn | hn
  · exact hn hc.1
  · exact hn hc.2.1
  · exact hn hc.2.2

theorem voiceFrame_of_call (hp : s.phoneOf src = some h) (hq : q.length = 40) (hc : s.cs.call = .connected)
    (hph : s.cs.phone = some h) : voiceFrame src q s = { s with cs := { s.cs with
      voice := (if s.cs.voice.length < 3 then s.cs.voice else s.cs.voice.drop 1) ++ [q] } } := by
  have hlist : (if Config.voiceCap ≤ s.cs.voice.length then s.cs.voice.drop 1 else s.cs.voice)
      = if s.cs.voice.length < 3 then s.cs.voice else s.cs.voice.drop 1 := by
    by_cases hv : s.cs.voice.length < 3
    · rw [if_pos hv]
      exact if_neg (Nat.not_le.2 hv)
    · rw [if_neg hv]
      exact if_pos (Nat.not_lt.1 hv)
  rw [voiceFrame, hp]
  refine (if_pos ⟨hq, hc, hph⟩).trans ?_
  rw [hlist]

end

/-! ## OFF_HOOK and ON_HOOK (R153 to R155, R158) -/

section
variable {s : State} {h i : Nat} {p : Priority}

theorem any_waiting_iff : s.cs.waiting.any (fun w => w.phone == h) = true ↔ ∃ w ∈ s.cs.waiting, w.phone = h := by
  simp only [List.any_eq_true, beq_iff_eq]

theorem not_any_waiting (hw : ∀ w ∈ s.cs.waiting, w.phone ≠ h) :
    ¬ s.cs.waiting.any (fun w => w.phone == h) = true := fun ha => by
  obtain ⟨w, hm, he⟩ := any_waiting_iff.1 ha
  exact hw w hm he

theorem offHook_of_call (hp : s.cs.phone = some h) : offHook h s = sendStanding h s.cs.call.standing .normal s := if_pos hp

section
variable (hp : s.cs.phone ≠ some h)
include hp

theorem offHook_of_waiter (hw : ∃ w ∈ s.cs.waiting, w.phone = h) : offHook h s = sendStanding h .waiting .normal s :=
  (if_neg hp).trans (if_pos (any_waiting_iff.2 hw))

section
variable (hw : ∀ w ∈ s.cs.waiting, w.phone ≠ h)
include hw

theorem offHook_of_idle (hc : s.cs.call = .idle) (hl : s.linkRunning = true) :
    offHook h s = startOutgoing h (s.phoneEntry h).priority s := by
  refine (if_neg hp).trans ((if_neg (not_any_waiting hw)).trans ?_)
  rw [hc]
  exact if_pos hl

theorem offHook_of_incoming (hc : s.cs.call = .incoming) : offHook h s = answerCall h s := by
  refine (if_neg hp).trans ((if_neg (not_any_waiting hw)).trans ?_)
  rw [hc]

theorem offHook_of_preempt (hc : s.cs.call = .outgoing ∨ s.cs.call = .connected)
    (he : (s.phoneEntry h).priority = .emergency) (hs : s.cs.priority = .service) : offHook h s = preempt h s := by
  refine (if_neg hp).trans ((if_neg (not_any_waiting hw)).trans ?_)
  rcases hc with hc | hc
  · rw [hc]
    exact if_pos ⟨he, hs⟩
  · rw [hc]
    exact if_pos ⟨he, hs⟩

theorem offHook_of_waits (hc : (s.cs.call = .idle ∧ ¬ s.linkRunning = true)
    ∨ ((s.cs.call = .outgoing ∨ s.cs.call = .connected)
      ∧ ¬ ((s.phoneEntry h).priority = .emergency ∧ s.cs.priority = .service))) :
    offHook h s = joinWaiting h (s.phoneEntry h).priority s := by
  refine (if_neg hp).trans ((if_neg (not_any_waiting hw)).trans ?_)
  rcases hc with ⟨hc, hl⟩ | ⟨hc | hc, hn⟩
  · rw [hc]
    exact if_neg hl
  · rw [hc]
    exact if_neg hn
  · rw [hc]
    exact if_neg hn

theorem onHook_of_stranger : onHook h s = s :=
  (if_neg fun hc => hp hc.1).trans (if_neg (not_any_waiting hw))

end

theorem onHook_of_waiter (hw : ∃ w ∈ s.cs.waiting, w.phone = h) : onHook h s = sendStanding h .idle .normal
    { s with cs := { s.cs with waiting := s.cs.waiting.filter fun w => w.phone ≠ h } } := by
  have hfilter : (s.cs.waiting.filter fun w => w.phone != h) = s.cs.waiting.filter fun w => w.phone ≠ h :=
    filter_bne WaitReq.phone h s.cs.waiting
  refine (if_neg fun hc => hp hc.1).trans ((if_pos (any_waiting_iff.2 hw)).trans ?_)
  rw [hfilter]

end

theorem onHook_of_call (hp : s.cs.phone = some h) (hc : s.cs.call = .outgoing ∨ s.cs.call = .connected) :
    onHook h s = serve (endCall .normal (signalClear .normal s)) := if_pos ⟨hp, hc⟩

/-- R152, R158: the summit is told of the clear, and the call's phone. -/
theorem cleared_of_room {cause : Cause} (hb : s.cs.backlog = []) (hset : Settled s) (hroom : s.sl.txQueue.length < 15)
    (hcall : s.cs.call = .outgoing ∨ s.cs.call = .connected) (hp : s.cs.phone = some i)
    (hnode : (s.phoneEntry i).node ≠ 0) (hvoice : s.lr.voice.length < 4) : endCall cause (signalClear cause s) =
      placed (s.cs.entered .idle none s.cs.priority) [phoneFrame i ([4, 0] ++ enc1 cause.code) s]
        (updateRelease (messaged (clearMsg cause) s)) := by
  obtain ⟨r, hr⟩ : ∃ r, r = updateRelease (messaged (clearMsg cause) s) := ⟨_, rfl⟩
  have hcs : r.cs = s.cs := hr ▸ updateRelease_cs _
  have hv : r.lr.voice = s.lr.voice := hr ▸ updateRelease_voice _
  have hentry : r.phoneEntry i = s.phoneEntry i := by rw [State.phoneEntry, hcs, State.phoneEntry]
  rw [signalClear_of_seen hb hset hroom, ← hr, endCall_placed (by rw [hcs]; exact hcall) (by rw [hcs]; exact hp)
    (by rw [hentry]; exact hnode) (by rw [hv]; exact hvoice), hcs, phoneFrame, hentry, phoneFrame]

/-- R152, R158: a CALL_RING that the summit has not seen is withdrawn. -/
theorem withdrawn_of_unseen {cause : Cause} {b : List Byte} (hb : s.cs.backlog = [{ type := 3, payload := b }])
    (hcall : s.cs.call = .outgoing) (hp : s.cs.phone = some i) (hnode : (s.phoneEntry i).node ≠ 0)
    (hvoice : s.lr.voice.length < 4) : endCall cause (signalClear cause s) =
      placed ({ s.cs with backlog := [] }.entered .idle none s.cs.priority)
        [phoneFrame i ([4, 0] ++ enc1 cause.code) s] s := by
  have hclear : signalClear cause s = { s with cs := { s.cs with backlog := [] } } :=
    signalClear_of_unseen (by rw [hcall]; decide) hb
  have hend := endCall_placed (cause := cause) (s := { s with cs := { s.cs with backlog := [] } }) (.inl hcall) hp hnode
    hvoice
  rw [hclear, hend]
  rfl

theorem linkRunning_messaged (m : Message) (s : State) :
    (updateRelease (messaged m s)).linkRunning = s.linkRunning := by
  rw [State.linkRunning, updateRelease_sl]
  rfl

theorem serve_placed_of_stopped {x : CallSwitch} {fs : List QFrame} (h : x.waiting = [] ∨ ¬ s.linkRunning = true) :
    serve (placed x fs s) = placed x fs s := by
  rcases h with h | h
  · exact serve_of_none h
  · exact serve_of_stopped (Bool.eq_false_iff.2 h)

theorem serve_placed_of_waiting {x : CallSwitch} {fs : List QFrame} {w : WaitReq} {rest : List WaitReq}
    (hw : x.waiting = w :: rest) (hc : x.call = .idle) (hl : s.linkRunning = true) (hb : x.backlog = [])
    (hset : Settled s) (hroom : s.sl.txQueue.length < 15) (hnode : ((placed x fs s).phoneEntry w.phone).node ≠ 0)
    (hvoice : s.lr.voice.length + fs.length < 4) : serve (placed x fs s) =
      placed ({ x with waiting := rest }.dialled w.phone w.priority s.now)
        (fs ++ [phoneFrame w.phone [4, 1, 0] (placed { x with waiting := rest } fs s)])
        (updateRelease (messaged (ringMsg w.priority) s)) := by
  have hfirst : serve (placed x fs s) = startOutgoing w.phone w.priority (placed { x with waiting := rest } fs s) :=
    serve_of_waiting (s := placed x fs s) hw hc hl
  rw [hfirst]
  exact startOutgoing_placed (x := { x with waiting := rest }) hb hset hroom hc hnode hvoice

theorem preempt_of_room (hb : s.cs.backlog = []) (hset : Settled s) (hroom : s.sl.txQueue.length < 14)
    (hcall : s.cs.call = .outgoing ∨ s.cs.call = .connected) (hp : s.cs.phone = some i)
    (hnode : (s.phoneEntry i).node ≠ 0) (hnodeh : (s.phoneEntry h).node ≠ 0) (hvoice : s.lr.voice.length < 3) :
    preempt h s = placed ((s.cs.entered .idle none s.cs.priority).dialled h .emergency s.now)
      [phoneFrame i [4, 0, 1] s, phoneFrame h [4, 1, 0] s]
      (updateRelease (messaged (ringMsg .emergency) (updateRelease (messaged (clearMsg .preempt) s)))) := by
  have hset' := (settled_messaged (m := clearMsg .preempt) hset (by omega)).after (updateRelease_lineOnly _)
  have hqueue : (updateRelease (messaged (clearMsg .preempt) s)).sl.txQueue.length < 15 := by
    rw [updateRelease_sl, messaged, List.length_append, List.length_singleton]
    omega
  have hnow : (updateRelease (messaged (clearMsg .preempt) s)).now = s.now :=
    (updateRelease_lineOnly _).others .now (by decide)
  rw [preempt, cleared_of_room hb hset (by omega) hcall hp hnode (by omega),
    startOutgoing_placed (x := s.cs.entered .idle none s.cs.priority) (h := h) hb hset' hqueue rfl hnodeh
      (by rw [updateRelease_voice]; exact Nat.succ_lt_succ hvoice), hnow]
  rfl

end

end Sys2Proof.Machine
end

section
/-! DOOR_STAT, CALL and VOICE frames (R95 to R112, R150 to R161). -/

namespace Sys2Proof.Machine

open Sys2Proof.Safety

/-- Settles O34. -/
theorem doorAndPhoneFramesJudged : Obligations.DoorAndPhoneFramesJudged := by
  intro bytes f s hpin hparse hsource hdest runs
  have hruns : ∀ {t}, consume f s = t → runs t := fun h => by
    refine (event_of_released (s := s) hpin _).trans (congrArg Host.Outcome.next ?_)
    rw [frameReceived, hparse]
    exact (if_neg hsource).trans ((if_pos hdest).trans h)
  refine ⟨fun hk => ?_, fun hk hstranger => ?_, fun h hh hnode hother => ⟨fun hk => ?_, fun hk => ?_⟩⟩
  · have hdoor : ∀ {t}, doorStatus f.source f.payload s = t → runs t := fun h =>
      hruns ((if_neg (by rw [hk]; decide)).trans ((if_pos hk).trans h))
    refine ⟨fun hn => hdoor (doorStatus_of_stranger hn), fun hbad => hdoor (doorStatus_of_bad (parseDoorStat_of_bad hbad)),
      ?_⟩
    intro j st g hj hn hu hp hwait e d moving count first inMotion heard moves opening gathered capOf warned told broken
      faults
    have hj' := le_of_isBerth hj
    have hmoving : ∀ y, moving y = y.moving := fun y => by cases y <;> rfl
    have hcount : count = d.repeats st g := by
      cases hl : d.lastStatus with
      | none => simp only [count, Door.repeats, hl]
      | some p => simp only [count, Door.repeats, hl, hmoving, Bool.and_eq_true, beq_iff_eq, and_assoc]
    have htake : ∀ {t}, takeStatus j st g s = t → runs t := fun h =>
      hdoor ((doorStatus_of_berth (hp ▸ parseDoorStat_of_status st g) hj hn hu).trans h)
    have hheard : ∀ x t, heard x t = setDoor j (d.heard st g x) t := fun x t => by
      rw [Door.heard, ← hcount]
    have hdone : ∀ m t, (if d.deskMark = some m then setFlag .doorDone t else t) = doneFor m d t := fun m t =>
      doneFor_eq m d t
    have hfaults : ∀ {x : Door}, Settled s → takeStatus j st g s = faultBrought j s.closingSet (x.shown st g).faulted s →
        faults x := fun hset h =>
      ⟨_, htake h, raise_raised _ (settled_of_eq hset rfl rfl rfl)⟩
    clear_value heard count
    refine ⟨fun hfault => ?_, fun h3 => ⟨fun hf => ⟨fun hst => ?_, fun hst hc hi => ?_, fun cap hst hc hcap => ?_,
      fun hst => ?_, fun hst => ?_, fun hst hroom => ?_⟩, fun hagree => ?_, fun href => ?_, fun hmo hst => ?_,
      fun hcl hst => ?_, fun hcl hst hre hroom => ?_⟩, fun hset hnf hg => ⟨fun hbad => ?_, fun hcl hst hre => ?_,
      fun h3 hmo => ?_⟩⟩
    · exact htake (takeStatus_of_fault hj hfault)
    · exact htake ((takeStatus_first_locked hj (hcount ▸ h3) hf hst).trans (hheard _ _).symm)
    · exact htake ((takeStatus_first_open hj (hcount ▸ h3) hf hst hc hi).trans (hheard _ _).symm)
    · exact htake ((takeStatus_first_vacant hj (hcount ▸ h3) hf hst hc hcap).trans (hheard _ _).symm)
    · exact htake ((takeStatus_first_opening hj (hcount ▸ h3) hf hst).trans (hheard _ _).symm)
    · exact htake ((takeStatus_first_closing hj (hcount ▸ h3) hf hst).trans (by rw [hheard]))
    · exact htake ((takeStatus_first_obstructed hj (hcount ▸ h3) hf hst hwait hroom).trans (hheard _ _).symm)
    · exact htake ((takeStatus_agrees hj (hcount ▸ h3) hagree).trans (hheard _ _).symm)
    · exact htake ((takeStatus_reflected hj (hcount ▸ h3) href).trans (hheard _ _).symm)
    · intro x done dwell
      have hdwell : dwell = e.dwellOf d.dwellKind := by
        cases hk : d.dwellKind <;> simp only [dwell, hk, BerthEntry.dwellOf]
      have hends : ∀ {y t}, takeStatus j st g s = doneFor .open d (setDoor j (d.heard st g y) t) → done (heard y t) :=
        fun {y t} h => htake (h.trans (by rw [hheard, hdone]))
      refine ⟨fun cap hh hcap => ?_, fun hh hold => ?_, fun hh hold => ?_⟩
      · exact hends (takeStatus_opened_pending hj (hcount ▸ h3) hwait hmo hst hh hcap)
      · rw [hdwell]
        exact hends (takeStatus_opened_held hj (hcount ▸ h3) hwait hmo hst hh hold)
      · rw [hdwell]
        exact hends (takeStatus_opened_free hj (hcount ▸ h3) hwait hmo hst hh hold)
    · intro x y served
      have hy : y = doneFor .closed d (setDoor j (d.heard st g d.shut) s) := by
        rw [← hheard, ← hdone]
        rfl
      refine ⟨fun hq => ?_, fun hv hset hq => ?_⟩
      · exact htake ((takeStatus_shut_quiet hj (hcount ▸ h3) hwait hcl hst hq).trans (by rw [hy]))
      · exact htake ((takeStatus_shut_news hj (hcount ▸ h3) hwait hcl hst hv hset hq).trans (by rw [hy]; rfl))
    · intro y
      have hy : y = setDoor j (d.heard st g (d.reopens s.now e.motionLimit))
          { s with lr := { s.lr with door := s.lr.door ++ [commandFrame e.doorNode .open] } } := hheard _ _
      refine ⟨fun hq => ?_, fun hc hset hq => ?_⟩
      · exact htake ((takeStatus_reopened_quiet hj (hcount ▸ h3) hwait hcl hst hre hroom hq).trans (by rw [hy]))
      · exact htake ((takeStatus_reopened_news hj (hcount ▸ h3) hwait hcl hst hre hroom hc hset hq).trans
          (by rw [hy]; rfl))
    · exact hfaults hset (takeStatus_contradicted hj hwait hg hset hnf hbad)
    · exact hfaults hset (takeStatus_spent hj hwait hg hset hcl hst hre)
    · have hrep := takeStatus_repeated (st := st) (g := g) hj hwait hg (hcount ▸ h3) hmo
      rw [← hcount] at hrep
      exact hfaults hset hrep
  · have hnone := phoneOf_of_stranger hstranger
    rcases hk with hk | hk
    · exact hruns ((if_neg (by rw [hk]; decide)).trans ((if_neg (by rw [hk]; decide)).trans ((if_pos hk).trans
        (callFrame_of_stranger hnone))))
    · exact hruns ((if_neg (by rw [hk]; decide)).trans ((if_neg (by rw [hk]; decide)).trans
        ((if_neg (by rw [hk]; decide)).trans ((if_pos hk).trans (voiceFrame_of_stranger hnone)))))
  · have hvoice : ∀ {t}, voiceFrame f.source f.payload s = t → runs t := fun h =>
      hruns ((if_neg (by rw [hk]; decide)).trans ((if_neg (by rw [hk]; decide)).trans
        ((if_neg (by rw [hk]; decide)).trans ((if_pos hk).trans h))))
    have hphone := phoneOf_of_phone hh hnode hother
    exact ⟨fun hl hc hp => hvoice (voiceFrame_of_call hphone hl hc hp), fun hn => hvoice (voiceFrame_of_other hphone hn)⟩
  · have hcall : ∀ {t}, callFrame f.source f.payload s = t → runs t := fun h =>
      hruns ((if_neg (by rw [hk]; decide)).trans ((if_neg (by rw [hk]; decide)).trans ((if_pos hk).trans h)))
    have hphone := phoneOf_of_phone hh hnode hother
    have hnz : (s.phoneEntry h).node ≠ 0 := hnode ▸ source_ne_zero hparse
    intro p running tells offer called outgoing calling waits emergency service sorted
    have hrun : running ↔ s.linkRunning = true := linkRunning_iff.symm
    have htold : ∀ {cs l R}, R.lr.voice = s.lr.voice →
        tells l (called cs R) = placed cs (l.map fun x => phoneFrame x.1 x.2 s) R := fun {cs l R} hv => by
      simp only [tells, called, setFlag_eq, placed, hv, phoneFrame]
    have hoffer : ∀ type bytes t, offer type bytes t = updateRelease (messaged { type := type, payload := bytes } t) :=
      fun _ _ _ => rfl
    have hov : ∀ type bytes t, (offer type bytes t).lr.voice = t.lr.voice := fun type bytes t =>
      updateRelease_voice (messaged { type := type, payload := bytes } t)
    clear_value offer
    refine ⟨fun h0 h1 => hcall (callFrame_of_other (parseHook_of_other h0 h1)), fun hq hv => ?_, fun hq hv => ?_⟩
    · have hoff : ∀ {t}, offHook h s = t → runs t := fun ht =>
        hcall ((congrArg (fun q => callFrame f.source q s) hq).trans ((callFrame_of_offHook hphone).trans ht))
      have hjoin : waits → offHook h s = joinWaiting h p s := fun hw =>
        offHook_of_waits hw.1 hw.2.1 (hw.2.2.imp_left (And.imp_right (mt hrun.2)))
      refine ⟨fun hp hc => ?_, fun hp hc => ?_, fun hp hw => ?_, fun hw hl hs => ?_, fun hw hl hp hs => ?_,
        fun older w hw hl hp hsv hs hn => ?_, fun hset hb hroom hp hw => ⟨fun hc hl => ?_, fun hc hlen hrung => ?_,
        fun i hc hpi hn he hs => ?_⟩⟩
      · exact hoff ((offHook_of_call hp).trans (by rw [hc]; exact sendStanding_of_node hnz (by omega)))
      · exact hoff ((offHook_of_call hp).trans (by rw [hc]; exact sendStanding_of_node hnz (by omega)))
      · exact hoff ((offHook_of_waiter hp hw).trans (sendStanding_of_node hnz (by omega)))
      · exact hoff ((hjoin hw).trans (joinWaiting_of_room hnz hl (by omega) hs))
      · exact hoff ((hjoin hw).trans (joinWaiting_of_busy hnz hl (by omega) hp))
      · refine hoff ((hjoin hw).trans ?_)
        rw [hp]
        exact joinWaiting_of_displaced hnz hl hv hsv hs hn
      · refine hoff ((offHook_of_idle hp hw hc (hrun.1 hl)).trans ((startOutgoing_of_room hb hset (by omega)
          (by rw [hc]; decide) (by rw [hc]; decide) hnz (by omega)).trans ?_))
        rw [htold (hov _ _ _), hoffer]
        rfl
      · have hprio : s.cs.priority.max p = if s.cs.priority = .emergency then .emergency else p := by
          rw [Priority.max]
          split
          · next h => rw [h]
          · rfl
        refine hoff ((offHook_of_incoming hp hw hc).trans ((answerCall_of_room hb hset (by omega) hc hrung hnz hlen).trans
          ?_))
        rw [htold (hov _ _ _), hoffer, CallSwitch.entered, hprio, hc, List.map_append, List.map_map]
        rfl
      · refine hoff ((offHook_of_preempt hp hw hc he hs).trans
          ((preempt_of_room hb hset hroom hc hpi hn hnz hv).trans ?_))
        rw [he]
        rw [htold ((hov _ _ _).trans (hov _ _ _)), hoffer, hoffer]
        rfl
    · have hon : ∀ {t}, onHook h s = t → runs t := fun ht =>
        hcall ((congrArg (fun q => callFrame f.source q s) hq).trans ((callFrame_of_onHook hphone).trans ht))
      refine ⟨fun hp hw => hon (onHook_of_stranger hp hw), fun hp hw => ?_, fun hset hroom hp hc => ?_⟩
      · exact hon ((onHook_of_waiter hp hw).trans (sendStanding_of_node (s := { s with cs := { s.cs with
          waiting := s.cs.waiting.filter fun w => w.phone ≠ h } }) hnz (Nat.lt_succ_of_lt hv)))
      intro idle
      have hend := onHook_of_call hp hc
      refine ⟨fun hstop => ⟨fun hb => ?_, fun b hc' hb => ?_⟩, fun w rest hw hn hl hb => ?_⟩
      · have hclear := cleared_of_room (cause := .normal) hb hset (by omega) hc hp hnz (by omega)
        have hserve := serve_placed_of_stopped (s := updateRelease (messaged (clearMsg .normal) s))
          (x := s.cs.entered .idle none s.cs.priority) (fs := [phoneFrame h ([4, 0] ++ enc1 Cause.normal.code) s])
          (hstop.imp_right fun hn => by rw [linkRunning_messaged]; exact mt hrun.2 hn)
        refine hon (hend.trans ((congrArg serve hclear).trans (hserve.trans ?_)))
        rw [htold (hov _ _ _), hoffer]
        simp only [CallSwitch.entered, hb, idle]
        rfl
      · have hclear := withdrawn_of_unseen (cause := .normal) hb hc' hp hnz (by omega)
        have hserve := serve_placed_of_stopped (s := s)
          (x := { s.cs with backlog := [] }.entered .idle none s.cs.priority)
          (fs := [phoneFrame h ([4, 0] ++ enc1 Cause.normal.code) s]) (hstop.imp_right (mt hrun.2))
        refine hon (hend.trans ((congrArg serve hclear).trans (hserve.trans ?_)))
        rw [htold rfl]
        rfl
      · have hclear := cleared_of_room (cause := .normal) hb hset (by omega) hc hp hnz (by omega)
        have hset' := (settled_messaged (m := clearMsg .normal) hset (by omega)).after (updateRelease_lineOnly _)
        have hserve := serve_placed_of_waiting (s := updateRelease (messaged (clearMsg .normal) s))
          (x := s.cs.entered .idle none s.cs.priority) (fs := [phoneFrame h ([4, 0] ++ enc1 Cause.normal.code) s])
          hw rfl (by rw [linkRunning_messaged]; exact hrun.1 hl) hb hset' ?_ hn ?_
        · refine hon (hend.trans ((congrArg serve hclear).trans (hserve.trans ?_)))
          rw [htold ((hov _ _ _).trans (hov _ _ _)), hoffer, hoffer,
            (updateRelease_lineOnly (messaged (clearMsg .normal) s)).others .now (by decide)]
          rfl
        · rw [updateRelease_sl, messaged, List.length_append]
          exact Nat.succ_lt_succ hroom
        · rw [updateRelease_voice]
          exact Nat.succ_lt_succ hv

end Sys2Proof.Machine
end

section
/-! SUPPORT. The end of a summit burst (R120, R126 to R128, R138, R141 to R143). -/

namespace Sys2Proof.Machine

open Sys2Proof.Safety

/-! ## The judgement (R120) -/

section
variable {s t : State} {b : SummitBurst} {chars : List Byte} {framing : Bool} {m : Message} {q : Byte}

theorem judgeBurst_of_good (hf : framing = false) (hp : parseSummitBurst s.straps.rate chars = some b)
    (ht : b.turn = s.sl.turnNumber) : judgeBurst chars framing s = some b := by
  rw [judgeBurst, hf, hp]
  exact if_pos ht

theorem judgeBurst_of_bad (h : framing = true ∨ parseSummitBurst s.straps.rate chars = none
    ∨ (∃ b, parseSummitBurst s.straps.rate chars = some b ∧ b.turn ≠ s.sl.turnNumber)) :
    judgeBurst chars framing s = none := by
  rw [judgeBurst]
  by_cases hf : framing = true
  · exact if_pos hf
  · rcases h with h | h | ⟨b, h, hn⟩
    · exact absurd h hf
    · rw [if_neg hf, h]
    · rw [if_neg hf, h]
      exact if_neg hn

section
variable (hpin : s.resetHeld = false) (hturn : s.sl.turn = .receiving chars framing)
include hpin hturn

theorem exec_goodBurst (h : judgeBurst chars framing s = some b) : exec .summitBurstEnd s = .next (handOn b s) := by
  refine (event_of_released hpin burstEnd).trans (congrArg Host.Outcome.next ?_)
  rw [burstEnd, hturn]
  simp only [h]

theorem exec_badBurst (h : judgeBurst chars framing s = none) :
    exec .summitBurstEnd s = .next (missedTurn s.nextTurn s) := by
  refine (event_of_released hpin burstEnd).trans (congrArg Host.Outcome.next ?_)
  rw [burstEnd, hturn]
  simp only [h]

end

/-! ## The safety word and the confirmation (R126 to R128, R138) -/

/-- R122, R126: a good turn, its safety word kept. -/
def goodBurst (b : SummitBurst) (s : State) : State :=
  { s with sl := { s.sl with missed := 0, turn := .none, summitWord := some b.word } }

theorem summitDemand_of_held {d : Demand} (h : s.sl.summitHeld = some d) : summitDemand d s = s := by
  have hsame : ({ s with sl := { s.sl with summitHeld := some d } } : State) = s := by
    rw [← h]
  rw [summitDemand, h, hsame]
  exact if_pos rfl

theorem summitDemand_of_worse {d : Demand} (h : s.sl.summitHeld = none ∨ ∃ x, s.sl.summitHeld = some x ∧ x.code < d.code) :
    summitDemand d s = raise (demandFault d) { s with sl := { s.sl with summitHeld := some d } } := by
  rw [summitDemand]
  rcases h with h | ⟨x, h, hlt⟩
  · rw [h]
  · rw [h]
    refine (if_neg fun he => ?_).trans (if_pos hlt)
    rw [he] at hlt
    exact absurd hlt (lt_irrefl _)

theorem handOn_of_held (hl : s.sl.link = .up) (hh : s.sl.summitHeld = some b.word.demand) (hv : b.voice = none) :
    handOn b s = takeMessages b.msgs (confirm b.next b.hold (goodBurst b s)) := by
  have hgood : goodTurn s = { s with sl := { s.sl with missed := 0, turn := .none } } :=
    if_neg (by rw [hl]; decide)
  rw [handOn, hgood, hv]
  exact congrArg (fun t => takeMessages b.msgs (confirm b.next b.hold t)) (summitDemand_of_held (s := goodBurst b s) hh)

theorem handOn_of_voice {v : List Byte} (hl : s.sl.link = .up) (hh : s.sl.summitHeld = some b.word.demand)
    (hv : b.voice = some v) :
    handOn b s = summitVoice v (takeMessages b.msgs (confirm b.next b.hold (goodBurst b s))) := by
  have hgood : goodTurn s = { s with sl := { s.sl with missed := 0, turn := .none } } :=
    if_neg (by rw [hl]; decide)
  rw [handOn, hgood, hv]
  exact congrArg (fun t => summitVoice v (takeMessages b.msgs (confirm b.next b.hold t)))
    (summitDemand_of_held (s := goodBurst b s) hh)

theorem handOn_of_worse (hl : s.sl.link = .up) (hv : b.voice = none)
    (hd : s.sl.summitHeld = none ∨ ∃ x, s.sl.summitHeld = some x ∧ x.code < b.word.demand.code) :
    handOn b s = takeMessages b.msgs (confirm b.next b.hold (raise (demandFault b.word.demand)
      { goodBurst b s with sl := { (goodBurst b s).sl with summitHeld := some b.word.demand } })) := by
  have hgood : goodTurn s = { s with sl := { s.sl with missed := 0, turn := .none } } :=
    if_neg (by rw [hl]; decide)
  rw [handOn, hgood, hv]
  exact congrArg (fun t => takeMessages b.msgs (confirm b.next b.hold t)) (summitDemand_of_worse (s := goodBurst b s) hd)

theorem confirm_of_none {hold : Bool} (h : confirmedBy q s.sl.txQueue = 0) :
    confirm q hold s = { s with sl := { s.sl with summitHold := hold } } := by
  rw [confirm, h]
  rfl

theorem confirmedBy_of_outside (h : ∀ e es, s.sl.txQueue = e :: es → (q - e.seq).toNat = 0
    ∨ s.sl.txQueue.length < (q - e.seq).toNat) : confirmedBy q s.sl.txQueue = 0 := by
  cases hq : s.sl.txQueue with
  | nil => rfl
  | cons e es =>
    rw [confirmedBy]
    rcases h e es hq with h | h
    · rw [h]
      exact ite_self 0
    · rw [hq] at h
      exact if_neg (Nat.not_le.2 h)

/-- R138, R152: a confirmation that removes entries, with no call message waiting. -/
theorem confirm_of_some {hold : Bool} {e : TxEntry} {es : List TxEntry} (hq : s.sl.txQueue = e :: es)
    (h1 : 1 ≤ (q - e.seq).toNat) (hle : (q - e.seq).toNat ≤ s.sl.txQueue.length) (hset : Settled s)
    (hb : s.cs.backlog = []) : confirm q hold s =
      let v := updateRelease { s with sl := { s.sl with txQueue := s.sl.txQueue.drop (q - e.seq).toNat } }
      { v with sl := { v.sl with summitHold := hold } } := by
  obtain ⟨t, ht⟩ : ∃ t, t = setTx (s.sl.txQueue.drop (q - e.seq).toNat) s := ⟨_, rfl⟩
  have hset' : Settled t := by
    refine ht ▸ ⟨hset.deferred, hset.waiting, hset.launched, ?_⟩
    exact lt_of_le_of_lt (by rw [setTx, List.length_drop]; exact Nat.sub_le _ _) hset.room
  have hcount : confirmedBy q s.sl.txQueue = (q - e.seq).toNat := by
    rw [hq] at hle ⊢
    exact if_pos hle
  have hbacklog : (updateRelease t).cs.backlog = [] := by
    rw [updateRelease_cs, ht]
    exact hb
  have hreport : reportRemoval t = updateRelease t := by
    rw [reportRemoval, evalRelease_settled hset', csDrain, hbacklog]
    rfl
  have hsome : (if confirmedBy q s.sl.txQueue = 0 then s
      else reportRemoval (setTx (s.sl.txQueue.drop (confirmedBy q s.sl.txQueue)) s)) = updateRelease t := by
    rw [hcount, ← ht, hreport]
    exact if_neg (by omega)
  refine (congrArg (fun v : State => { v with sl := { v.sl with summitHold := hold } }) hsome).trans ?_
  rw [ht]
  rfl

/-! ## Messages (R141) -/

theorem takeMessages_of_done (h : processMessage m s = (true, t)) (hq : q = s.sl.nextExpected) :
    takeMessages [(m, q)] s = { t with sl := { t.sl with nextExpected := t.sl.nextExpected + 1 } } := by
  rw [takeMessages, h, hq, BitVec.sub_self]
  rfl

theorem takeMessages_of_refused (h : processMessage m s = (false, t)) (hq : q = s.sl.nextExpected) :
    takeMessages [(m, q)] s = t := by
  rw [takeMessages, h, hq, BitVec.sub_self]
  rfl

theorem takeMessages_of_ahead (h1 : 1 ≤ (q - s.sl.nextExpected).toNat) (h2 : (q - s.sl.nextExpected).toNat ≤ 127) :
    takeMessages [(m, q)] s = setFlag .gap s := by
  rw [takeMessages]
  exact (if_neg (Nat.one_le_iff_ne_zero.1 h1)).trans (if_pos h2)

end

end Sys2Proof.Machine
end

section
/-! SUPPORT. The summit's messages to CT (R142, R145, R146). -/

namespace Sys2Proof.Machine

open Sys2Proof.Safety

section
variable {x : Nat} {s : State} {p : List Byte}

/-! ## The messages by type (R142) -/

theorem noticeId_enc2 (h1 : 1 ≤ x) (h2 : x ≤ 999) : noticeId (enc2 x) = some x := by
  have hx : u16 (enc2 x) 0 = x := u16_ofNat_of_lt (by omega) []
  rw [noticeId, hx]
  exact if_pos ⟨rfl, h1, h2⟩

theorem processMessage_arrived (h1 : 1 ≤ x) (h2 : x ≤ 999) :
    processMessage { type := 0x02, payload := enc2 x } s = (true, cabinArrived x s) := by
  refine (show processMessage { type := 0x02, payload := enc2 x } s = (true, receiveArrived (enc2 x) s) from rfl).trans ?_
  rw [receiveArrived, noticeId_enc2 h1 h2]

theorem processMessage_refused (h1 : 1 ≤ x) (h2 : x ≤ 999) (h : downhillRefuses x s = true) :
    processMessage { type := 0x01, payload := enc2 x } s = (false, raise (eventFault (.cabin x) .downhillFull) s) := by
  refine (show processMessage { type := 0x01, payload := enc2 x } s = receiveLaunched (enc2 x) s from rfl).trans ?_
  rw [receiveLaunched, noticeId_enc2 h1 h2]
  exact if_pos h

theorem processMessage_launched (h1 : 1 ≤ x) (h2 : x ≤ 999) (h : downhillRefuses x s = false) :
    processMessage { type := 0x01, payload := enc2 x } s = (true, cabinLaunched x s) := by
  refine (show processMessage { type := 0x01, payload := enc2 x } s = receiveLaunched (enc2 x) s from rfl).trans ?_
  rw [receiveLaunched, noticeId_enc2 h1 h2]
  exact if_neg (by rw [h]; exact Bool.false_ne_true)

/-! ## CABIN_ARRIVED (R145) -/

theorem cabinArrived_of_unlisted (h : ∀ e ∈ s.ct.uphill, e.id ≠ x) :
    cabinArrived x s = raise (eventFault (.cabin x) .unknownArrival) s := by
  rw [cabinArrived, List.find?_eq_none.2 fun e he => by simpa using h e he]

/-- R145: the arrived cabin has left the uphill list for SUMMIT. -/
def arrivedFrom (x : Nat) (before after : List UpEntry) (s : State) : State :=
  setLocation x .summit { s with ct := { s.ct with uphill := before ++ after } }

/-- R145: ORDER for a cabin that is not the oldest. -/
def arrivalJudged (x : Nat) (before : List UpEntry) (s : State) : State :=
  if before = [] then s else arrivalOrder x s

/-- R145: ARRIVAL_POSITION for a cabin outside its window. -/
def arrivalPlaced (x d : Nat) (s : State) : State :=
  if outsideWindow s.params.uphillSpan s.params.tolerance d then raise (eventFault (.cabin x) .arrivalPosition) s else s

theorem arrivalJudged_lineOnly {before : List UpEntry} (h : Settled s) : LineOnly s (arrivalJudged x before s) := by
  rw [arrivalJudged]
  split
  · exact .refl s
  · exact (setFlag_lineOnly _ s).trans (raise_lineOnly _ (h.after (setFlag_lineOnly _ s)))

theorem arrivalPlaced_lineOnly {d : Nat} (h : Settled s) : LineOnly s (arrivalPlaced x d s) := by
  rw [arrivalPlaced]
  split
  · exact raise_lineOnly _ h
  · exact .refl s

theorem cabinArrived_of_found {before after : List UpEntry} {e : UpEntry} (hl : s.ct.uphill = before ++ e :: after)
    (he : e.id = x) (hb : ∀ y ∈ before, y.id ≠ x) (hset : Settled s) : cabinArrived x s =
      updateRelease (arrivalPlaced x (s.forwardDist e.pos) (arrivalJudged x before (arrivedFrom x before after s))) := by
  have hbf : ∀ y ∈ before, (y.id == x) = false := fun y hy => by simpa using hb y hy
  have hfind : s.ct.uphill.find? (fun e => e.id == x) = some e := by
    rw [hl]
    exact find?_of_split hbf (by simpa using he)
  have hmove : arriveMove x s = arrivedFrom x before after s := by
    rw [arriveMove, hl, eraseP_of_split hbf (by simpa using he)]
    rfl
  have hhead : s.ct.uphill.head?.map (·.id) = some x ↔ before = [] := by
    rw [hl]
    cases before with
    | nil => simp [he]
    | cons y ys => simp [hb y List.mem_cons_self]
  have hset' : Settled (arrivedFrom x before after s) := ⟨hset.deferred, hset.waiting, hset.launched, hset.room⟩
  have horder : (if s.ct.uphill.head?.map (·.id) = some x then arrivedFrom x before after s
      else arrivalOrder x (arrivedFrom x before after s)) = arrivalJudged x before (arrivedFrom x before after s) :=
    if_congr hhead rfl rfl
  have hline := arrivalJudged_lineOnly (x := x) (before := before) hset'
  have hset'' := hset'.after hline
  rw [← evalRelease_settled (hset''.after (arrivalPlaced_lineOnly hset'')), cabinArrived, hfind, hmove]
  dsimp only
  have hparams : (arrivalJudged x before (arrivedFrom x before after s)).params = s.params := hline.params
  rw [horder, arrivalPlaced, hparams]

/-! ## CABIN_LAUNCHED (R146) -/

theorem downhillRefuses_of_room (h : (∃ e ∈ s.ct.downhill, e.id = x) ∨ s.ct.downhill.length < 64) :
    downhillRefuses x s = false := by
  rw [downhillRefuses]
  rcases h with ⟨e, he, hx⟩ | h
  · have hany : s.ct.downhill.any (fun e => e.id == x) = true := List.any_eq_true.2 ⟨e, he, by simpa using hx⟩
    rw [hany, Bool.not_true, Bool.and_false, Bool.false_and]
  · have hd : decide (Config.listCap ≤ s.ct.downhill.length) = false := decide_eq_false (Nat.not_le.2 h)
    rw [hd, Bool.and_false]

theorem downhillRefuses_of_unregistered (h : s.registered x = false) : downhillRefuses x s = false := by
  rw [downhillRefuses, h]
  rfl

theorem downhillRefuses_of_full (hr : s.registered x = true) (hd : ∀ e ∈ s.ct.downhill, e.id ≠ x)
    (hl : 64 ≤ s.ct.downhill.length) : downhillRefuses x s = true := by
  have hany : s.ct.downhill.any (fun e => e.id == x) = false := List.any_eq_false.2 fun e he => by simpa using hd e he
  rw [downhillRefuses, hr, hany]
  exact decide_eq_true hl

/-- R146: the cabin is at the tail of the downhill list, its records gone. -/
def launchedFrom (x : Nat) (q : List Cabin) (s : State) : State := setLocation x .downhill { s with ct := { s.ct with
  queue := q
  uphill := s.ct.uphill.filter fun e => e.id ≠ x
  downhill := s.ct.downhill.filter (fun e => e.id ≠ x) ++ [{ id := x, pos := s.ra.p, overdue := false }] } }

theorem summitMove_eq : summitMove x s = launchedFrom x (s.ct.queue.eraseP fun c => c.id == x) s := by
  rw [summitMove, filter_bne UpEntry.id, filter_bne DownEntry.id]
  rfl

theorem launchedFrom_settled {q : List Cabin} (h : Settled s) : Settled (launchedFrom x q s) :=
  ⟨h.deferred, h.waiting, h.launched, h.room⟩

theorem cabinLaunched_of_stranger (h : s.location x = none) :
    cabinLaunched x s = raise (eventFault (.cabin x) .unknownCabin) s := by
  rw [cabinLaunched, h]

theorem cabinLaunched_of_summit (h : s.location x = some .summit) :
    cabinLaunched x s = launchedFrom x (s.ct.queue.eraseP fun c => c.id == x) s := by
  rw [cabinLaunched, h]
  exact (if_pos rfl).trans summitMove_eq

/-- R146: a cabin that was at the summit and in no list. -/
theorem cabinLaunched_of_absent (h : s.location x = some .summit) (hq : ∀ c ∈ s.ct.queue, c.id ≠ x)
    (hu : ∀ e ∈ s.ct.uphill, e.id ≠ x) (hd : ∀ e ∈ s.ct.downhill, e.id ≠ x) : cabinLaunched x s =
      setLocation x .downhill { s with ct := { s.ct with
        downhill := s.ct.downhill ++ [{ id := x, pos := s.ra.p, overdue := false }] } } := by
  have huf : (s.ct.uphill.filter fun e => e.id ≠ x) = s.ct.uphill :=
    List.filter_eq_self.2 fun e he => decide_eq_true (hu e he)
  have hdf : (s.ct.downhill.filter fun e => e.id ≠ x) = s.ct.downhill :=
    List.filter_eq_self.2 fun e he => decide_eq_true (hd e he)
  rw [cabinLaunched_of_summit h, List.eraseP_of_forall_not fun c hc => by simpa using hq c hc, launchedFrom, huf, hdf]

theorem cabinLaunched_of_elsewhere {loc : Location} (h : s.location x = some loc) (hl : loc ≠ .summit) :
    cabinLaunched x s = evalRelease (olderLeft? (s.ct.queue.find? fun c => c.id == x)
      (raise (eventFault (.cabin x) .unknownCabin) (launchedFrom x (s.ct.queue.eraseP fun c => c.id == x) s))) := by
  rw [cabinLaunched, h, ← summitMove_eq]
  exact if_neg hl

/-- R79: GRIP_FAIL of a record that has left is reported gone. -/
def gripLeft (c : Cabin) (s : State) : State := if c.grip = .fail then gone (.cabin c.id) .gripFail s else s

theorem gripLeft_lineOnly {c : Cabin} (h : Settled s) : LineOnly s (gripLeft c s) := by
  rw [gripLeft]
  split
  · exact gone_lineOnly _ _ h
  · exact .refl s

theorem recordGone_of_alone {c : Cabin} (hset : Settled s) (h : ∀ y ∈ s.ct.queue, y.id ≠ c.id) :
    recordGone c s = gripLeft c s := by
  have hgrip : gripGone c.id s = gone (.cabin c.id) .gripFail s := by
    refine if_neg fun ha => ?_
    obtain ⟨y, hy, hf⟩ := List.any_eq_true.1 ha
    rw [Bool.and_eq_true, beq_iff_eq] at hf
    exact h y hy hf.1
  have hline := gripLeft_lineOnly (c := c) hset
  rw [recordGone, hgrip]
  refine if_neg ?_
  show (gripLeft c s).ct.backlogWaiting ≠ some c.id
  rw [(hset.after hline).waiting]
  exact nofun

/-- R146: the summit's launch of a cabin elsewhere is told to the desk. -/
def strayLaunch (x : Nat) (q : List Cabin) (s : State) : State :=
  raise (eventFault (.cabin x) .unknownCabin) (launchedFrom x q s)

theorem cabinLaunched_of_unrecorded {loc : Location} (h : s.location x = some loc) (hl : loc ≠ .summit) (hset : Settled s)
    (hq : ∀ c ∈ s.ct.queue, c.id ≠ x) : cabinLaunched x s = updateRelease (strayLaunch x s.ct.queue s) := by
  have hqf : ∀ c ∈ s.ct.queue, ¬ (c.id == x) = true := fun c hc => by simpa using hq c hc
  have hset' : Settled (strayLaunch x s.ct.queue s) :=
    (launchedFrom_settled hset).after (raise_lineOnly _ (launchedFrom_settled hset))
  rw [cabinLaunched_of_elsewhere h hl, List.eraseP_of_forall_not hqf, List.find?_eq_none.2 hqf]
  exact evalRelease_settled hset'

theorem strayLaunch_settled {q : List Cabin} (hset : Settled s) : Settled (strayLaunch x q s) :=
  (launchedFrom_settled hset).after (raise_lineOnly _ (launchedFrom_settled hset))

theorem strayLaunch_lineOnly {q : List Cabin} (hset : Settled s) : LineOnly (launchedFrom x q s) (strayLaunch x q s) :=
  raise_lineOnly _ (launchedFrom_settled hset)

theorem exitCheck_lineOnly {j : Nat} (h : Settled s) : LineOnly s (exitCheck j s) := by
  rw [exitCheck]
  split
  · exact .refl s
  · exact raise_lineOnly _ h

/-- R146: the record that the launched cabin leaves, GRIP_FAIL withdrawn. -/
def strayLeft (x : Nat) (c : Cabin) (q : List Cabin) (s : State) : State := gripLeft c (strayLaunch x q s)

theorem strayLeft_lineOnly {c : Cabin} {q : List Cabin} (hset : Settled s) :
    LineOnly (launchedFrom x q s) (strayLeft x c q s) :=
  (strayLaunch_lineOnly hset).trans (gripLeft_lineOnly (strayLaunch_settled hset))

section
variable {loc : Location} {before after : List Cabin} {c : Cabin} (h : s.location x = some loc) (hl : loc ≠ .summit)
  (hset : Settled s) (hq : s.ct.queue = before ++ c :: after) (hc : c.id = x) (ho : ∀ y ∈ before ++ after, y.id ≠ x)

include hset hc ho in
theorem recordGone_of_stray :
    recordGone c (strayLaunch x (before ++ after) s) = strayLeft x c (before ++ after) s := by
  refine recordGone_of_alone (strayLaunch_settled hset) ?_
  rw [(strayLaunch_lineOnly hset).ct, hc]
  exact ho

include hset in
theorem isBerth_strayLeft (j : Nat) : (strayLeft x c (before ++ after) s).isBerth j = s.isBerth j :=
  isBerth_congr ((strayLeft_lineOnly hset).others .straps (by decide)) j

include hset in
theorem door_strayLeft (j : Nat) : ((strayLeft x c (before ++ after) s).door j).state = (s.door j).state := by
  rw [(strayLeft_lineOnly hset).doors j]
  rfl

include h hl hset hq hc ho

theorem cabinLaunched_of_recorded : cabinLaunched x s = evalRelease (if s.isBerth c.zone then
      berthVacated c.zone (exitCheck c.zone (strayLeft x c (before ++ after) s))
    else strayLeft x c (before ++ after) s) := by
  have hb : ∀ y ∈ before, (y.id == x) = false := fun y hy => by simpa using ho y (List.mem_append_left _ hy)
  have hcx : (c.id == x) = true := by simpa using hc
  rw [cabinLaunched_of_elsewhere h hl, hq, eraseP_of_split hb hcx, find?_of_split hb hcx]
  show evalRelease (olderLeft c (strayLaunch x (before ++ after) s)) = _
  rw [olderLeft, recordGone_of_stray hset hc ho, isBerth_strayLeft hset]

theorem cabinLaunched_of_track (hz : s.isBerth c.zone = false) :
    cabinLaunched x s = updateRelease (strayLeft x c (before ++ after) s) := by
  rw [cabinLaunched_of_recorded h hl hset hq hc ho, if_neg (by rw [hz]; exact Bool.false_ne_true)]
  exact evalRelease_settled ((launchedFrom_settled hset).after (strayLeft_lineOnly hset))

theorem cabinLaunched_of_berth (hz : s.isBerth c.zone = true) : cabinLaunched x s =
    updateRelease (berthVacated c.zone (exitCheck c.zone (strayLeft x c (before ++ after) s))) := by
  have hleft := (launchedFrom_settled (x := x) (q := before ++ after) hset).after (strayLeft_lineOnly (c := c) hset)
  rw [cabinLaunched_of_recorded h hl hset hq hc ho, if_pos hz]
  exact evalRelease_settled (settled_of_eq (hleft.after (exitCheck_lineOnly hleft)) rfl rfl rfl)

end

end

end Sys2Proof.Machine
end

section
/-! SUPPORT. The summit's call messages, its voice and its notes (R143, R156, R157, R162). -/

namespace Sys2Proof.Machine

open Sys2Proof.Safety

section
variable {s : State} {x : CallSwitch} {fs : List QFrame} {h : Nat} {p : Priority} {b : List Byte}

/-! ## The messages by type (R142) -/

theorem processMessage_ring : processMessage { type := 0x03, payload := enc1 p.code } s = (true, summitRing p s) := by
  cases p <;> rfl

theorem processMessage_answer : processMessage { type := 0x04, payload := [] } s = (true, summitAnswer s) := rfl

theorem summitCause_code {c : Cause} (hc : c ≠ .link) : summitCause (enc1 c.code) = c := by
  cases c with
  | link => exact absurd rfl hc
  | normal => rfl
  | preempt => rfl
  | noAnswer => rfl

theorem processMessage_clear {c : Cause} (hc : c ≠ .link) :
    processMessage { type := 0x05, payload := enc1 c.code } s = (true, summitClear c s) :=
  congrArg (fun d => (true, summitClear d s)) (summitCause_code hc)

theorem processMessage_note (hroom : s.sl.rxQueue.length < 8) : processMessage { type := 0x06, payload := b } s =
    (true, setFlag .summitNote { s with sl := { s.sl with
      rxQueue := s.sl.rxQueue ++ [b], holdFlag := s.sl.holdFlag || decide (6 ≤ s.sl.rxQueue.length + 1) } }) := by
  refine (show processMessage { type := 0x06, payload := b } s = receiveNote b s from rfl).trans ?_
  refine (if_neg (Nat.not_le.2 hroom)).trans ?_
  dsimp only
  rw [List.length_append, List.length_singleton]

theorem processMessage_note_full (hfull : 8 ≤ s.sl.rxQueue.length) :
    processMessage { type := 0x06, payload := b } s = (false, s) := by
  refine (show processMessage { type := 0x06, payload := b } s = receiveNote b s from rfl).trans ?_
  exact if_pos hfull

/-! ## A ring of an IDLE part (R156) -/

section
variable (hphones : x.phones = s.cs.phones)
include hphones

theorem phoneEntry_placed (i : Nat) : (placed x fs s).phoneEntry i = s.phoneEntry i := by
  rw [State.phoneEntry, State.phoneEntry, ← hphones]
  rfl

theorem phoneFrame_placed (i : Nat) : phoneFrame i b (placed x fs s) = phoneFrame i b s := by
  rw [phoneFrame, phoneEntry_placed hphones, phoneFrame]

theorem ringers_placed : ringers (placed x fs s) = ringers s := by
  rw [ringers, ringers]
  exact List.filter_congr fun i _ => by rw [phoneEntry_placed hphones]

theorem ringGroup_placed (hrung : x.rung = []) (hroom : s.lr.voice.length + fs.length + (ringers s).length ≤ 4) :
    ringGroup (placed x fs s) =
      placed { x with rung := ringers s } (fs ++ (ringers s).map fun i => phoneFrame i [2, 0, 0] s) s := by
  have hframe : (fun i => phoneFrame i [2, 0, 0] (placed x fs s)) = fun i => phoneFrame i [2, 0, 0] s :=
    funext fun i => phoneFrame_placed hphones i
  have hall : (ringers s).filter (fun i => !([] : List Nat).contains i) = ringers s :=
    List.filter_eq_self.2 fun _ _ => rfl
  have hcs : (placed x fs s).cs.rung = [] := hrung
  have hlen : (placed x fs s).lr.voice.length = s.lr.voice.length + fs.length := List.length_append
  rw [ringGroup_of_room (by rw [ringers_placed hphones, hlen]; exact hroom), ringers_placed hphones, hframe, hcs, hall,
    List.nil_append, placed, List.append_assoc, placed]

end

/-- R156: the call record of an incoming call. -/
def CallSwitch.rungBy (x : CallSwitch) (p : Priority) (now : Nat) (group : List Nat) : CallSwitch :=
  { x.entered .incoming none p with ringTimer := some (now + 30000), repeatTimer := some (now + 1000), rung := group }

theorem startIncoming_placed (hphones : x.phones = s.cs.phones) (hcall : x.call = .idle)
    (hroom : s.lr.voice.length + fs.length + (ringers s).length ≤ 4) : startIncoming p (placed x fs s) =
      placed (x.rungBy p s.now (ringers s)) (fs ++ (ringers s).map fun i => phoneFrame i [2, 0, 0] s) s := by
  have hidle : (placed x fs s).cs.call = .idle := hcall
  have hset1 : setCall .incoming none p (placed x fs s) = placed (x.entered .incoming none p) fs s := by
    rw [setCall_of_quiet (by rw [hidle]; exact nofun) (by rw [hidle]; exact nofun), setFlag_changed, placed_placed,
      List.append_nil]
    rfl
  have hring := ringGroup_placed (x := x.rungBy p s.now []) (fs := fs) hphones rfl hroom
  rw [startIncoming, hset1]
  exact hring

theorem startIncoming_of_room (hcall : s.cs.call = .idle) (hroom : s.lr.voice.length + (ringers s).length ≤ 4) :
    startIncoming p s = placed (s.cs.rungBy p s.now (ringers s))
      ((ringers s).map fun i => phoneFrame i [2, 0, 0] s) s := by
  have hset1 : setCall .incoming none p s = placed (s.cs.entered .incoming none p) [] s :=
    (setCall_of_quiet (by rw [hcall]; exact nofun) (by rw [hcall]; exact nofun)).trans setFlag_changed
  have hring := ringGroup_placed (x := s.cs.rungBy p s.now []) (fs := []) rfl rfl hroom
  rw [startIncoming, hset1]
  exact hring

/-! ## A call connects (R156, R157) -/

theorem sendPhone_placed {st : Standing} {cause : Cause} (hp : x.phone = some h) (hphones : x.phones = s.cs.phones)
    (hnode : (s.phoneEntry h).node ≠ 0) (hroom : s.lr.voice.length + fs.length < 4) :
    sendPhone st cause (placed x fs s)
      = placed x (fs ++ [phoneFrame h (enc1 4 ++ enc1 st.code ++ enc1 cause.code) s]) s := by
  have hphone : (placed x fs s).cs.phone = some h := hp
  rw [sendPhone, hphone]
  dsimp only
  rw [sendStanding_placed (by rw [phoneEntry_placed hphones]; exact hnode) hroom, phoneFrame_placed hphones]

theorem connectCall_of_room (hcall : s.cs.call = .outgoing) (hp : s.cs.phone = some h) (hnode : (s.phoneEntry h).node ≠ 0)
    (hroom : s.lr.voice.length < 4) : connectCall p s =
      placed (s.cs.entered .connected (some h) p) [phoneFrame h [4, 4, 0] s] s := by
  have hset1 : setCall .connected (some h) p s = placed (s.cs.entered .connected (some h) p) [] s :=
    (setCall_of_quiet (by rw [hcall]; exact nofun) (by rw [hcall]; exact nofun)).trans setFlag_changed
  have hsend := sendPhone_placed (x := s.cs.entered .connected (some h) p) (fs := []) (st := .connected) (cause := .normal)
    rfl rfl hnode hroom
  rw [connectCall, hp, hset1]
  exact hsend

theorem connectCall_placed (hcall : x.call = .outgoing) (hp : x.phone = some h) (hphones : x.phones = s.cs.phones)
    (hnode : (s.phoneEntry h).node ≠ 0) (hroom : s.lr.voice.length + fs.length < 4) : connectCall p (placed x fs s) =
      placed (x.entered .connected (some h) p) (fs ++ [phoneFrame h [4, 4, 0] s]) s := by
  have hlen : (placed x fs s).lr.voice.length = s.lr.voice.length + fs.length := List.length_append
  rw [connectCall_of_room (s := placed x fs s) hcall hp (by rw [phoneEntry_placed hphones]; exact hnode)
    (by rw [hlen]; exact hroom), phoneFrame_placed hphones, placed_placed]
  rfl

theorem Priority.max_eq (a c : Priority) : a.max c = if a = .emergency ∨ c = .emergency then .emergency else .service := by
  cases a <;> cases c <;> rfl

theorem summitAnswer_of_other (hcall : s.cs.call ≠ .outgoing) : summitAnswer s = s := if_neg hcall

theorem summitAnswer_of_room (hcall : s.cs.call = .outgoing) (hp : s.cs.phone = some h)
    (hnode : (s.phoneEntry h).node ≠ 0) (hroom : s.lr.voice.length < 4) : summitAnswer s =
      placed (s.cs.entered .connected (some h) s.cs.priority) [phoneFrame h [4, 4, 0] s] s :=
  (if_pos hcall).trans (connectCall_of_room hcall hp hnode hroom)

/-! ## A CALL_CLEAR (R157) -/

section
variable {cause : Cause}

theorem summitClear_of_idle (hcall : s.cs.call = .idle) : summitClear cause s = s := if_pos hcall

theorem summitClear_of_call (hcall : s.cs.call ≠ .idle) (hb : s.cs.backlog = []) :
    summitClear cause s = serve (endCall cause s) := by
  rw [summitClear, dropPresent_of_empty hb]
  exact if_neg hcall

theorem summitClear_of_phone (hcall : s.cs.call = .outgoing ∨ s.cs.call = .connected) (hb : s.cs.backlog = [])
    (hw : s.cs.waiting = []) (hp : s.cs.phone = some h) (hnode : (s.phoneEntry h).node ≠ 0) (hroom : s.lr.voice.length < 4) :
    summitClear cause s
      = placed (s.cs.entered .idle none s.cs.priority) [phoneFrame h ([4, 0] ++ enc1 cause.code) s] s := by
  have hidle : s.cs.call ≠ .idle := by
    rcases hcall with hc | hc <;> rw [hc] <;> exact nofun
  have hserve := serve_placed_of_stopped (x := s.cs.entered .idle none s.cs.priority)
    (fs := [phoneFrame h ([4, 0] ++ enc1 cause.code) s]) (s := s) (.inl hw)
  rw [summitClear_of_call hidle hb, endCall_placed hcall hp hnode hroom]
  exact hserve

theorem summitClear_of_incoming (hin : s.cs.call = .incoming) (hb : s.cs.backlog = []) (hw : s.cs.waiting = [])
    (hp : s.cs.phone = none) (hnode : ∀ i ∈ s.cs.rung, (s.phoneEntry i).node ≠ 0)
    (hroom : s.lr.voice.length + s.cs.rung.length ≤ 4) : summitClear cause s =
      placed (s.cs.entered .idle none s.cs.priority) (s.cs.rung.map fun i => phoneFrame i [3, 0, 0] s) s := by
  have hserve := serve_placed_of_stopped (x := s.cs.entered .idle none s.cs.priority)
    (fs := s.cs.rung.map fun i => phoneFrame i [3, 0, 0] s) (s := s) (.inl hw)
  rw [summitClear_of_call (by rw [hin]; exact nofun) hb, endCall_of_incoming hin hp hnode hroom, setFlag_voiced]
  exact hserve

/-- R154: a waiting phone is served by the clear of a connected call. -/
theorem summitClear_of_waiting {w : WaitReq} {rest : List WaitReq} (hcall : s.cs.call = .connected)
    (hb : s.cs.backlog = []) (hw : s.cs.waiting = w :: rest) (hl : s.linkRunning = true) (hset : Settled s)
    (htx : s.sl.txQueue.length < 15) (hp : s.cs.phone = some h) (hnode : (s.phoneEntry h).node ≠ 0)
    (hnodew : (s.phoneEntry w.phone).node ≠ 0) (hroom : s.lr.voice.length < 3) : summitClear cause s =
      placed ({ s.cs.entered .idle none s.cs.priority with waiting := rest }.dialled w.phone w.priority s.now)
        [phoneFrame h ([4, 0] ++ enc1 cause.code) s, phoneFrame w.phone [4, 1, 0] s]
        (updateRelease (messaged (ringMsg w.priority) s)) := by
  have hserve := serve_placed_of_waiting (x := s.cs.entered .idle none s.cs.priority)
    (fs := [phoneFrame h ([4, 0] ++ enc1 cause.code) s]) (s := s) hw rfl hl hb hset htx hnodew (Nat.succ_lt_succ hroom)
  rw [summitClear_of_call (by rw [hcall]; exact nofun) hb, endCall_placed (.inr hcall) hp hnode (by omega)]
  exact hserve

end

/-! ## A CALL_RING (R156) -/

theorem summitRing_of_idle (hcall : s.cs.call = .idle) (hroom : s.lr.voice.length + (ringers s).length ≤ 4) :
    summitRing p s = placed (s.cs.rungBy p s.now (ringers s)) ((ringers s).map fun i => phoneFrame i [2, 0, 0] s) s := by
  refine (if_neg (by rw [hcall]; exact nofun)).trans ?_
  rw [ringTaken, hcall]
  exact startIncoming_of_room hcall hroom

theorem summitRing_of_incoming (hcall : s.cs.call = .incoming) : summitRing p s = s := by
  refine (if_neg (by rw [hcall]; exact nofun)).trans ?_
  rw [ringTaken, hcall]

section
variable (hp : s.cs.phone = some h) (hnode : (s.phoneEntry h).node ≠ 0)
include hp hnode

theorem summitRing_of_outgoing (hcall : s.cs.call = .outgoing) (hroom : s.lr.voice.length < 4) : summitRing p s =
    placed (s.cs.entered .connected (some h) (s.cs.priority.max p)) [phoneFrame h [4, 4, 0] s] s := by
  refine (if_neg (by rw [hcall]; exact nofun)).trans ?_
  rw [ringTaken, hcall]
  exact connectCall_of_room hcall hp hnode hroom

section
variable (hcall : s.cs.call = .connected) (hb : s.cs.backlog = [])
include hcall hb

theorem summitRing_of_connected (hw : s.cs.waiting = []) (hroom : s.lr.voice.length + (ringers s).length < 4) :
    summitRing p s = placed ((s.cs.entered .idle none s.cs.priority).rungBy p s.now (ringers s))
      (phoneFrame h [4, 0, 0] s :: (ringers s).map fun i => phoneFrame i [2, 0, 0] s) s := by
  have hclear := summitClear_of_phone (cause := .normal) (.inr hcall) hb hw hp hnode (by omega)
  have hring := startIncoming_placed (x := s.cs.entered .idle none s.cs.priority) (fs := [phoneFrame h [4, 0, 0] s])
    (p := p) rfl rfl (by rw [List.length_singleton]; omega)
  refine (if_pos hcall).trans ?_
  rw [hclear]
  exact hring

theorem summitRing_of_served {w : WaitReq} {rest : List WaitReq} (hw : s.cs.waiting = w :: rest)
    (hl : s.linkRunning = true) (hset : Settled s) (htx : s.sl.txQueue.length < 15)
    (hnodew : (s.phoneEntry w.phone).node ≠ 0) (hroom : s.lr.voice.length < 2) : summitRing p s =
      placed ({ s.cs with waiting := rest, voice := [] }.entered .connected (some w.phone) (w.priority.max p))
        [phoneFrame h [4, 0, 0] s, phoneFrame w.phone [4, 1, 0] s, phoneFrame w.phone [4, 4, 0] s]
        (updateRelease (messaged (ringMsg w.priority) s)) := by
  obtain ⟨u, hu⟩ : ∃ u, u = updateRelease (messaged (ringMsg w.priority) s) := ⟨_, rfl⟩
  have hcs : u.cs = s.cs := hu ▸ updateRelease_cs _
  have hv : u.lr.voice = s.lr.voice := hu ▸ updateRelease_voice _
  have hentry : u.phoneEntry w.phone = s.phoneEntry w.phone := by rw [State.phoneEntry, hcs, State.phoneEntry]
  have hframe : phoneFrame w.phone [4, 4, 0] u = phoneFrame w.phone [4, 4, 0] s := by rw [phoneFrame, hentry, phoneFrame]
  have hclear := summitClear_of_waiting (cause := .normal) hcall hb hw hl hset htx hp hnode hnodew (by omega)
  have hconnect := connectCall_placed (s := u) (p := w.priority.max p) (h := w.phone)
    (x := { s.cs.entered .idle none s.cs.priority with waiting := rest }.dialled w.phone w.priority s.now)
    (fs := [phoneFrame h [4, 0, 0] s, phoneFrame w.phone [4, 1, 0] s]) rfl rfl (by rw [hcs]; rfl)
    (by rw [hentry]; exact hnodew) (by rw [hv]; exact Nat.add_lt_add_right hroom 2)
  have hrecord : ({ s.cs.entered .idle none s.cs.priority with waiting := rest }.dialled w.phone w.priority s.now).entered
      .connected (some w.phone) (w.priority.max p)
      = { s.cs with waiting := rest, voice := [] }.entered .connected (some w.phone) (w.priority.max p) := by
    simp only [CallSwitch.dialled, CallSwitch.entered, hcall, if_true, ite_self]
  refine (if_pos hcall).trans ?_
  rw [hclear, ← hu]
  refine hconnect.trans ?_
  rw [hframe, hrecord]
  rfl

end

end

/-! ## The voice of a good burst (R162) -/

theorem summitVoice_of_quiet (hcall : s.cs.call ≠ .connected) : summitVoice b s = s := by
  rw [summitVoice]
  split
  · next hc _ => exact absurd hc hcall
  · rfl

theorem summitVoice_of_call (hcall : s.cs.call = .connected) (hp : s.cs.phone = some h)
    (hnode : (s.phoneEntry h).node ≠ 0) (hroom : s.lr.voice.length < 4) : summitVoice b s =
      voiced [{ dest := (s.phoneEntry h).node, kind := .voice, payload := b, tag := 0, restart := false }] s := by
  rw [summitVoice, hcall, hp]
  exact (if_neg hnode).trans (offerVoice_of_room hroom _)

end

end Sys2Proof.Machine
end

section
/-! SUPPORT. A good summit burst that confirms nothing, its demand held (R120, R126, R141). -/

namespace Sys2Proof.Machine

open Sys2Proof.Safety

/-- A good burst is at its end: it confirms nothing, and its demand is the one held. -/
structure HeldBurst (b : SummitBurst) (chars : List Byte) (s : State) : Prop where
  pin : s.resetHeld = false
  turn : s.sl.turn = .receiving chars false
  parses : parseSummitBurst s.straps.rate chars = some b
  number : b.turn = s.sl.turnNumber
  confirms : confirmedBy b.next s.sl.txQueue = 0
  held : s.sl.summitHeld = some b.word.demand
  link : s.sl.link = .up

/-- R122, R126, R139: the state after such a burst without messages and voice. -/
def tookBurst (b : SummitBurst) (s : State) : State :=
  { s with sl := { s.sl with missed := 0, turn := .none, summitWord := some b.word, summitHold := b.hold } }

section
variable {b : SummitBurst} {chars : List Byte} {s t : State} {m : Message}

theorem confirm_goodBurst (h : confirmedBy b.next s.sl.txQueue = 0) :
    confirm b.next b.hold (goodBurst b s) = tookBurst b s := confirm_of_none (s := goodBurst b s) h

theorem HeldBurst.exec_messages (h : HeldBurst b chars s) (hv : b.voice = none) :
    exec .summitBurstEnd s = .next (takeMessages b.msgs (tookBurst b s)) := by
  rw [exec_goodBurst h.pin h.turn (judgeBurst_of_good rfl h.parses h.number), handOn_of_held h.link h.held hv,
    confirm_goodBurst h.confirms]

theorem HeldBurst.exec_alone (h : HeldBurst b chars s) (hv : b.voice = none) (hm : b.msgs = []) :
    exec .summitBurstEnd s = .next (tookBurst b s) := by
  rw [h.exec_messages hv, hm]
  rfl

theorem HeldBurst.exec_voice {block : List Byte} (h : HeldBurst b chars s) (hv : b.voice = some block) (hm : b.msgs = []) :
    exec .summitBurstEnd s = .next (summitVoice block (tookBurst b s)) := by
  rw [exec_goodBurst h.pin h.turn (judgeBurst_of_good rfl h.parses h.number), handOn_of_voice h.link h.held hv,
    confirm_goodBurst h.confirms, hm]
  rfl

section
variable (h : HeldBurst b chars s) (hv : b.voice = none) (hm : b.msgs = [(m, s.sl.nextExpected)])
include h hv hm

theorem HeldBurst.exec_refused (hp : processMessage m (tookBurst b s) = (false, t)) :
    exec .summitBurstEnd s = .next t := by
  rw [h.exec_messages hv, hm]
  exact congrArg Host.Outcome.next (takeMessages_of_refused hp rfl)

theorem HeldBurst.exec_took (hp : processMessage m (tookBurst b s) = (true, t))
    (hn : t.sl.nextExpected = s.sl.nextExpected) :
    exec .summitBurstEnd s = .next { t with sl := { t.sl with nextExpected := s.sl.nextExpected + 1 } } := by
  rw [h.exec_messages hv, hm, ← hn]
  exact congrArg Host.Outcome.next (takeMessages_of_done hp (by rw [hn]; rfl))

theorem HeldBurst.exec_called {x : CallSwitch} {fs : List QFrame}
    (hp : processMessage m (tookBurst b s) = (true, placed x fs t)) (hn : t.sl.nextExpected = s.sl.nextExpected) :
    let v := setFlag .callChange { t with cs := x, lr := { t.lr with voice := t.lr.voice ++ fs } }
    exec .summitBurstEnd s = .next { v with sl := { v.sl with nextExpected := s.sl.nextExpected + 1 } } := by
  have hv' : setFlag .callChange { t with cs := x, lr := { t.lr with voice := t.lr.voice ++ fs } } = placed x fs t :=
    setFlag_voiced
  rw [hv']
  exact h.exec_took hv hm hp hn

theorem HeldBurst.exec_unchanged (hp : processMessage m (tookBurst b s) = (true, tookBurst b s)) :
    exec .summitBurstEnd s =
      .next { tookBurst b s with sl := { (tookBurst b s).sl with nextExpected := s.sl.nextExpected + 1 } } :=
  h.exec_took hv hm hp rfl

end

theorem nextExpected_of_lineOnly {n : Byte} (h : LineOnly s t) (hs : s.sl.nextExpected = n) :
    t.sl.nextExpected = n := by
  rw [h.sl, hs]

theorem nextExpected_updateRelease (s : State) : (updateRelease s).sl.nextExpected = s.sl.nextExpected := by
  rw [updateRelease_sl]

theorem outsideWindow_iff {span tol d : Nat} :
    outsideWindow span tol d = true ↔ ¬ (span ≤ d + tol ∧ d ≤ span + tol) := by
  rw [outsideWindow, decide_eq_true_iff]
  omega

theorem arrivalPlaced_of_inside {x d : Nat} (h : s.params.uphillSpan ≤ d + s.params.tolerance
    ∧ d ≤ s.params.uphillSpan + s.params.tolerance) : arrivalPlaced x d s = s :=
  if_neg fun ho => outsideWindow_iff.1 ho h

theorem arrivalPlaced_of_outside {x d : Nat} (h : ¬ (s.params.uphillSpan ≤ d + s.params.tolerance
    ∧ d ≤ s.params.uphillSpan + s.params.tolerance)) :
    arrivalPlaced x d s = raise (eventFault (.cabin x) .arrivalPosition) s := if_pos (outsideWindow_iff.2 h)

end

/-! ## The call records (R156, R157) -/

section
variable {x : CallSwitch} {st : CallState} {phone : Option Nat} {prio : Priority}

theorem entered_of_quiet (h : x.call ≠ .connected) : x.entered st phone prio =
    { x with call := st, phone := phone, priority := prio, ringTimer := none, repeatTimer := none, rung := [] } := by
  rw [CallSwitch.entered, if_neg h]

theorem talking_of_ne {c : CallState} (hidle : c ≠ .idle) (hin : c ≠ .incoming) : c = .outgoing ∨ c = .connected := by
  cases c with
  | idle => exact absurd rfl hidle
  | incoming => exact absurd rfl hin
  | outgoing => exact .inl rfl
  | connected => exact .inr rfl

theorem entered_of_connected (h : x.call = .connected) : x.entered st phone prio =
    { x with
      call := st, phone := phone, priority := prio, ringTimer := none, repeatTimer := none, rung := [], voice := [] } := by
  rw [CallSwitch.entered, if_pos h]

end

/-- Settles O44. -/
theorem summitBurstsJudged : Obligations.SummitBurstsJudged := by
  refine ⟨?_, ?_, ?_⟩
  · intro chars framing s hpin hturn
    refine ⟨?_, fun hbad hfew => ?_⟩
    · intro b hf hparse hnum hheld hvoice hlink good u
      refine ⟨fun hout => ?_, fun e es hq h1 hle hset hb hm => ?_⟩
      · have hburst : HeldBurst b chars s :=
          ⟨hpin, hf ▸ hturn, hparse, hnum, confirmedBy_of_outside hout, hheld, hlink⟩
        refine ⟨hburst.exec_alone hvoice, fun note hm => ⟨fun hroom => ?_, fun hfull => ?_⟩⟩
        · refine hburst.exec_took hvoice hm (processMessage_note hroom) ?_
          rw [setFlag_sl]
        · exact hburst.exec_refused hvoice hm (processMessage_note_full hfull)
      · rw [exec_goodBurst hpin hturn (judgeBurst_of_good hf hparse hnum), handOn_of_held hlink hheld hvoice, hm]
        exact congrArg Host.Outcome.next (confirm_of_some (s := goodBurst b s) hq h1 hle
          ⟨hset.deferred, hset.waiting, hset.launched, hset.room⟩ hb)
    · rw [exec_badBurst hpin hturn (judgeBurst_of_bad hbad), missedTurn_of_few (.inl hfew)]
      rfl
  · intro chars b s hpin hturn hparse hnum hq hvoice hm hlink hset hd
    let v : State := { s with sl := { s.sl with
      missed := 0, turn := .none, summitWord := some b.word, summitHeld := some b.word.demand } }
    have hset' : Settled v := ⟨hset.deferred, hset.waiting, hset.launched, hset.room⟩
    refine ⟨raise (demandFault b.word.demand) v, ?_, raise_raised _ hset'⟩
    have hnone : confirmedBy b.next (raise (demandFault b.word.demand) v).sl.txQueue = 0 := by
      rw [(raise_lineOnly _ hset').sl]
      exact congrArg (confirmedBy b.next) hq
    rw [exec_goodBurst hpin hturn (judgeBurst_of_good rfl hparse hnum), handOn_of_worse hlink hvoice hd, hm]
    exact congrArg Host.Outcome.next (confirm_of_none hnone)
  · intro chars b s hpin hturn hparse hnum hq hheld hlink u took called event told
    have hburst : HeldBurst b chars s := ⟨hpin, hturn, hparse, hnum, by rw [hq]; rfl, hheld, hlink⟩
    have hu : Settled s → Settled u := fun h => ⟨h.deferred, h.waiting, h.launched, h.room⟩
    refine ⟨?_, ?_, ?_⟩
    · intro m q hvoice hm h1 h2
      rw [hburst.exec_messages hvoice, hm]
      exact congrArg Host.Outcome.next (takeMessages_of_ahead h1 h2)
    · intro m hvoice hm
      refine ⟨?_, ?_, ?_, ?_, ?_⟩
      -- CABIN_ARRIVED
      · intro x h1 h2 hmsg hset
        subst hmsg
        refine ⟨fun hn => ⟨_, ?_, raise_raised _ (hu hset)⟩, ?_⟩
        · exact hburst.exec_took hvoice hm ((processMessage_arrived h1 h2).trans
            (congrArg (Prod.mk true) (cabinArrived_of_unlisted hn))) (nextExpected_of_lineOnly (raise_lineOnly _ (hu hset)) rfl)
        · intro before e after hl he hb d inside moved
          have hmoved : Settled moved := ⟨hset.deferred, hset.waiting, hset.launched, hset.room⟩
          have hjudged := arrivalJudged_lineOnly (x := x) (before := before) hmoved
          have hplaced := arrivalPlaced_lineOnly (x := x) (d := d) (hmoved.after hjudged)
          have hparams : (arrivalJudged x before moved).params = s.params := hjudged.params
          refine ⟨arrivalJudged x before moved, arrivalPlaced x d (arrivalJudged x before moved), fun h => if_pos h,
            fun h => ?_, fun h => ?_, fun h => ?_, ?_⟩
          · rw [arrivalJudged, if_neg h]
            exact raise_raised _ (hmoved.after (setFlag_lineOnly _ _))
          · exact arrivalPlaced_of_inside (by rw [hparams]; exact h)
          · rw [arrivalPlaced_of_outside (by rw [hparams]; exact h)]
            exact raise_raised _ (hmoved.after hjudged)
          · exact hburst.exec_took hvoice hm ((processMessage_arrived h1 h2).trans
              (congrArg (Prod.mk true) (cabinArrived_of_found (s := u) hl he hb (hu hset))))
              ((nextExpected_updateRelease _).trans (nextExpected_of_lineOnly (hjudged.trans hplaced) rfl))
      -- CABIN_LAUNCHED
      · intro x h1 h2 hmsg
        subst hmsg
        have hdone : ∀ {t}, downhillRefuses x u = false → cabinLaunched x u = t →
            t.sl.nextExpected = s.sl.nextExpected → took t := fun hr ht hn =>
          hburst.exec_took hvoice hm ((processMessage_launched h1 h2 hr).trans (congrArg (Prod.mk true) ht)) hn
        refine ⟨fun hloc hroom hqueue hup hdown => ?_, fun hset => ⟨fun hloc => ?_, fun hreg hd hfull => ?_, ?_⟩⟩
        · exact hdone (downhillRefuses_of_room (.inr hroom)) (cabinLaunched_of_absent hloc hqueue hup hdown) rfl
        · refine ⟨_, hdone (downhillRefuses_of_unregistered ?_) (cabinLaunched_of_stranger hloc)
            (nextExpected_of_lineOnly (raise_lineOnly _ (hu hset)) rfl), raise_raised _ (hu hset)⟩
          exact congrArg Option.isSome hloc
        · exact ⟨_, hburst.exec_refused hvoice hm (processMessage_refused h1 h2 (downhillRefuses_of_full hreg hd hfull)),
            raise_raised _ (hu hset)⟩
        · intro loc hloc hne hplace moved told
          have hroom : downhillRefuses x u = false := downhillRefuses_of_room hplace
          have hmoved : ∀ q, Settled (moved q) := fun q => launchedFrom_settled (x := x) (q := q) (hu hset)
          refine ⟨fun hqueue => ⟨strayLaunch x s.ct.queue u, raise_raised _ (hmoved _), ?_⟩, ?_⟩
          · exact hdone hroom (cabinLaunched_of_unrecorded hloc hne (hu hset) hqueue)
              ((nextExpected_updateRelease _).trans (nextExpected_of_lineOnly (strayLaunch_lineOnly (hu hset)) rfl))
          · intro before c after hqueue hc ho
            have hstray := strayLaunch_settled (x := x) (q := before ++ after) (hu hset)
            have hleft := strayLeft_lineOnly (x := x) (c := c) (q := before ++ after) (hu hset)
            have hleftS := (launchedFrom_settled (hu hset)).after hleft
            refine ⟨strayLaunch x (before ++ after) u, strayLeft x c (before ++ after) u, raise_raised _ (hmoved _),
              fun hg => if_neg hg, fun hg => ?_, fun hz => ?_, fun hz => ?_⟩
            · rw [strayLeft, gripLeft, if_pos hg, hc]
              exact gone_withdrawn _ _ hstray
            · exact hdone hroom (cabinLaunched_of_track (s := u) hloc hne (hu hset) hqueue hc ho hz)
                ((nextExpected_updateRelease _).trans (nextExpected_of_lineOnly hleft rfl))
            · have hdoor := door_strayLeft (x := x) (c := c) (before := before) (after := after) (hu hset) c.zone
              have hnext := nextExpected_of_lineOnly (n := s.sl.nextExpected)
                (hleft.trans (exitCheck_lineOnly (j := c.zone) hleftS)) rfl
              refine ⟨exitCheck c.zone (strayLeft x c (before ++ after) u), fun hcl => ?_, fun hop => ?_, ?_⟩
              · exact exitCheck_of_closed (hdoor.trans hcl)
              · rw [exitCheck_of_open (by rw [hdoor]; exact hop)]
                exact raise_raised _ hleftS
              · exact hdone hroom (cabinLaunched_of_berth (s := u) hloc hne (hu hset) hqueue hc ho hz)
                  ((nextExpected_updateRelease _).trans hnext)
      -- CALL_RING
      · intro p hmsg group rings worse incoming connected
        subst hmsg
        have hring : ∀ {x y fs t}, summitRing p u = placed x fs t → x = y → t.sl.nextExpected = s.sl.nextExpected →
            took (called t y fs) := fun h hxy hn =>
          hburst.exec_called hvoice hm (processMessage_ring.trans (congrArg (Prod.mk true) (hxy ▸ h))) hn
        have hmax : ∀ a, a.max p = worse a p := fun a => Priority.max_eq a p
        refine ⟨fun hc hlen => ?_, fun hc => ?_, fun h hp hnode hlen => ⟨fun hc => ?_, fun hc hb => ⟨fun hw hlen => ?_, ?_⟩⟩⟩
        · refine hring (summitRing_of_idle (s := u) hc hlen) ?_ rfl
          rw [CallSwitch.rungBy, entered_of_quiet (by rw [hc]; exact nofun)]
          rfl
        · exact hburst.exec_unchanged hvoice hm (processMessage_ring.trans
            (congrArg (Prod.mk true) (summitRing_of_incoming (s := u) hc)))
        · refine hring (summitRing_of_outgoing (s := u) hp hnode hc hlen) ?_ rfl
          rw [entered_of_quiet (by rw [hc]; exact nofun), hmax, ← hp]
        · refine hring (summitRing_of_connected (s := u) hp hnode hc hb hw hlen) ?_ rfl
          rw [CallSwitch.rungBy, entered_of_connected hc, entered_of_quiet (by exact nofun)]
          rfl
        · intro y ys hw hnodey hlen hset v
          have hv : v = updateRelease (messaged (ringMsg y.priority) u) := by
            rw [messaged, show u.sl.txQueue = [] from hq]
            rfl
          rw [hv]
          refine hring (summitRing_of_served (s := u) hp hnode hc hb hw (linkRunning_iff.2 (.inl hlink)) (hu hset)
            (by rw [hq]; decide) hnodey hlen) ?_ (nextExpected_updateRelease _)
          exact (entered_of_connected (x := { u.cs with waiting := ys, voice := [] }) hc).trans (by rw [hmax])
      -- CALL_ANSWER
      · intro hmsg
        subst hmsg
        refine ⟨fun hc => ?_, fun h hc hp hnode hlen => ?_⟩
        · exact hburst.exec_unchanged hvoice hm (processMessage_answer.trans
            (congrArg (Prod.mk true) (summitAnswer_of_other (s := u) hc)))
        · have hx : u.cs.entered .connected (some h) u.cs.priority = { s.cs with
              call := .connected, ringTimer := none, repeatTimer := none, rung := [] } := by
            rw [entered_of_quiet (by rw [hc]; exact nofun), ← hp]
          exact hburst.exec_called hvoice hm (processMessage_answer.trans
            (congrArg (Prod.mk true) (hx ▸ summitAnswer_of_room (s := u) hc hp hnode hlen))) rfl
      -- CALL_CLEAR
      · intro c hc hmsg
        subst hmsg
        have hclear : ∀ {x y fs}, summitClear c u = placed x fs u → x = y → took (called u y fs) := fun h hxy =>
          hburst.exec_called hvoice hm ((processMessage_clear hc).trans (congrArg (Prod.mk true) (hxy ▸ h))) rfl
        refine ⟨fun hi => ?_, fun hi hw hb => ?_⟩
        · exact hburst.exec_unchanged hvoice hm ((processMessage_clear hc).trans
            (congrArg (Prod.mk true) (summitClear_of_idle (s := u) hi)))
        · refine ⟨fun h hin hp hnode hlen => ?_, fun hin hp hnode hlen => ?_⟩
          · exact hclear (summitClear_of_phone (s := u) (talking_of_ne hi hin) hb hw hp hnode hlen) rfl
          · refine hclear (summitClear_of_incoming (s := u) hin hb hw hp hnode hlen) ?_
            exact entered_of_quiet (x := u.cs) (by rw [hin]; exact nofun)
    · intro block hvoice hm
      refine ⟨fun hc => ?_, fun h hc hp hnode hlen => ?_⟩
      · rw [hburst.exec_voice hvoice hm, summitVoice_of_quiet (s := tookBurst b s) hc]
        rfl
      · rw [hburst.exec_voice hvoice hm, summitVoice_of_call (s := tookBurst b s) hc hp hnode hlen]
        rfl

end Sys2Proof.Machine
end
